-- ==== Sys2Proof/Word.lean ====
section
/-!
DEFINITION. The two word types of the TZ7740: a 32-bit register word and a byte of memory.
-/
namespace Sys2Proof

/-- A register word: every register of the block is 32 bits wide (R6, R10). -/
abbrev Word := BitVec 32

/-- One byte of memory, of a frame or of a packet. -/
abbrev Byte := BitVec 8

end Sys2Proof
end

