-- ==== Sys2Proof/Syntax.lean ====
section
/-!
DEFINITION. The commands the TZ7740 takes: one constructor of `Instr` per row of spec/opcode_table.json, in the table's order,
with the operands the row's rule gives it. What an operand selects out of a fixed number of like units is a `Fin`, so that no
command can name a unit the device does not have.
-/
namespace Sys2Proof

/-- Who sends an access: each has its own latches (R36) and its own fabric class (R20). -/
inductive Requester where
  | cc0 | cc1 | pcie | qspi | debug
  deriving DecidableEq, Repr

/-- What a read of one fabric word found (R26). -/
inductive EccResult where
  | clean | corrected | uncorrectable
  deriving DecidableEq, Repr

/-- The SRAM arrays of Table 1-5 and the two AON arrays of R376. -/
inductive SramArray where
  | canvasStore | pool | firmwareSram | switchBuffer | retained
  deriving DecidableEq, Repr

/-- A decoded SMPTE timecode (R65). -/
structure Timecode where
  hours : Nat
  minutes : Nat
  seconds : Nat
  frames : Nat
  deriving DecidableEq, Repr

/-- A receiver of an Itren line: a strand port's RX, or a port of a node. -/
inductive LineRx where
  | port (n : Fin 32)
  | node (n : Fin 32) (k : Fin 2048) (port2 : Bool)
  deriving DecidableEq, Repr


/-- How a command packet reaches firmware (Table 12-3): a notice in mailbox `m`, with what a read of host memory from its pointer on
returns; or the next frame of firmware's receive ring, over UDP or the pair link (R315). -/
inductive Via where
  | mailbox (m : Fin 4) (host : List Byte)
  | ring
  deriving DecidableEq, Repr

/-- A command of the TZ7740: one row of spec/opcode_table.json each. -/
inductive Instr where
  /-- REGISTER_WRITE (R6). A write to a register or field that has no row of its own stores or acts under its access code. Operands: the requester, the bus address, the word written, and what a read of host memory that the write causes returns. -/
  | registerWrite (who : Requester) (addr : BitVec 32) (value : Word) (host : List Byte)
  /-- MULTIWORD_CAPTURE_READ (R36). A read of the lowest-offset register of a multi-register value captures the whole value into that requester's latch. Operands: the requester and the bus address read. -/
  | multiwordCaptureRead (who : Requester) (addr : BitVec 32)
  /-- FAB_GUARD (R24). A request that has waited 32 µs at a bank is granted next, SYS_FAB_GUARD_COUNT increments and FAB_GUARD is set. Operands: the class of the request that waited, less 1: the guard serves classes 1 to 4. -/
  | fabGuard (fabClass : Fin 4)
  /-- PATROL_SCRUB (R27). Every 4 µs with SCRUB_EN set, the scrubber reads one burst and rewrites any corrected word. Operands: the burst read, or the bank of the switch buffer that TRK scrubs in its place, and what its check bits said. -/
  | patrolScrub (addr : BitVec 32) (buffer : Option (Fin 16)) (found : EccResult)
  /-- MEMORY_WIPE_DONE (R375). A wipe of an SRAM array completes and the array becomes reachable. Operands: the array whose wipe ended. -/
  | memoryWipeDone (array : SramArray)
  /-- ATLAS_WRITE_LAND (R139). A waiting ATLAS_WRITE lands in its spare block once the batches reading that block have retired or been cancelled. Operands: the region whose write was waiting. -/
  | atlasWriteLand (region : Fin 64)
  /-- TB_SET (R37). TBn_CTRL.SET loads TBn_SET_* into the time base on the next clock. Operands: the time base, and whose staging registers hold the value. -/
  | tbSet (n : Fin 4) (who : Requester)
  /-- TB_STEP (R37). TBn_CTRL.STEP adds the signed step value to the time base. Operands: the time base, and whose staging registers hold the step. -/
  | tbStep (n : Fin 4) (who : Requester)
  /-- ACCEPT_JUMP (R43). A write of TBn_CTRL.ACCEPT_JUMP sets JUMP_ARMED. Operands: the time base. -/
  | acceptJump (n : Fin 4)
  /-- TB_CLR_COUNTS (R57). TBn_CTRL.CLR_COUNTS clears the sample, jump and step counts. Operands: the time base. -/
  | tbClrCounts (n : Fin 4)
  /-- TB_OFFSET_SAMPLE (R39). A write to TBn_OFS_HI submits an offset sample to the servo. Operands: the time base, the requester, and the word written to TBn_OFS_HI. -/
  | tbOffsetSample (n : Fin 4) (who : Requester) (ofsHi : Word)
  /-- PPS_CAPTURE (R38). A rising edge on PPS_IN is captured and forms a PPS offset sample. Operands: the quarter nanosecond of the edge inside the fabric clock. -/
  | ppsCapture (quarter : Fin 4)
  /-- CLK10M_CAPTURE (R38). Every 1,000th rising edge of CLK10M_IN is captured and forms a CLK10M offset sample. Operands: the quarter nanosecond of the edge inside the fabric clock. -/
  | clk10mCapture (quarter : Fin 4)
  /-- TB_SAMPLE_TIMEOUT (R42). No sample for SAMPLE_TIMEOUT takes the time base to HOLDOVER or switches TB0 to domain B. Operands: the time base. -/
  | tbSampleTimeout (n : Fin 4)
  /-- SYNCE_REF_LOSS (R44). Loss of signal or lock on the SyncE reference switches references or enters DPLL holdover. Operands: which reference was lost. -/
  | synceRefLoss (secondary : Bool)
  /-- SYNCE_REF_RESTORE (R44). A SyncE reference becomes valid again, and a revertive DPLL returns to the primary. Operands: which reference returned. -/
  | synceRefRestore (secondary : Bool)
  /-- TSQ_POP (R52). A read of TRK_Pp_TSQ_W3 removes the head entry of the transmit timestamp queue. Operands: the trunk port and the requester that read W3. -/
  | tsqPop (p : Fin 4) (who : Requester)
  /-- MERIDIAN_ROW_START (R61). The Meridian position enters a new Row. Operands: the Meridian, and the E1.31 transmit entries whose packets are not fetched before the next release of their Row. -/
  | meridianRowStart (m : Fin 2) (lost : List Nat)
  /-- MERIDIAN_FRAME_BOUNDARY (R59). TICK wraps to 0 and FRAME increments. Operands: the Meridian. -/
  | meridianFrameBoundary (m : Fin 2)
  /-- FSYNC_EDGE (R65). A reference edge on FSYNC_IN sets or checks the frame phase of a VIDEO Meridian. Operands: the edge's direction and its quarter nanosecond inside the fabric clock. -/
  | fsyncEdge (rising : Bool) (quarter : Fin 4)
  /-- LSYNC_EDGE (R65). A reference edge on LSYNC_IN is a lock loop update at the next whole tick. Operands: as for FSYNC_EDGE. -/
  | lsyncEdge (rising : Bool) (quarter : Fin 4)
  /-- LTC_SYNC_WORD (R65). The end of an LTC sync word is an update at TICK 0 and may reload FRAME. Operands: the timecode decoded and the instant of the sync word's end. -/
  | ltcSyncWord (tc : Timecode) (quarter : Fin 4)
  /-- WCLK_EDGE (R65). A WCLK_IN edge is an update for an AUDIO Meridian. Operands: the instant of the rising edge. -/
  | wclkEdge (quarter : Fin 4)
  /-- MAINS_ZC_EDGE (R65). A MAINS_ZC_IN edge is an update at the next multiple of 4,096 ticks. Operands: as for FSYNC_EDGE. -/
  | mainsZcEdge (rising : Bool) (quarter : Fin 4)
  /-- EDGE_MISS (R68). An expected reference edge passes with no edge in window; MISS_COUNT increments. Operands: the Meridian. -/
  | edgeMiss (m : Fin 2)
  /-- SLEW_COMPLETE (R71). A slewing Meridian absorbs the last of Δ and SLEWING clears. Operands: the Meridian. -/
  | slewComplete (m : Fin 2)
  /-- BEARING_SEND (R73). Manager firmware builds and sends a Bearing from a ready segment. Operands: the Meridian whose segment is sent. -/
  | bearingSend (m : Fin 2)
  /-- BEARING_RECEIVE (R74). A worker authenticates a received Bearing and loads its model. Operands: the 104 bytes of Table 3-5. -/
  | bearingReceive (payload : List Byte)
  /-- MERIDIAN_COMMIT (R78). MERm_CTRL.COMMIT schedules the staged values for the next frame boundary, or applies them at once while EN is clear. Operands: the Meridian. -/
  | meridianCommit (m : Fin 2)
  /-- MERIDIAN_DISCARD (R78). MERm_CTRL.DISCARD drops staged values not yet applied. Operands: the Meridian. -/
  | meridianDiscard (m : Fin 2)
  /-- MODEL_LOAD (R76). MERm_CTRL.MODEL_LOAD pushes the model registers onto the REMOTE model queue. Operands: the Meridian, and MODEL_LOCKED of the same write. -/
  | modelLoad (m : Fin 2) (locked : Bool)
  /-- MODEL_FLUSH (R76). MERm_CTRL.MODEL_FLUSH empties the model queue. Operands: the Meridian. -/
  | modelFlush (m : Fin 2)
  /-- MER_CLR_COUNTS (R89). MERm_CTRL.CLR_COUNTS clears the Meridian counters. Operands: the Meridian. -/
  | merClrCounts (m : Fin 2)
  /-- REMOTE_MODEL_APPLY (R76). The running position reaches a queued model's anchor and the model takes effect. Operands: the Meridian. -/
  | remoteModelApply (m : Fin 2)
  /-- BEARING_TIMEOUT (R69). No model arrives within BEARING_TIMEOUT and a REMOTE Meridian leaves LOCKED. Operands: the Meridian. -/
  | bearingTimeout (m : Fin 2)
  /-- WAYPOINT_FIRE (R82). The position reaches a Waypoint entry's position and the entry fires its action. Operands: the entry, and what the check bits of setpoint entries read at a latch say, by drive channel, clean where none is named. -/
  | waypointFire (index : Fin 1024) (found : List (Fin 16 × EccResult))
  /-- WPT_WRITE (R80). WPT_CMD WRITE writes and arms a Waypoint entry. -/
  | wptWrite
  /-- WPT_READ (R80). WPT_CMD READ reads a Waypoint entry into WPT_ENTRY0 to 3. -/
  | wptRead
  /-- WPT_CANCEL (R84). WPT_CMD CANCEL invalidates a Waypoint entry. -/
  | wptCancel
  /-- WPT_CLEAR_ALL (R90). WPT_CTRL.CLEAR_ALL invalidates every Waypoint entry. -/
  | wptClearAll
  /-- WAYPOINT_ARMED (R80). A written entry is armed within 64 ns and BUSY clears. Operands: the entry. -/
  | waypointArmed (index : Fin 1024)
  /-- EVT_PIN_EDGE (R82). A converted pin action lands on its programmed instant at the pin. Operands: the pin whose oldest converted action lands. -/
  | evtPinEdge (k : Fin 8)
  /-- EVT_OUT_PULSE_END (R85). An EVT_OUT pulse falls WIDTH ns after its start. Operands: the pin. -/
  | evtOutPulseEnd (k : Fin 8)
  /-- PPS_OUT_EDGE (R85). PPS_OUT rises at each whole second of its time base and falls after WIDTH. Operands: the whole second, or the end of the pulse. -/
  | ppsOutEdge (rising : Bool)
  /-- EVT_PASS_EDGE (R85). An EVT_IN0 edge is copied to EVT_OUT0 in PASS mode. Operands: the edge on EVT_IN0. -/
  | evtPassEdge (rising : Bool)
  /-- EVT_IN_CAPTURE (R86). A selected edge on EVT_INj is captured with time and position into its queue. Operands: the pin, the edge and its instant. -/
  | evtInCapture (j : Fin 4) (rising : Bool) (quarter : Fin 4)
  /-- EVT_IN_POP (R86). A read of EVT_INj_F5 removes the queue head. Operands: the pin and the requester that read F5. -/
  | evtInPop (j : Fin 4) (who : Requester)
  /-- ST2110_PACKET (R100). An ST 2110-20 packet is checked against the paths, merged and written to the back buffer. Operands: what reading the switch buffer found, in which of its banks; the packet is the frame at the head of the internal port. -/
  | st2110Packet (found : EccResult) (bank : Fin 16)
  /-- MERGE_WAIT_EXPIRY (R102). An incomplete merged frame ends as incomplete after CNV_MERGE_WAIT. -/
  | mergeWaitExpiry
  /-- PATH_LOSS (R102). A merge path delivering nothing for CNV_LOSS_FRAMES frames clears its OK bit. Operands: which path. -/
  | pathLoss (pathB : Bool)
  /-- SHEET_STREAM_PACKET (R104). A Sheet stream packet is checked, clipped and placed in the back buffer. Operands: as for ST2110_PACKET. -/
  | sheetStreamPacket (found : EccResult) (bank : Fin 16)
  /-- CANVAS_AUTO_COMMIT (R107). An automatic commit retires after the frame's last write is acknowledged. Operands: what the reads for the region emitter packets that the commit sends found: emitter, number of its packet from 0, outcome; clean where not listed. -/
  | canvasAutoCommit (found : List (Nat × Nat × EccResult))
  /-- CNV_NEXT (R107). A write of 1 to CNV_NEXT commits the back buffer as it stands. Operands: as for CANVAS_AUTO_COMMIT. -/
  | cnvNext (found : List (Nat × Nat × EccResult))
  /-- CANVAS_APPLY (R93). CNV_CTRL.APPLY schedules the staged canvas geometry for the next frame boundary. -/
  | canvasApply
  /-- CNV_CLR_COUNTS (R117). CNV_CTRL.CLR_COUNTS clears the canvas counters. -/
  | cnvClrCounts
  /-- HOST_GO (R105). CNV_HOST_CTRL.GO requests a host frame fetch. -/
  | hostGo
  /-- HOST_FETCH_START (R105). A requested host fetch starts once the back buffer is free. -/
  | hostFetchStart
  /-- HOST_FETCH_DONE (R105). A host fetch completes, HOST_DONE sets and the buffer commits with AUTO_COMMIT. Operands: the bytes of host memory read from the Y, C0 and C1 addresses on, and as for CANVAS_AUTO_COMMIT where the fetch commits. -/
  | hostFetchDone (y c0 c1 : List Byte) (found : List (Nat × Nat × EccResult))
  /-- FLIP_LATCH (R108). The latch cycle at CNV_FLIP_LINE latches a PENDING back buffer. -/
  | flipLatch
  /-- STREAM_LOSS (R112). No commit for CNV_LOSS_FRAMES frames sets STREAM_LOSS. -/
  | streamLoss
  /-- REGION_BAND_SEND (R115). An emitter sends a band once all its lines are written, within the pacing limit. Operands: the emitter, and what the reads for the packets of the band found, by their number from 0; clean where not listed. -/
  | regionBandSend (e : Fin 64) (found : List (Nat × EccResult))
  /-- BATCH_ACTIVATE (R127). A READY batch takes a lane context. -/
  | batchActivate
  /-- NODE_DISPATCH (R128). A node of an ACTIVE batch dispatches when inputs and limits allow. Operands: the lane, what the check bits of the node's reads said, and the address of a word that failed. -/
  | nodeDispatch (lane : Fin 8) (found : EccResult) (addr : BitVec 32)
  /-- NODE_RETIRE (R128). A dispatched node completes and retires. Operands: the lane, the batch context and the node. -/
  | nodeRetire (lane : Fin 8) (ctx : Fin 4) (node : Fin 256)
  /-- BATCH_DEADLINE (R131). A batch's deadline passes before it retires and it is cancelled with cause 2. Operands: the batch, by its number in release order. -/
  | batchDeadline (batch : Nat)
  /-- STITCH_HALT (R138). STC_CTRL.HALT stops release, cancels every batch and clears EN. -/
  | stitchHalt
  /-- FLOW_CANCEL (R131). A write to STC_FLOW_CANCEL cancels the flow's batches. Operands: the flow written. -/
  | flowCancel (flow : Fin 1024)
  /-- STC_CUE (R135). A write to STC_CUE fires a cue at the primary Meridian's position. Operands: the cue number written. -/
  | stcCue (cue : Fin 4096)
  /-- PARAM_WRITE (R133). STC_PARAM_CMD WRITE writes or stages a parameter word. Operands: the parameter and APPLY_AT written; the value is in STC_PARAM_DATA. -/
  | paramWrite (index : Fin 1024) (applyAt : Fin 4)
  /-- DELAY_FLUSH (R134). STC_DELAY_FLUSH empties a delay list without expiring its entries. Operands: which lists. -/
  | delayFlush (m0 m1 : Bool)
  /-- PROGRAM_LOAD (R137). STC_CTRL.LOAD starts checking and staging the image in the inactive buffer. -/
  | programLoad
  /-- PROGRAM_CHECK_DONE (R137). The program check and Contour load complete with STAGED and PROG_READY, or LOAD_ERR. -/
  | programCheckDone
  /-- DISCARD_STAGED (R137). STC_CTRL.DISCARD_STAGED drops a staged image or abandons a check. -/
  | discardStaged
  /-- STC_CLR_COUNTS (R142). STC_CTRL.CLR_COUNTS clears the Stitch counters. -/
  | stcClrCounts
  /-- EMIT_RING_SPACE (R125). A waiting EMIT proceeds once the framer frees ring space. Operands: the batch whose EMIT waits, by its number in release order. -/
  | emitRingSpace (batch : Nat)
  /-- DELAY_EXPIRE (R134). A delay entry's due position is reached and its item acts. Operands: the Meridian's list. -/
  | delayExpire (m : Fin 2)
  /-- TRACE_STOP (R141). After TRC_POST_COUNT further records the writer stops with STOPPED. -/
  | traceStop
  /-- TRACE_STALL_RELEASE (R141). A held event source resumes once the trace buffer has space. -/
  | traceStallRelease
  /-- TRACE_CLEAR (R143). TRC_CTRL.CLEAR empties the ring and clears TRC_STATUS. -/
  | traceClear
  /-- LINE_MOVE (R180). A fully delivered line moves from the emit ring into the port buffer and its CRC is computed. Operands: the port, what the check bits of the ring said, and the offset in the ring of a word that cannot be corrected. -/
  | lineMove (n : Fin 32) (found : EccResult) (ofs : Fin 8192)
  /-- LINE_DEADLINE (R184). At a line's deadline undelivered bytes become background and the line moves with FILL. Operands: the port, whose earliest line in the ring is meant, and what LINE_MOVE has. -/
  | lineDeadline (n : Fin 32) (found : EccResult) (ofs : Fin 8192)
  /-- FRAME_LAUNCH (R183). A whole frame in the port buffer starts on the wire when the wire is free. Operands: the port. -/
  | frameLaunch (n : Fin 32)
  /-- LATCH_LAUNCH (R191). The LATCH frame is launched at the last symbol boundary at or before W − lead. Operands: the port. -/
  | latchLaunch (n : Fin 32)
  /-- STRAND_FRAME_RX (R455). The device receives an Itren frame at a strand RX. Operands: the port, how long ago the comma of the frame crossed the pins in 0.25 ns, and the frame from its TYPE to its CRC. -/
  | strandFrameRx (n : Fin 32) (age : BitVec 32) (bytes : List Byte)
  /-- REPLY_TIMEOUT (R190). A reply-soliciting frame receives no reply in time. Operands: the port. -/
  | replyTimeout (n : Fin 32)
  /-- SURVEY_START (R190). STR_n_SURVEY_CTRL.START starts Survey on the port. Operands: the port. -/
  | surveyStart (n : Fin 32)
  /-- SURVEY_ABORT (R190). STR_n_SURVEY_CTRL.ABORT ends Survey after the outstanding reply. Operands: the port. -/
  | surveyAbort (n : Fin 32)
  /-- CTL_GO (R211). STR_n_CTL_CMD.GO queues a firmware control frame or alternate-function transaction. Operands: the port. -/
  | ctlGo (n : Fin 32)
  /-- PARK_START (R204). STR_n_CTRL.PARK starts the four-frame park sequence. Operands: the port. -/
  | parkStart (n : Fin 32)
  /-- STR_CLR_COUNTS (R206). STR_n_CTRL.CLR_COUNTS clears the port counters. Operands: the port. -/
  | strClrCounts (n : Fin 32)
  /-- RATE_TX_SWITCH (R196). After the RATE frame and 16 idle symbols the port switches TX rate and sends 8 µs idle. Operands: the port. -/
  | rateTxSwitch (n : Fin 32)
  /-- RING_BREAK (R199). No primary CLAIM for 2 Rows activates a single-device ring secondary. Operands: the secondary port. -/
  | ringBreak (n : Fin 32)
  /-- RING_HEAL (R199). 16 consecutive Rows with the primary's CLAIM return the secondary to CLAIM only. Operands: the secondary port. -/
  | ringHeal (n : Fin 32)
  /-- PAIR_RING_BREAK (R297). A standby pair-ring port without the active's CLAIM for 2 Rows becomes RING_ACTIVE. Operands: the port. -/
  | pairRingBreak (n : Fin 32)
  /-- READBACK_CHECK (R201). The read-back receiver checks an originated frame's CRC after K29.7. Operands: the port, and the frame decoded at the pin, none where nothing was decoded. -/
  | readbackCheck (n : Fin 32) (bytes : Option (List Byte))
  /-- STRAND_RX_LOS (R175). A receiver declares loss of signal on low amplitude or no comma. Operands: the receiver. -/
  | strandRxLos (rx : LineRx)
  /-- NODE_FRAME_RX (R205). A node receives, forwards and acts on an Itren frame. Operands: the strand, the node's place, the port the frame enters at, the frame from TYPE to its CRC, and by how many symbols what the node sends for it leaves late. -/
  | nodeFrameRx (n : Fin 32) (k : Fin 2048) (port2 : Bool) (frame : List Byte) (delay : BitVec 16)
  /-- NODE_LATCH (R202). A node latches at its offset after a LATCH and presents the marked bytes. Operands: the strand and the node's place. -/
  | nodeLatch (n : Fin 32) (k : Fin 2048)
  /-- NODE_CLAIM_TIMEOUT (R200). A claim ages out at a node and the node may switch side. Operands: the strand, the node's place, and the port whose claim ages out. -/
  | nodeClaimTimeout (n : Fin 32) (k : Fin 2048) (port2 : Bool)
  /-- NODE_HOLD_EXPIRY (R203). A node with no latch for HOLD_TIME shows its fail-safe scene. Operands: the strand and the node's place. -/
  | nodeHoldExpiry (n : Fin 32) (k : Fin 2048)
  /-- NODE_PARK_LIMIT_EXPIRY (R204). A PARKED node's PARK_LIMIT expires and it shows its fail-safe scene. Operands: the strand and the node's place. -/
  | nodeParkLimitExpiry (n : Fin 32) (k : Fin 2048)
  /-- NODE_RATE_SWITCH (R196). A node switches both TX pairs once the RATE frame has left its Port-2 TX. Operands: the strand and the node's place. -/
  | nodeRateSwitch (n : Fin 32) (k : Fin 2048)
  /-- NODE_CALIB_PATTERN (R205). A capability-C node sends PRBS-7 towards the requester 2 µs after a CALIB. Operands: the strand and the node's place. -/
  | nodeCalibPattern (n : Fin 32) (k : Fin 2048)
  /-- DMX_PACKET_END (R213). A DMX packet completes on the line. Operands: the port. -/
  | dmxPacketEnd (n : Fin 32)
  /-- DMX_KEEPALIVE (R213). No packet for KEEPALIVE_MS starts one at once. Operands: the port. -/
  | dmxKeepalive (n : Fin 32)
  /-- DMX_LATE_START (R213). A packet due during an RDM response starts 176 µs after the response ends. Operands: the port. -/
  | dmxLateStart (n : Fin 32)
  /-- RDM_REQUEST_START (R214). An RDM request starts in a long enough gap. Operands: the port. -/
  | rdmRequestStart (n : Fin 32)
  /-- RDM_WAIT_EXPIRY (R214). No gap within RDM_WAIT_MS makes the request take the next due packet's place. Operands: the port. -/
  | rdmWaitExpiry (n : Fin 32)
  /-- RDM_REQUEST_END (R215). DE falls 4 µs after the request's last stop bit and CTL_DONE sets. Operands: the port. -/
  | rdmRequestEnd (n : Fin 32)
  /-- RDM_RESPONSE_RX (R215). An RDM response completes and its result goes to the reply ring. Operands: the port, the bytes received (from the separator 0xAA on for discovery), whether every slot was well framed, and the time from the end of the request to the start of the response in 0.25 ns. -/
  | rdmResponseRx (n : Fin 32) (bytes : List Byte) (framed : Bool) (rt : BitVec 32)
  /-- RDM_RESPONSE_TIMEOUT (R215). No response within RESP_WAIT_US gives TIMEOUT. Operands: the port. -/
  | rdmResponseTimeout (n : Fin 32)
  /-- DALI_FORWARD_START (R217). A DALI forward frame starts after its settling time. Operands: the port. -/
  | daliForwardStart (n : Fin 8)
  /-- DALI_ANSWER_TIMEOUT (R217). No backward frame starts within the answer window. Operands: the port. -/
  | daliAnswerTimeout (n : Fin 8)
  /-- DALI_BACKWARD_RX (R217). A backward frame is received and written as the answer. Operands: the port, the data bits, whether the frame was well formed, and the time from the end of the forward frame to its start in 0.25 ns. -/
  | daliBackwardRx (n : Fin 8) (byte : Byte) (valid : Bool) (rt : BitVec 32)
  /-- DALI_COLLISION (R218). An active bus where the port drives idle stops the frame and retries or reports COLLISION. Operands: the port, and the level at STRn_RXP. -/
  | daliCollision (n : Fin 8) (rxp : Bool)
  /-- DALI_FRAME_HEARD (R219). A forward frame from another sender is counted and, in multi-master, written to the reply ring. Operands: the port, the length and the data bits. -/
  | daliFrameHeard (n : Fin 8) (bits24 : Bool) (frame : BitVec 24)
  /-- DALI_BUS_DOWN (R219). RX active for 500 ms sets BUS_DOWN and fails waiting transactions. Operands: the port, and the level at STRn_RXP. -/
  | daliBusDown (n : Fin 8) (rxp : Bool)
  /-- DALI_BUS_IDLE (R219). 2.45 ms of idle clears BUS_DOWN. Operands: the port, and the level at STRn_RXP. -/
  | daliBusIdle (n : Fin 8) (rxp : Bool)
  /-- E131_RX_PACKET (R221). An E1.31 data packet is checked, arbitrated by source and written to its universe bank. Operands: as for ST2110_PACKET. -/
  | e131RxPacket (found : EccResult) (bank : Fin 16)
  /-- E131_SYNC_RX (R223). An accepted sync packet releases its waiting universes at the next START_FRAME. Operands: as for ST2110_PACKET. -/
  | e131SyncRx (found : EccResult) (bank : Fin 16)
  /-- E131_SYNC_TIMEOUT (R223). No sync for E131_SYNC_TIMEOUT lets universes flip without waiting. Operands: the synchronization address. -/
  | e131SyncTimeout (sync : BitVec 16)
  /-- E131_LOSS_TIMEOUT (R221). A universe with no accepted packet for E131_LOSS_TIMEOUT sets its loss bit. Operands: the universe index. -/
  | e131LossTimeout (index : Fin 1024)
  /-- E131_CLR_COUNTS (R227). E131_CTRL.CLR_COUNTS clears the E1.31 counters. -/
  | e131ClrCounts
  /-- DRV_DIAG_SAMPLE (R247). 2 µs after DIM rises the channel samples sense and VSTR for open and short checks. Operands: the channel, the voltages at VSTR and at the sense input in microvolts, and the off-time of the switching period before in nanoseconds. -/
  | drvDiagSample (c : Fin 16) (pin : BitVec 24) (sense : BitVec 24) (tOff : BitVec 16)
  /-- DRV_OVERCURRENT_CYCLE (R249). Sense reaching 100 mV ends GATE; 8 in a row latch OVERCURRENT. Operands: the channel, the time from the rise of GATE to 100 mV in nanoseconds, and whether the switching period before ended the same way. -/
  | drvOvercurrentCycle (c : Fin 16) (rise : BitVec 16) (follows : Bool)
  /-- DRV_SENSE_FAULT (R249). Sense below 10 % of command at maximum on-time for 16 periods latches SENSE. Operands: the channel. -/
  | drvSenseFault (c : Fin 16)
  /-- SENSOR_AUTO_START (R241). An input or bus without a started conversion for AUTO_MS converts autonomously. Operands: whether an I2C bus (0 to 3) or an AIN input, and its number. -/
  | sensorAutoStart (bus : Bool) (index : Fin 8)
  /-- AIN_CONVERSION_DONE (R242). An NTC conversion completes and is interpolated to a temperature. Operands: the input and the ratio measured. -/
  | ainConversionDone (index : Fin 8) (ratio : BitVec 12)
  /-- SNS_TRANSACTION_DONE (R243). An I2C sensor transaction completes with a temperature or colour reading. Operands: the list entry, and the bytes read, the first in [7:0]; none for a NACK. -/
  | snsTransactionDone (index : Fin 64) (data : Option (BitVec 64))
  /-- SENSOR_STALE (R245). No valid reading for 1 s is a sensor fault. Operands: the channel. -/
  | sensorStale (c : Fin 16)
  /-- DERATE_SLEW_STEP (R244). D_th moves one LSB towards its target at the slew rate. Operands: the channel. -/
  | derateSlewStep (c : Fin 16)
  /-- DRV_RETRY_EXPIRY (R250). After DRV_c_RETRY ms a faulted channel with AUTO_RETRY restarts at its next latch. Operands: the channel. -/
  | drvRetryExpiry (c : Fin 16)
  /-- DRV_FAULT_CLR (R250). DRV_c_CTRL.FAULT_CLR restarts a latched fault at the next latch. Operands: the channel. -/
  | drvFaultClr (c : Fin 16)
  /-- DRV_RECLAIM (R253). DRV_CTRL.RECLAIM returns held channels to normal timing at their latches. -/
  | drvReclaim
  /-- DRV_CLR_COUNTS (R254). CLR_COUNTS clears the drive counters. Operands: the channel whose DRV_c_CTRL was written, none for DRV_CTRL. -/
  | drvClrCounts (c : Option (Fin 16))
  /-- DRV_HOLD_EXPIRY (R252). HOLD_LIMIT counts to zero and every held channel goes off. -/
  | drvHoldExpiry
  /-- TRUNK_FRAME_RX (R261). A trunk frame has fully arrived and its FCS checked; it is admitted, learned and forwarded. Operands: the port, how long ago the frame's stamp point crossed the pins in 0.25 ns, the RS-FEC codewords corrected and uncorrectable since the frame before, and the frame from its destination address to its FCS. -/
  | trunkFrameRx (p : Fin 4) (age : BitVec 32) (corrected : BitVec 32) (failed : BitVec 32) (frame : List Byte)
  /-- TRUNK_FRAME_TX (R269). An egress port starts sending the head frame of its highest non-empty queue. Operands: the port, the quarter nanosecond of the stamp point inside the fabric clock, what reading the buffer found and in which of its banks, and whether an uncorrectable error was found with the frame already on the wire. -/
  | trunkFrameTx (p : Fin 4) (quarter : Fin 4) (found : EccResult) (bank : Fin 16) (late : Bool)
  /-- TRUNK_LINK_UP (R256). A trunk port gains lock and, where applicable, completes negotiation. Operands: the port, and under SGMII whether the PHY reports 1000 Mbit/s full duplex. -/
  | trunkLinkUp (p : Fin 4) (speedOk : Bool)
  /-- TRUNK_LINK_DOWN (R256). A trunk port loses signal or lock, discards its queues and removes its learned entries. Operands: the port. -/
  | trunkLinkDown (p : Fin 4)
  /-- TRUNK_MODE_CHANGE (R255). A write of TRK_Pp_CTRL.MODE drops the link and retrains in the new mode. Operands: the port and the value written to MODE. -/
  | trunkModeChange (p : Fin 4) (mode : Fin 8)
  /-- FDB_AGE_EXPIRY (R264). A learned entry not refreshed within AGE_TIME is removed. Operands: the entry. -/
  | fdbAgeExpiry (mac : BitVec 48) (vid : BitVec 12)
  /-- TBL_WRITE (R265). TRK_TBL_CMD WRITE writes a forwarding or multicast entry. Operands: the word written to TRK_TBL_CMD. -/
  | tblWrite (cmd : Word)
  /-- TBL_READ (R265). TRK_TBL_CMD READ reads a table entry. Operands: the word written to TRK_TBL_CMD. -/
  | tblRead (cmd : Word)
  /-- TBL_DELETE (R265). TRK_TBL_CMD DELETE removes a table entry. Operands: the word written to TRK_TBL_CMD. -/
  | tblDelete (cmd : Word)
  /-- FDB_FLUSH (R265). TRK_CTRL.FLUSH removes every learned entry. -/
  | fdbFlush
  /-- TRK_CLR_COUNTS (R283). CLR_COUNTS clears trunk block or port counters. Operands: the port whose CLR_COUNTS was written, none for TRK_CTRL's. -/
  | trkClrCounts (port : Option (Fin 5))
  /-- RX_RING_DELIVERY (R273). A frame at the head of its internal-port queue is written to a receive ring or dropped for NOBUF. Operands: what reads of host memory return, in order, what reading the switch buffer found, in which of its banks, and what the check bits of words of fabric SRAM said that are read, by address, clean where not listed. -/
  | rxRingDelivery (host : List Byte) (found : EccResult) (bank : Fin 16) (words : List (BitVec 32 × EccResult))
  /-- RX_COAL_TIMEOUT (R274). USECS after the first undelivered-notice frame, ring DONE is raised. Operands: the ring. -/
  | rxCoalTimeout (r : Fin 16)
  /-- TX_DESCRIPTOR_FETCH (R275). The hardware fetches transmit descriptors after a TAIL advance and queues the frame. Operands: the ring, whether a read of the frame's bytes met an error, what reads of host memory return, in order, and what the check bits of words of fabric SRAM said that are read, by address, clean where not listed. -/
  | txDescriptorFetch (t : Fin 4) (err : Bool) (host : List Byte) (words : List (BitVec 32 × EccResult))
  /-- TX_FRAME_DONE (R275). A ring frame has left; DONE is written and HEAD advances. Operands: the ring. -/
  | txFrameDone (t : Fin 4)
  /-- RING_BEACON_TIMER (R277). Every BEACON_US the master sends BEACONs and a device with a ring port down repeats LINK_DOWN. Operands: the ring. -/
  | ringBeaconTimer (index : Fin 2)
  /-- RING_FRAME_RX (R278). A ring protection frame is received, forwarded and acted on. Operands: the port and the frame. -/
  | ringFrameRx (p : Fin 4) (frame : List Byte)
  /-- RING_BEACON_LOSS (R277). No own BEACON on port B for 3 × BEACON_US opens the ring. Operands: the ring. -/
  | ringBeaconLoss (index : Fin 2)
  /-- WAKE_FRAME_RX (R281). In Dormant the wake detector matches a received frame against the wake pattern. Operands: the frame at the wake port, from its destination address to its FCS. -/
  | wakeFrameRx (frame : List Byte)
  /-- PAIR_HEARTBEAT_TOGGLE (R286). PAIR_ALIVE_OUT toggles every 100 µs. -/
  | pairHeartbeatToggle
  /-- PAIR_ALIVE_IN_EDGE (R286). An edge on PAIR_ALIVE_IN restarts the heartbeat timeout. -/
  | pairAliveInEdge
  /-- PAIR_ALIVE_LOSS (R286). No PAIR_ALIVE_IN edge for ALIVE_TIMEOUT declares the heartbeat lost. -/
  | pairAliveLoss
  /-- PAIR_BEACON_TIMER (R287). Every 100 µs the unit sends a pair beacon. -/
  | pairBeaconTimer
  /-- PAIR_BEACON_RX (R287). A pair beacon is received and accepted or dropped. -/
  | pairBeaconRx
  /-- PAIR_CLAIM_TIMEOUT (R288). No partner claim for CLAIM_TIMEOUT Rows makes the partner not heard. -/
  | pairClaimTimeout
  /-- PAIR_REVERT_HOLD_EXPIRY (R292). REVERT_HOLD without interruption clears HOLD and sets REVERT_READY. -/
  | pairRevertHoldExpiry
  /-- PAIR_WKR_HEARD (R298). A write to PAIR_WKR_HEARD records a manager's claim for the worker arbiter. Operands: the word written to PAIR_WKR_HEARD. -/
  | pairWkrHeard (value : Word)
  /-- WKR_TIMEOUT (R298). A manager claim not renewed within WKR_TIMEOUT frames ages out. Operands: which manager. -/
  | wkrTimeout (srcB : Bool)
  /-- RESET_PARTNER (R288). PAIR_FORCE_CTRL.RESET_PARTNER sets RESET_REQ in the unit's beacons. -/
  | resetPartner
  /-- PAIR_CLR_COUNTS (R303). PAIR_CTRL.CLR_COUNTS clears the pair counters. -/
  | pairClrCounts
  /-- COMMAND_PACKET (R307). Firmware receives a command packet on a transport and checks it in order. Operands: how the packet comes. -/
  | commandPacket (via : Via)
  /-- RELAY_TIMEOUT (R317). 100 ms without a worker reply returns TIMEOUT. Operands: the relayed request. -/
  | relayTimeout (opcode seq : BitVec 16)
  /-- COMMAND_REPLY_RX (R311). A reply is accepted only for a waiting request, once per device. -/
  | commandReplyRx
  /-- REPLAY_TABLE_SAVE (R311). Every 10 minutes firmware saves the replay table to the settings area. -/
  | replayTableSave
  /-- IDENTIFY (R2). Returns the device identity, revision, IDs and firmware version. Operands: how the packet comes. -/
  | identify (via : Via)
  /-- GET_STATUS (R363). Returns uptime, domains, last reset, states and counts. Operands: how the packet comes. -/
  | getStatus (via : Via)
  /-- GET_CAPS (R307). Returns the device capabilities. Operands: how the packet comes. -/
  | getCaps (via : Via)
  /-- SET_ROLE (R306). Sets the role, device ID and hierarchy group. Operands: how the packet comes. -/
  | setRole (via : Via)
  /-- RESET (R362). Requests a warm device reset or a domain reset after DELAY_MS. Operands: how the packet comes. -/
  | reset (via : Via)
  /-- DOMAIN_POWER (R29). Switches a power domain on or off under the dependency rules. Operands: how the packet comes. -/
  | domainPower (via : Via)
  /-- ENTER_DORMANT (R377). Enters Dormant, optionally after Bind-off. Operands: how the packet comes. -/
  | enterDormant (via : Via)
  /-- LIFECYCLE_ADVANCE (R403). Advances the life-cycle state under Table 15-12. Operands: how the packet comes. -/
  | lifecycleAdvance (via : Via)
  /-- READ_REG (R307). Reads up to 256 register words. Operands: how the packet comes. -/
  | readReg (via : Via)
  /-- WRITE_REG (R310). Writes register words in ascending order. Operands: how the packet comes. -/
  | writeReg (via : Via)
  /-- TB_CONFIG (R37). Writes a register set on the time base registers. Operands: how the packet comes. -/
  | tbConfig (via : Via)
  /-- TB_SERVO_SET (R40). Writes servo gains within the stability region. Operands: how the packet comes. -/
  | tbServoSet (via : Via)
  /-- TB_OFFSET_FEED (R39). Submits an offset sample to a time base. Operands: how the packet comes. -/
  | tbOffsetFeed (via : Via)
  /-- TB_ACCEPT_JUMP (R43). Arms a time base to accept the next sample at any size. Operands: how the packet comes. -/
  | tbAcceptJump (via : Via)
  /-- TB_DOMAIN_SWITCH (R47). Selects domain A or B for TB0 and sets AUTO. Operands: how the packet comes. -/
  | tbDomainSwitch (via : Via)
  /-- MERIDIAN_SET_MODE (R78). Stages and commits or discards a Meridian mode. Operands: how the packet comes. -/
  | meridianSetMode (via : Via)
  /-- MERIDIAN_STATUS (R89). Returns Meridian status register images. Operands: how the packet comes. -/
  | meridianStatus (via : Via)
  /-- WAYPOINT_PROGRAM (R80). Writes a Waypoint entry. Operands: how the packet comes. -/
  | waypointProgram (via : Via)
  /-- WAYPOINT_CANCEL (R84). Cancels a Waypoint entry. Operands: how the packet comes. -/
  | waypointCancel (via : Via)
  /-- CANVAS_CONFIG (R93). Writes staged canvas geometry and applies it. Operands: how the packet comes. -/
  | canvasConfig (via : Via)
  /-- CANVAS_SUBSCRIBE (R100). Writes canvas receive filters and makes the IGMPv3 joins. Operands: how the packet comes. -/
  | canvasSubscribe (via : Via)
  /-- CANVAS_FLIP_POLICY (R108). Sets flip line, loss frames, commit policy and merge wait. Operands: how the packet comes. -/
  | canvasFlipPolicy (via : Via)
  /-- CANVAS_BACKGROUND (R111). Writes the canvas background colour. Operands: how the packet comes. -/
  | canvasBackground (via : Via)
  /-- REGION_EMIT (R114). Configures a region emitter on a manager. Operands: how the packet comes. -/
  | regionEmit (via : Via)
  /-- STITCH_LOAD_PROGRAM (R137). Writes program chunks and loads the program on LAST. Operands: how the packet comes. -/
  | stitchLoadProgram (via : Via)
  /-- STITCH_START (R138). Enables batch release from the next START_FRAME. Operands: how the packet comes. -/
  | stitchStart (via : Via)
  /-- STITCH_STOP (R138). Stops release at frame or halts at once. Operands: how the packet comes. -/
  | stitchStop (via : Via)
  /-- STITCH_SET_PARAM (R133). Writes parameter words with an APPLY_AT mode. Operands: how the packet comes. -/
  | stitchSetParam (via : Via)
  /-- STITCH_CUE (R135). Fires a cue at the primary Meridian's position. Operands: how the packet comes. -/
  | stitchCue (via : Via)
  /-- STITCH_TRACE (R140). Sets trace control or reads trace records. Operands: how the packet comes. -/
  | stitchTrace (via : Via)
  /-- ATLAS_WRITE (R19). Writes Atlas entries into a region's spare block. Operands: how the packet comes. -/
  | atlasWrite (via : Via)
  /-- ATLAS_COMMIT (R148). Commits staged Atlas regions at the next possible frame boundary. Operands: how the packet comes. -/
  | atlasCommit (via : Via)
  /-- CAL_WRITE (R153). Writes calibration sets in aligned bursts. Operands: how the packet comes. -/
  | calWrite (via : Via)
  /-- CONTOUR_WRITE (R150). Writes Contour entries in the Pool. Operands: how the packet comes. -/
  | contourWrite (via : Via)
  /-- MOTIF_SET (R166). Writes a Motif page and flips SELECT. Operands: how the packet comes. -/
  | motifSet (via : Via)
  /-- MOTIF_START (R167). Starts or stops Motif engines from the next snapshot. Operands: how the packet comes. -/
  | motifStart (via : Via)
  /-- STRAND_CONFIG (R62). Writes a strand port's configuration registers. Operands: how the packet comes. -/
  | strandConfig (via : Via)
  /-- STRAND_SURVEY (R190). Starts or aborts Survey on a port, optionally waiting for it. Operands: how the packet comes. -/
  | strandSurvey (via : Via)
  /-- STRAND_ASSIGN (R177). Sends an ASSIGN page 1 or 2 to a node. Operands: how the packet comes. -/
  | strandAssign (via : Via)
  /-- STRAND_RATE (R196). Sets a strand's rate and RATE_AUTO limits. Operands: how the packet comes. -/
  | strandRate (via : Via)
  /-- STRAND_QUERY (R178). Sends a QUERY to a node and returns its reply entry. Operands: how the packet comes. -/
  | strandQuery (via : Via)
  /-- STRAND_PARK (R204). Starts the park sequence on the named ports. Operands: how the packet comes. -/
  | strandPark (via : Via)
  /-- DMX_CONFIG (R210). Configures a port for DMX512-A and writes its record. Operands: how the packet comes. -/
  | dmxConfig (via : Via)
  /-- RDM_TRANSACT (R214). Places an RDM request and returns its result. Operands: how the packet comes. -/
  | rdmTransact (via : Via)
  /-- DALI_CONFIG (R210). Configures a port for DALI-2 and writes its record. Operands: how the packet comes. -/
  | daliConfig (via : Via)
  /-- DALI_TRANSACT (R217). Sends a DALI forward frame and returns its answer. Operands: how the packet comes. -/
  | daliTransact (via : Via)
  /-- DRIVE_CONFIG (R240). Writes drive registers except DRV_c_SET. Operands: how the packet comes. -/
  | driveConfig (via : Via)
  /-- DRIVE_SET (R235). Stages levels for REGISTER-source channels. Operands: how the packet comes. -/
  | driveSet (via : Via)
  /-- DRIVE_DIAG (R249). Returns channel diagnostics and optionally clears faults. Operands: how the packet comes. -/
  | driveDiag (via : Via)
  /-- DRIVE_THERMAL_TABLE (R244). Writes a channel's derating table, T_CRIT and D_FAULT. Operands: how the packet comes. -/
  | driveThermalTable (via : Via)
  /-- TRUNK_PORT_CONFIG (R255). Writes trunk port and switch registers. Operands: how the packet comes. -/
  | trunkPortConfig (via : Via)
  /-- SWITCH_TABLE_WRITE (R265). Writes forwarding and multicast table entries. Operands: how the packet comes. -/
  | switchTableWrite (via : Via)
  /-- E131_CONFIG (R227). Writes E1.31 registers and transmit table words. Operands: how the packet comes. -/
  | e131Config (via : Via)
  /-- WAKE_PATTERN_SET (R282). Writes the wake registers. Operands: how the packet comes. -/
  | wakePatternSet (via : Via)
  /-- PAIR_CONFIG (R303). Writes the pair registers. Operands: how the packet comes. -/
  | pairConfig (via : Via)
  /-- PAIR_STATUS (R303). Returns the pair status and counts. Operands: how the packet comes. -/
  | pairStatus (via : Via)
  /-- PAIR_FORCE (R289). Forces STANDBY or ACTIVE, releases, or requests a partner reset. Operands: how the packet comes. -/
  | pairForce (via : Via)
  /-- FW_BEGIN (R388). Starts a firmware transfer into the unbooted slot. Operands: how the packet comes. -/
  | fwBegin (via : Via)
  /-- FW_CHUNK (R389). Writes image bytes or applies Darn patch bytes. Operands: how the packet comes. -/
  | fwChunk (via : Via)
  /-- FW_VERIFY (R384). Checks the target slot image. Operands: how the packet comes, and whether reading the target slot meets a flash read error or an uncorrectable word. -/
  | fwVerify (via : Via) (err : Bool)
  /-- FW_HANDOVER (R391). Hands control to the verified image without stopping the data plane. Operands: how the packet comes. -/
  | fwHandover (via : Via)
  /-- FW_COMMIT (R396). Commits the image in probation. Operands: how the packet comes. -/
  | fwCommit (via : Via)
  /-- FW_REVERT (R397). Returns to the old image during probation. Operands: how the packet comes. -/
  | fwRevert (via : Via)
  /-- SETTINGS_SAVE (R390). Writes settings to the other area with a higher generation. Operands: how the packet comes. -/
  | settingsSave (via : Via)
  /-- LIFELOG_READ (R410). Returns bytes of the newest valid Lifelog record of a type. Operands: how the packet comes. -/
  | lifelogRead (via : Via)
  /-- COUNTERS_READ (R307). Reads counters and optionally clears them. Operands: how the packet comes. -/
  | countersRead (via : Via)
  /-- SWATCH_RUN (R413). Starts a Swatch job and returns its job number. Operands: how the packet comes. -/
  | swatchRun (via : Via)
  /-- GAUGE_READ (R426). Returns a unit's Gauge and its age. Operands: how the packet comes. -/
  | gaugeRead (via : Via)
  /-- READBACK_STATUS (R201). Returns read-back counts for the named ports. Operands: how the packet comes. -/
  | readbackStatus (via : Via)
  /-- RELAY (R317). A manager relays an inner packet to listed workers and collects statuses. Operands: how the packet comes. -/
  | relay (via : Via)
  /-- ROLL_CALL (R311). A manager calls its workers or reads its kept hierarchy table. Operands: how the packet comes. -/
  | rollCall (via : Via)
  /-- HIER_STATUS (R306). Returns the count and map of workers that answered. Operands: how the packet comes. -/
  | hierStatus (via : Via)
  /-- MBX_POST (R321). A sender's write to MBX_m_TAG posts a notice. Operands: the mailbox, who writes, the word written to MBX_m_TAG, and what a read of host memory at the pointer returns. -/
  | mbxPost (m : Fin 16) (who : Requester) (tag : Word) (host : List Byte)
  /-- MBX_ACK (R321). The receiver's write to MBX_m_ACK takes the notice. Operands: the mailbox, who writes, and the word written to MBX_m_ACK. -/
  | mbxAck (m : Fin 16) (who : Requester) (code : Word)
  /-- PAIR_LINK_TX_DONE (R322). A frame posted to the pair link transmitter leaves and is acknowledged. Operands: whether the frame came by mailbox 15 (CC1) rather than 14. -/
  | pairLinkTxDone (cc1 : Bool)
  /-- DOORBELL_RAISE (R323). A write to DBL_RAISE sets doorbell bits. Operands: the word written to DBL_RAISE. -/
  | doorbellRaise (value : Word)
  /-- LOCK_ACQUIRE (R324). A read of a free lock makes the reader its owner. Operands: the lock and the reader. -/
  | lockAcquire (n : Fin 32) (who : Requester)
  /-- LOCK_RELEASE (R324). The owner writes 0 to release a lock. Operands: the lock, who writes, and the word written. -/
  | lockRelease (n : Fin 32) (who : Requester) (value : Word)
  /-- LOCK_BREAK (R324). CC0 frees a lock through MBX_LOCK_BREAK. Operands: who writes, and the word written to MBX_LOCK_BREAK. -/
  | lockBreak (who : Requester) (value : Word)
  /-- QSPI_WRITE (R319). A QSPI WRITE enters the write buffer. Operands: the internal address and the data bytes. -/
  | qspiWrite (addr : BitVec 32) (data : List Byte)
  /-- QSPI_READ_REQ (R319). A QSPI READ_REQ starts filling the read buffer. Operands: the address and the count of words. -/
  | qspiReadReq (addr count : BitVec 32)
  /-- QSPI_READ_DATA (R318). A QSPI READ_DATA returns the read buffer. -/
  | qspiReadData
  /-- QSPI_STATUS (R319). A QSPI STATUS returns the status word and clears its sticky bits. -/
  | qspiStatus
  /-- QSPI_BAD_OP (R318). An unknown QSPI opcode is ignored and sets BAD_OP. -/
  | qspiBadOp
  /-- QSPI_WRITE_DRAIN (R319). The QSPI write buffer drains to the fabric and WR_BUSY clears. -/
  | qspiWriteDrain
  /-- QSPI_READ_DONE (R319). The QSPI read buffer is filled and RD_READY sets. Operands: what the check bits of words of fabric SRAM said that are read, by address, clean where not listed. -/
  | qspiReadDone (found : List (BitVec 32 × EccResult))
  /-- PCIE_BAR_ACCESS (R325). A PCIe access through BAR0 or BAR2 is served, dropped by ACL, or answered UR or CA. Operands: whether BAR2 rather than BAR0, the offset, the word written, none for a read, and what the check bits of a word read from fabric SRAM said. -/
  | pcieBarAccess (bar2 : Bool) (offset : BitVec 32) (write : Option Word) (found : EccResult)
  /-- PERST_N (R367). PERST_N resets the HOST domain as a domain reset. -/
  | perstN
  /-- DMA_GO (R335). DMA_CHn_CTRL.GO starts a chain from IDLE or HALTED. Operands: the channel. -/
  | dmaGo (n : Fin 16)
  /-- DMA_REFETCH (R336). REFETCH reads NEXT of the last descriptor, now or on entry to IDLE. Operands: the channel, what reads of host memory return, and the addresses of the words of fabric SRAM that were read with a single-bit error. -/
  | dmaRefetch (n : Fin 16) (host : List Byte) (fixed : List (BitVec 32))
  /-- DMA_EN_CLEAR (R340). Clearing EN drops the channel at once. Operands: the channel, and what host memory has returned for the transfer under way, in order. -/
  | dmaEnClear (n : Fin 16) (host : List Byte)
  /-- DMA_CH_RESET (R340). DMA_CHn_RESET drops the channel and waits for its transactions. Operands: as for DMA_EN_CLEAR. -/
  | dmaChReset (n : Fin 16) (host : List Byte)
  /-- DMA_RESET_DONE (R340). Outstanding transactions complete and the channel returns to DISABLED. Operands: the channel. -/
  | dmaResetDone (n : Fin 16)
  /-- DMA_CLR_COUNTS (R343). DMA_CTRL.CLR_COUNTS clears the DMA counters. -/
  | dmaClrCounts
  /-- DMA_DESC_FETCHED (R333). A descriptor and its first list entries arrive and are checked. Operands: the channel, what reads of host memory return, and the addresses of the words of fabric SRAM that were read with a single-bit error. -/
  | dmaDescFetched (n : Fin 16) (host : List Byte) (fixed : List (BitVec 32))
  /-- DMA_TRANSFER_DONE (R334). Every data write of a descriptor has its response and the channel writes STATUS. Operands: the channel, what reads of host memory return, in order, and the addresses of the words of fabric SRAM that were read with a single-bit error. -/
  | dmaTransferDone (n : Fin 16) (host : List Byte) (fixed : List (BitVec 32))
  /-- DMA_WRITEBACK_DONE (R336). The STATUS write completes and NEXT is read afresh. Operands: the channel, what reads of host memory return, and the addresses of the words of fabric SRAM that were read with a single-bit error. -/
  | dmaWritebackDone (n : Fin 16) (host : List Byte) (fixed : List (BitVec 32))
  /-- DMA_ERROR (R338). An error response stops the channel and it goes to HALTED. Operands: the channel, the code of Table 13-3, whether the byte count had reached zero, the failing address, the list entries completed, what reads of host memory returned, and the addresses of the words of fabric SRAM that were read with a single-bit error. -/
  | dmaError (n : Fin 16) (code : Fin 16) (late : Bool) (addr : BitVec 64) (sgDone : BitVec 16) (host : List Byte) (fixed : List (BitVec 32))
  /-- DMA_HOST_READ_TIMEOUT (R332). A host read without completion for 10 ms completes with an error. Operands: the channel, the host address, the list entries completed, what reads of host memory returned, and the addresses of the words of fabric SRAM that were read with a single-bit error. -/
  | dmaHostReadTimeout (n : Fin 16) (addr : BitVec 64) (sgDone : BitVec 16) (host : List Byte) (fixed : List (BitVec 32))
  /-- SKEIN_PUSH (R348). A write of SKN_Qn_PUSH3 pushes an entry, overwriting or cutting under QUOTA. Operands: the queue, whether through the host aperture, who writes, and the word written to PUSH3. -/
  | skeinPush (q : Fin 256) (hostWin : Bool) (who : Requester) (value : Word)
  /-- SKEIN_POP (R345). A read of SKN_Qn_POP0 removes and captures the head entry. Operands: the queue, whether through the host aperture, and who reads. -/
  | skeinPop (q : Fin 256) (hostWin : Bool) (who : Requester)
  /-- SKEIN_REFILL_DONE (R346). A spill or refill burst between a stage and the middle completes. Operands: the queue, what the check bits of the block read said, and the offset in it of a word that cannot be corrected. -/
  | skeinRefillDone (q : Fin 256) (found : EccResult) (ofs : Fin 64)
  /-- SKEIN_QUOTA_WRITE (R350). A QUOTA write is checked and applied or refused with QUOTA_ERR. Operands: the queue and the word written to SKN_Qn_QUOTA. -/
  | skeinQuotaWrite (q : Fin 256) (value : Word)
  /-- SKEIN_MODE_WRITE (R351). A MODE write is applied only with EN clear and all queues empty. Operands: the word written to SKN_CTRL. -/
  | skeinModeWrite (value : Word)
  /-- SKN_CLR_COUNTS (R353). SKN_CTRL.CLR_COUNTS clears the Skein counters. -/
  | sknClrCounts
  /-- CRC_END (R356). CRC_n_CMD.END ends the unit. Operands: the unit. -/
  | crcEnd (n : Fin 8)
  /-- CRC_INIT (R357). CRC_n_CMD.INIT loads INIT into VALUE. Operands: the unit. -/
  | crcInit (n : Fin 8)
  /-- CRC_CLR_COUNTS (R359). CRC_CTRL.CLR_COUNTS clears the check-value counters. -/
  | crcClrCounts
  /-- RAIL_FAIL (R360). A rail below its threshold for 1 µs raises POR or BOR. Operands: the rail, in the order of Table 14-1. -/
  | railFail (rail : Fin 10)
  /-- RAIL_VALID (R361). A rail becomes valid and the next PWR_EN pin rises. Operands: the rail, in the order of Table 14-1. -/
  | railValid (rail : Fin 10)
  /-- RAIL_TIMEOUT (R361). A rail not valid within EN_TIMEOUT sets RAIL_FAULT. Operands: the rail, in the order of Table 14-1. -/
  | railTimeout (rail : Fin 10)
  /-- RST_N_LOW (R365). RST_N low passes its filter and raises the RST_N reset. -/
  | rstNLow
  /-- RST_N_HIGH (R365). RST_N rises and passes its filter, allowing release. -/
  | rstNHigh
  /-- RESET_RELEASE (R364). A reset is released and Cast-on starts, loading RST_CAUSE. Operands: the straps BOOT_MODE, HOST_SEL and PAIR_SIDE. -/
  | resetRelease (bootMode : Fin 8) (hostSel : Bool) (pairSide : Bool)
  /-- WATCHDOG_EXPIRY (R368). A watchdog reaches zero and raises its reset source. Operands: the watchdog: of CC0, of CC1, or of the hardware. -/
  | watchdogExpiry (w : Fin 3)
  /-- WDT_KICK (R368). A kick write restarts a watchdog or is counted as bad. Operands: the watchdog, who writes its kick register, and the word written. -/
  | wdtKick (w : Fin 3) (who : Requester) (value : Word)
  /-- SW_RESET (R362). RST_CTRL.SW_RESET with its key raises SOFTWARE. Operands: the word written to RST_CTRL with SW_RESET set. -/
  | swReset (value : Word)
  /-- DEBUG_RESET (R362). A system reset request through the debug port raises DEBUG. -/
  | debugReset
  /-- COMMAND_RESET (R362). After its reply and delay, RESET with SCOPE 0 raises COMMAND. -/
  | commandReset
  /-- RESET_FRAME_CHECK (R369). The reset recogniser checks a reset frame and raises RESET_FRAME or rejects it. -/
  | resetFrameCheck
  /-- DOMAIN_RESET (R367). A write to RST_DOMAIN resets one domain and wipes its array. Operands: the word written to RST_DOMAIN. -/
  | domainReset (value : Word)
  /-- TJ_READING (R370). Every 100 µs the junction sensor is read. Operands: the junction temperature, signed, in 1/16 °C, and the dips of rails above their threshold since the reading before: rail of Table 14-1 and bin. -/
  | tjReading (reading : BitVec 16) (dips : List (Fin 10 × Fin 3))
  /-- CAST_ON_S0_DONE (R371). Supplies valid, RST_N high and 1,024 good crystal cycles end S0. -/
  | castOnS0Done
  /-- CAST_ON_S1_DONE (R371). Life-cycle sensing and retained wipe complete. -/
  | castOnS1Done
  /-- OPTION_LOAD_DONE (R374). The OTP option load completes and the shadows take the values. Operands: what the check bits of the option words said. -/
  | optionLoadDone (pciIds trunkDef flags recIp : EccResult)
  /-- PLL_LOCK (R371). The PLLs lock and the trunk comes up as a bridge. Operands: whether the trunk SerDes PLL locks as well, since REFCLK is present. -/
  | pllLock (refclk : Bool)
  /-- PLL_LOCK_FAIL (R371). The fabric PLL fails to lock; S3 repeats or PLL_FAIL is set. -/
  | pllLockFail
  /-- CAST_ON_S4_DONE (R375). The S4 wipe ends and domains are released in reset state. -/
  | castOnS4Done
  /-- ROM_BOOT (R387). The ROM selects the boot source, verifies and jumps to the image. Operands: whether reading slot A, and slot B, meets a flash read error or an uncorrectable word. -/
  | romBoot (errA errB : Bool)
  /-- CONFIGURED (R371). Firmware restores settings, reaches configured and clears BOOT_FAILS. Operands: the register writes with which firmware restores the settings it holds. -/
  | configured (writes : List (BitVec 32 × Word))
  /-- DORMANT_ENTRY (R377). PWR_CTRL.ENTER_DORMANT starts entry into Dormant. -/
  | dormantEntry
  /-- DORMANT_EN_STEP (R377). Every STEP_US the next PWR_EN pin falls during Dormant entry. -/
  | dormantEnStep
  /-- WAKE_PIN (R378). WAKE_N low with PIN_EN set starts a Dormant exit. -/
  | wakePin
  /-- DORMANT_EXIT_RETRY (R378). After a rail fault, the exit is retried after 100 ms. -/
  | dormantExitRetry
  /-- BKP_WIPE (R376). BKP_CTRL.WIPE from CC0 wipes retained memory and backup registers. Operands: who writes BKP_CTRL.WIPE. -/
  | bkpWipe (who : Requester)
  /-- PWR_DOMAIN_WRITE (R29). A write of PWR_DOMAIN switches domains or is ignored with DOMAIN_ERR. Operands: the word written to PWR_DOMAIN. -/
  | pwrDomainWrite (value : Word)
  /-- BIND_OFF (R379). Firmware parks outputs in a planned state and sets BOUND. -/
  | bindOff
  /-- FWU_COPY (R391). FWU_CTRL.COPY starts the copy engine loading a body into the inactive half. Operands: the word written to FWU_CTRL. -/
  | fwuCopy (value : Word)
  /-- FWU_COPY_DONE (R391). The copy completes with HASH_OK or HASH_FAIL. -/
  | fwuCopyDone
  /-- FWU_SWITCH (R391). FWU_CTRL.SWITCH halts the cores, flips RUN_HALF and starts the new image. Operands: the word written to FWU_CTRL. -/
  | fwuSwitch (value : Word)
  /-- FWU_CONFIRM (R393). FWU_CTRL.CONFIRM accepts the handover and starts probation. Operands: the word written to FWU_CTRL. -/
  | fwuConfirm (value : Word)
  /-- FWU_RETURN (R393). FWU_CTRL.RETURN restarts the old image at its resume address. Operands: the word written to FWU_CTRL. -/
  | fwuReturn (value : Word)
  /-- FWU_REVERT (R397). FWU_CTRL.REVERT restarts the old image with ADOPT. Operands: the word written to FWU_CTRL. -/
  | fwuRevert (value : Word)
  /-- FWU_COMMIT (R396). FWU_CTRL.COMMIT ends probation and protection. Operands: the word written to FWU_CTRL. -/
  | fwuCommit (value : Word)
  /-- HANDOVER_TIMEOUT (R393). No CONFIRM or RETURN within FWU_HO_TIMEOUT returns to the old image. -/
  | handoverTimeout
  /-- PROBATION_EXPIRED (R395). The probation count reaches 0 and firmware commits. -/
  | probationExpired
  /-- FW_TRANSFER_TIMEOUT (R388). A transfer ends after 10 minutes without a chunk. -/
  | fwTransferTimeout
  /-- LC_CMD (R403). FWU_LC_CMD blows the life-cycle fuse group and takes a warm reset. Operands: the word written to FWU_LC_CMD. -/
  | lcCmd (value : Word)
  /-- ROLLBACK_SET (R385). FWU_ROLLBACK_SET blows counter bits up to the target. Operands: the word written to FWU_ROLLBACK_SET. -/
  | rollbackSet (value : Word)
  /-- OTP_REVOKE (R384). FWU_OTP_REVOKE blows a root key's revoke bit or is refused. Operands: the word written to FWU_OTP_REVOKE. -/
  | otpRevoke (value : Word)
  /-- TOKEN_CHECK (R404). FWU_TOKEN_CMD.CHECK starts a hardware token check. -/
  | tokenCheck
  /-- TOKEN_CHECK_DONE (R404). The token check completes, reports PASS or fail and changes the challenge. -/
  | tokenCheckDone
  /-- KEY_WRITE (R406). FWU_KEY_CMD WRITE loads a key slot and returns its store entry. Operands: the word written to FWU_KEY_CMD. -/
  | keyWrite (value : Word)
  /-- KEY_ERASE (R406). FWU_KEY_CMD ERASE empties a key slot. Operands: the word written to FWU_KEY_CMD. -/
  | keyErase (value : Word)
  /-- RECOVERY_GO (R399). FWU_REC_CMD.GO verifies a host-placed image and writes the slot. Operands: the word written to FWU_REC_CMD. -/
  | recoveryGo (value : Word)
  /-- RECOVERY_DONE (R399). Host-path recovery completes with RESULT and restarts on OK. Operands: whether reading the image met an uncorrectable word. -/
  | recoveryDone (err : Bool)
  /-- REC_HELLO (R400). Every 1 s without a session the ROM broadcasts HELLO. -/
  | recHello
  /-- REC_ARP (R400). The ROM answers an ARP request for its recovery address. -/
  | recArp
  /-- REC_START (R401). A START message opens a recovery session or gets BUSY. -/
  | recStart
  /-- REC_DATA (R401). A DATA message block is taken and acknowledged. -/
  | recData
  /-- REC_END (R401). END verifies the image, writes the slot and replies RESULT. -/
  | recEnd
  /-- REC_SESSION_TIMEOUT (R401). 10 s without a message closes the session. -/
  | recSessionTimeout
  /-- REC_RESTART (R401). 100 ms after RESULT OK the ROM clears BOOT_FAILS and resets. -/
  | recRestart
  /-- LOG_SNAP (R409). LOG_CTRL.SNAP copies every accumulator to its snapshot and restarts it. -/
  | logSnap
  /-- LOG_FLUSH_DUE (R409). Every LOG_FLUSH_MIN minutes FLUSH_DUE is set. -/
  | logFlushDue
  /-- SWATCH_AUTO_START (R428). An autonomous strand Swatch job starts every PERIOD_S. Operands: the port. -/
  | swatchAutoStart (n : Fin 32)
  /-- SWATCH_RUN_DONE (R418). A Swatch run ends and edges are histogrammed; further runs or the result follow. Operands: the port, whether the receiver was in LOS, and the edges counted: 64 bins for each of the three candidates. -/
  | swatchRunDone (n : Fin 32) (los : Bool) (bins : List (BitVec 16))
  /-- DRV_OFFSET_ESTIMATE (R421). A sense offset estimate completes from 256 zero-current samples. Operands: the channel and the last 256 zero-current samples, in µV, signed. -/
  | drvOffsetEstimate (c : Fin 16) (samples : List (BitVec 32))
  /-- DRV_FORCED_INTERRUPT (R422). A channel without an estimate in SWATCH_PERIOD drops GATE and DIM for 20 µs. Operands: the channel. -/
  | drvForcedInterrupt (c : Fin 16)
  /-- DRV_INTERRUPT_END (R422). After 20 µs GATE and DIM resume with the current D and W. Operands: the channel, and whether the sense voltage settled. -/
  | drvInterruptEnd (c : Fin 16) (settled : Bool)
  /-- TRUNK_EYE_REFRESH (R425). Every 100 ms with the link up the trunk eye Gauge refreshes. Operands: the port, and the eye's openings in UI/64 and mV. -/
  | trunkEyeRefresh (p : Fin 4) (horiz : BitVec 7) (vert : BitVec 16)
  /-- CAL_CLR_COUNTS (R427). CAL_CTRL.CLR_COUNTS clears the CAL counters. -/
  | calClrCounts
  /-- STRAND_RX_LOS_RELEASE (R438). A strand receiver regains amplitude and commas and leaves loss of signal, clearing RX_LOS. Operands: the receiver. -/
  | strandRxLosRelease (rx : LineRx)
  /-- NODE_POWER_UP (R203). A node powers up, restores its address, pages and scene from non-volatile memory, and stays off until its first accepted latch. Operands: the strand and the node's place. -/
  | nodePowerUp (n : Fin 32) (k : Fin 2048)
  /-- PCIE_LINK_UP (R330). The PCIe endpoint completes training and HST_STATUS.LINK_UP sets. Operands: the speed (1 to 3 for Gen1 to Gen3), whether two lanes, and Bus Master Enable and MSI-X Enable as the host's enumeration leaves them. -/
  | pcieLinkUp (speed : Fin 4) (x2 busMaster msixEn : Bool)
  /-- PCIE_LINK_DOWN (R332). The PCIe link is lost, LINK_DOWN is raised and host addresses complete with the error response. -/
  | pcieLinkDown
  /-- PERST_N_RELEASE (R373). PERST_N rises, the HOST domain leaves reset and the PCIe transmitters start training. -/
  | perstNRelease
  /-- SYNCE_DPLL_LOCK (R44). The enabled SyncE DPLL acquires lock on its reference and TRK_SYNCE_STATUS.STATE becomes LOCKED. Operands: the recovered frequency, signed, in units of 1/256 ppb. -/
  | synceDpllLock (freq : Word)
  /-- ROLL_CALL_WINDOW_EXPIRY (R311). WINDOW_MS after a ROLL_CALL broadcast, the manager stops accepting answers, keeps the table and replies to the requester. -/
  | rollCallWindowExpiry
  /-- WAKE_HELD_EXIT (R377). A wake event held during Dormant entry starts the exit 1 ms after PWR_EN0 has fallen. -/
  | wakeHeldExit
  deriving DecidableEq, Repr

end Sys2Proof
end

