-- ==== Sys2Proof/Decode.lean ====
section
/-!
DEFINITION. The decoder asked of a block: spec/opcode_table.json gives its rows no bits, so no word spells a command (log entry 1).
-/
namespace Sys2Proof

/-- The command that a word spells by the table's bits: none. -/
def decodeTableWord (_nbits _w : Nat) : Option Instr := none

end Sys2Proof
end

