-- ==== Sys2Proof/Config.lean ====
section
/-!
DEFINITION. What the spec leaves to an implementation or to the world outside: constants without a body, so that no proof can
lean on a value of one. Each is named by an entry of the assumption log.
-/
namespace Sys2Proof.Config

/-- The free value number `i`: any number (log entry 3). -/
opaque freeValue : Nat → Nat

/-- The AES-128-GCM tag over `aad` with an empty plaintext, under `key` and the IV bytes `iv` (R74, R308; log entry 5). -/
opaque gcmTag (key : BitVec 128) (iv aad : List Byte) : BitVec 128

/-- The AES-128-CMAC of `msg` under `key` (R369; log entry 5). -/
opaque cmac (key : BitVec 128) (msg : List Byte) : BitVec 128

/-- The SHA-384 digest of `msg` (R383; log entry 5). -/
opaque sha384 (msg : List Byte) : BitVec 384

/-- Whether `sig` is the P-384 signature of `digest` under root key number `key` (R383; log entry 5). -/
opaque sigOk (key : List Byte) (digest : BitVec 384) (sig : List Byte) : Bool

/-- The RFC 3394 wrap of a key under a key-encryption key that only the device has, or under `kek` (R406; log entry 5). -/
opaque keyWrap (kek : Option (BitVec 128)) (lifeCycle : Nat) (key : BitVec 128) : BitVec 192

/-- The key in a wrap, none where it does not unwrap (R406; log entry 5). -/
opaque keyUnwrap (kek : Option (BitVec 128)) (lifeCycle : Nat) (wrap : BitVec 192) : Option (BitVec 128)

/-- How far the CSC result of component `k` lies from the exact formula, as a number modulo 3 less 1 (R149; log entry 19). -/
opaque cscErr (mode y cb cr k : Nat) : Nat

/-- Which of the values within 1 LSB of its formula a Motif waveform gives at phase `p` (R168; log entry 19). -/
opaque waveErr (wave p : Nat) : Nat

/-- What E131IN reads for a slot index of 512 and above (R122 states none; log entry 20). -/
opaque e131Past (univ slot : Nat) : Nat

/-- What a node is built as: field 0 VENDOR, 1 MODEL, 2 SERIAL, 3 CAPS, 4 RATES, 5 ELEMENTS, 6 MAX_BYTES, 7 FW of the node at place
`node` of a strand (Table 7-6; log entry 26). -/
opaque nodeWord (strand node field : Nat) : Nat

/-- The content of a page of the node maker, none where the node has no such page (R178; log entry 26). -/
opaque nodePage (strand node page : Nat) : Option (List Byte)

/-- The device's own MAC and IPv4 address, the partner's IPv4 address, the MAC address that ARP finds for an IPv4 address, and the multicast
group of the Bearings that a device sends (R74, R315, R316; log entry 55). -/
opaque ownMac : BitVec 48
opaque ownIp : BitVec 32
opaque partnerIp : BitVec 32
opaque macOf (ip : BitVec 32) : BitVec 48
opaque bearingGroup : BitVec 32

/-- Whether the debug port holds a core halted in the millisecond of that number: the spec gives the halt no register and no command (R368;
log entry 53). -/
opaque coreHalted : Nat → Bool

/-- Whether firmware has settings in force beside role, device ID and group that it has not saved (R379; log entry 58). -/
opaque settingsDiffer : Nat → Bool

/-- The register writes by which the image before reapplies its settings after a revert (R397; log entry 58). -/
opaque settingsWrites : Nat → List (Nat × Nat)

/-- The content of a settings area as firmware writes it (R390; log entry 58). -/
opaque settings : Nat → List Byte

/-- The sections of a state record as firmware has them: TYPE less 1, CRITICAL and value (R392; log entry 58). -/
opaque stateSections : Nat → List (Nat × Bool × List Byte)

/-- Whether the image of FW_VERSION `version` knows the CRITICAL section type `type` of a state record (R393; log entry 58). -/
opaque knowsSection (version type : Nat) : Bool

/-- Byte `a` of the ROM, which the spec does not print (R13; log entry 2). -/
opaque romByte (a : Nat) : Byte

/-- Byte `i` of the Cartouche that the maker writes for each device: lot, wafer, die, test date, unique ID (Table 15-13; log entry 61). -/
opaque cartByte (i : Nat) : Byte

end Sys2Proof.Config
end

