-- ==== Sys2Proof/Machine/Bits.lean ====
section
/-!
DEFINITION. Bit fields, two's complement, saturation and byte order: the plain arithmetic the meanings share.
A register is read as a natural number, a field of it is `bits`, and a signed field is `sx`.
-/
namespace Sys2Proof.Machine

/-- Bits `hi` down to `lo` of `n`. -/
def bits (n hi lo : Nat) : Nat := n / 2 ^ lo % 2 ^ (hi + 1 - lo)

/-- Bit `i` of `n`. -/
def bit (n i : Nat) : Bool := n / 2 ^ i % 2 == 1

/-- `n` with bits `hi` down to `lo` replaced by `v`. -/
def putBits (n hi lo v : Nat) : Nat :=
  n - bits n hi lo * 2 ^ lo + v % 2 ^ (hi + 1 - lo) * 2 ^ lo

/-- The low `w` bits of `n` read as two's complement. -/
def sx (w n : Nat) : Int :=
  if n % 2 ^ w < 2 ^ (w - 1) then (n % 2 ^ w : Nat) else (n % 2 ^ w : Nat) - (2 ^ w : Nat)

/-- `i` as a `w`-bit two's complement pattern. -/
def ux (w : Nat) (i : Int) : Nat := (i % (2 ^ w : Nat)).toNat

/-- `i` kept between `lo` and `hi`. -/
def clampI (lo hi i : Int) : Int := if i < lo then lo else if hi < i then hi else i

/-- The largest value of a 32-bit counter. -/
def max32 : Nat := 0xFFFFFFFF

/-- A sum that saturates at the top of a 32-bit counter (R56, R89, R206). -/
def sat32 (n : Nat) : Nat := if max32 < n then max32 else n

/-- A sum that saturates at 255. -/
def sat8 (n : Nat) : Nat := if 255 < n then 255 else n

/-- A Bool as 0 or 1. -/
def b2n (b : Bool) : Nat := if b then 1 else 0

/-- Bytes, least significant first, as a number (R9). -/
def leNat : List Byte → Nat
  | [] => 0
  | b :: bs => b.toNat + 256 * leNat bs

/-- Bytes, most significant first, as a number (network order). -/
def beNat (bs : List Byte) : Nat := bs.foldl (fun n b => 256 * n + b.toNat) 0

/-- The `k` low bytes of `n`, least significant first. -/
def toLE : Nat → Nat → List Byte
  | 0, _ => []
  | k + 1, n => BitVec.ofNat 8 n :: toLE k (n / 256)

/-- The `k` low bytes of `n`, most significant first. -/
def toBE (k n : Nat) : List Byte := (toLE k n).reverse

/-- `k` bytes of `bs` from offset `o`; what lies past the end reads as 0. -/
def slice (bs : List Byte) (o k : Nat) : List Byte :=
  (List.range k).map (fun i => bs.getD (o + i) 0#8)

/-- The little-endian field of `k` bytes at offset `o`. -/
def leAt (bs : List Byte) (o k : Nat) : Nat := leNat (slice bs o k)

/-- The big-endian field of `k` bytes at offset `o`. -/
def beAt (bs : List Byte) (o k : Nat) : Nat := beNat (slice bs o k)

/-- A list with element `i` replaced; unchanged where there is no element `i`. -/
def setAt {α : Type} (l : List α) (i : Nat) (x : α) : List α := l.set i x

/-- A list with element `i` changed by `f`. -/
def modAt {α : Type} (l : List α) (i : Nat) (f : α → α) : List α := l.modify i f

/-- The integer nearest to `a / b`, for `b > 0`, halves away from zero. -/
def roundDiv (a b : Int) : Int :=
  if 0 ≤ a then (2 * a + b) / (2 * b) else -((2 * (-a) + b) / (2 * b))

/-- Division that rounds toward zero. -/
def truncDiv (a b : Int) : Int := Int.tdiv a b

/-! ### CRC-32 (Table 5-2) -/

/-- CRC-32 with polynomial 0x04C1_1DB7, reflected (R120): `n` bits of one byte. -/
def crc32Bits : Nat → Nat → Nat
  | 0, c => c
  | n + 1, c => crc32Bits n (if c % 2 = 1 then (c / 2) ^^^ 0xEDB88320 else c / 2)

/-- CRC-32 of bytes: initial value and final XOR 0xFFFF_FFFF. -/
def crc32 (bs : List Byte) : Nat :=
  bs.foldl (fun c x => crc32Bits 8 (c ^^^ x.toNat)) 0xFFFFFFFF ^^^ 0xFFFFFFFF

/-- The CRC-32 of bytes with CRC-32 `a` followed by `k` bytes with CRC-32 `c`. -/
def crc32Join (a k c : Nat) : Nat := crc32Bits (8 * k) a ^^^ c

end Sys2Proof.Machine
end

