-- ==== Sys2Proof/Machine/RegMap.lean ====
section
/-!
DEFINITION. The register map: one row per register of the block maps of spec/ (Tables 1-10, 2-11, 2-16, 3-11, 3-16, 4-6, 5-9,
5-13, 6-4, 7-9, 8-10, 9-3, 10-12, 10-13, 11-7, 12-20 to 12-22, 13-5, 13-6, 13-9, 14-8, 15-15, 15-17, 16-2), with its bus address
(Table 1-4), its access code (R6), its reset value and the bits a write stores or clears. `Reg.<NAME>` is a register's bus
address, with the instance number as an argument; a reserved bit is in no mask (R5).
-/
namespace Sys2Proof.Machine

/-- The access codes of R6. -/
inductive Access where
  | ro | rw | wo | w1c | w1s | rwc
  deriving DecidableEq, Repr

/-- One row of a register map: `c1` instances `s1` bytes apart, each with `c2` words `s2` bytes apart. -/
structure RegRow where
  name : String
  base : Nat
  s1 : Nat
  c1 : Nat
  s2 : Nat
  c2 : Nat
  acc : Access
  reset : Nat
  rw : Nat
  w1c : Nat
  deriving DecidableEq, Repr

/-- A row with one instance of one word. -/
def row1 (name : String) (base : Nat) (acc : Access) (reset rw w1c : Nat) : RegRow :=
  { name, base, s1 := 0, c1 := 1, s2 := 0, c2 := 1, acc, reset, rw, w1c }

/-- A row with `c1` instances of one word. -/
def rowN (name : String) (base s1 c1 : Nat) (acc : Access) (reset rw w1c : Nat) : RegRow :=
  { name, base, s1, c1, s2 := 0, c2 := 1, acc, reset, rw, w1c }

/-- A row with `c1` instances of `c2` words. -/
def rowNM (name : String) (base s1 c1 s2 c2 : Nat) (acc : Access) (reset rw w1c : Nat) : RegRow :=
  { name, base, s1, c1, s2, c2, acc, reset, rw, w1c }

/-- SYS_FAB_CTRL, Table 1-10, access RW. -/
abbrev Reg.SYS_FAB_CTRL : Nat := 0x40000200
/-- SYS_FAB_GUARD_COUNT, Table 1-10, access RO. -/
abbrev Reg.SYS_FAB_GUARD_COUNT : Nat := 0x40000204
/-- SYS_ECC_CE_COUNT, Table 1-10, access RO. -/
abbrev Reg.SYS_ECC_CE_COUNT : Nat := 0x40000208
/-- SYS_ECC_UE_COUNT, Table 1-10, access RO. -/
abbrev Reg.SYS_ECC_UE_COUNT : Nat := 0x4000020C
/-- SYS_ECC_UE_ADDR, Table 1-10, access RO. -/
abbrev Reg.SYS_ECC_UE_ADDR : Nat := 0x40000210
/-- SYS_ECC_UE_SRC, Table 1-10, access RO. -/
abbrev Reg.SYS_ECC_UE_SRC : Nat := 0x40000214
/-- SYS_FAB_MAXWAIT0, Table 1-10, access RO. -/
abbrev Reg.SYS_FAB_MAXWAIT0 : Nat := 0x40000220
/-- SYS_FAB_MAXWAIT1, Table 1-10, access RO. -/
abbrev Reg.SYS_FAB_MAXWAIT1 : Nat := 0x40000224
/-- SYS_FAB_MAXWAIT2, Table 1-10, access RO. -/
abbrev Reg.SYS_FAB_MAXWAIT2 : Nat := 0x40000228
/-- SYS_FAB_MAXWAIT3, Table 1-10, access RO. -/
abbrev Reg.SYS_FAB_MAXWAIT3 : Nat := 0x4000022C
/-- SYS_FAB_MAXWAIT4, Table 1-10, access RO. -/
abbrev Reg.SYS_FAB_MAXWAIT4 : Nat := 0x40000230
/-- TBn_CTRL, Table 2-11, access RW. -/
abbrev Reg.TBn_CTRL (i : Nat) : Nat := 0x40020000 + 0x100 * i
/-- TBn_STATUS, Table 2-11, access RO. -/
abbrev Reg.TBn_STATUS (i : Nat) : Nat := 0x40020004 + 0x100 * i
/-- TBn_INT_STATUS, Table 2-11, access W1C. -/
abbrev Reg.TBn_INT_STATUS (i : Nat) : Nat := 0x40020008 + 0x100 * i
/-- TBn_INT_ENABLE, Table 2-11, access RW. -/
abbrev Reg.TBn_INT_ENABLE (i : Nat) : Nat := 0x4002000C + 0x100 * i
/-- TBn_TIME_SUBNS, Table 2-11, access RO. -/
abbrev Reg.TBn_TIME_SUBNS (i : Nat) : Nat := 0x40020010 + 0x100 * i
/-- TBn_TIME_NS, Table 2-11, access RO. -/
abbrev Reg.TBn_TIME_NS (i : Nat) : Nat := 0x40020014 + 0x100 * i
/-- TBn_TIME_SEC_LO, Table 2-11, access RO. -/
abbrev Reg.TBn_TIME_SEC_LO (i : Nat) : Nat := 0x40020018 + 0x100 * i
/-- TBn_TIME_SEC_HI, Table 2-11, access RO. -/
abbrev Reg.TBn_TIME_SEC_HI (i : Nat) : Nat := 0x4002001C + 0x100 * i
/-- TBn_SET_SUBNS, Table 2-11, access RW. -/
abbrev Reg.TBn_SET_SUBNS (i : Nat) : Nat := 0x40020020 + 0x100 * i
/-- TBn_SET_NS, Table 2-11, access RW. -/
abbrev Reg.TBn_SET_NS (i : Nat) : Nat := 0x40020024 + 0x100 * i
/-- TBn_SET_SEC_LO, Table 2-11, access RW. -/
abbrev Reg.TBn_SET_SEC_LO (i : Nat) : Nat := 0x40020028 + 0x100 * i
/-- TBn_SET_SEC_HI, Table 2-11, access RW. -/
abbrev Reg.TBn_SET_SEC_HI (i : Nat) : Nat := 0x4002002C + 0x100 * i
/-- TBn_STEP_LO, Table 2-11, access RW. -/
abbrev Reg.TBn_STEP_LO (i : Nat) : Nat := 0x40020030 + 0x100 * i
/-- TBn_STEP_HI, Table 2-11, access RW. -/
abbrev Reg.TBn_STEP_HI (i : Nat) : Nat := 0x40020034 + 0x100 * i
/-- TBn_OFS_LO, Table 2-11, access WO. -/
abbrev Reg.TBn_OFS_LO (i : Nat) : Nat := 0x40020038 + 0x100 * i
/-- TBn_OFS_HI, Table 2-11, access WO. -/
abbrev Reg.TBn_OFS_HI (i : Nat) : Nat := 0x4002003C + 0x100 * i
/-- TBn_FREQ, Table 2-11, access RO. -/
abbrev Reg.TBn_FREQ (i : Nat) : Nat := 0x40020040 + 0x100 * i
/-- TBn_FREQ_SET, Table 2-11, access RW. -/
abbrev Reg.TBn_FREQ_SET (i : Nat) : Nat := 0x40020044 + 0x100 * i
/-- TBn_FREQ_LIMIT, Table 2-11, access RW. -/
abbrev Reg.TBn_FREQ_LIMIT (i : Nat) : Nat := 0x40020048 + 0x100 * i
/-- TBn_KP_ACQ, Table 2-11, access RW. -/
abbrev Reg.TBn_KP_ACQ (i : Nat) : Nat := 0x4002004C + 0x100 * i
/-- TBn_KI_ACQ, Table 2-11, access RW. -/
abbrev Reg.TBn_KI_ACQ (i : Nat) : Nat := 0x40020050 + 0x100 * i
/-- TBn_KP_LOCK, Table 2-11, access RW. -/
abbrev Reg.TBn_KP_LOCK (i : Nat) : Nat := 0x40020054 + 0x100 * i
/-- TBn_KI_LOCK, Table 2-11, access RW. -/
abbrev Reg.TBn_KI_LOCK (i : Nat) : Nat := 0x40020058 + 0x100 * i
/-- TBn_JUMP_LIMIT, Table 2-11, access RW. -/
abbrev Reg.TBn_JUMP_LIMIT (i : Nat) : Nat := 0x4002005C + 0x100 * i
/-- TBn_LOCK_THRESH, Table 2-11, access RW. -/
abbrev Reg.TBn_LOCK_THRESH (i : Nat) : Nat := 0x40020060 + 0x100 * i
/-- TBn_LOCK_COUNT, Table 2-11, access RW. -/
abbrev Reg.TBn_LOCK_COUNT (i : Nat) : Nat := 0x40020064 + 0x100 * i
/-- TBn_SAMPLE_TIMEOUT, Table 2-11, access RW. -/
abbrev Reg.TBn_SAMPLE_TIMEOUT (i : Nat) : Nat := 0x40020068 + 0x100 * i
/-- TBn_PPS_DELAY, Table 2-11, access RW. -/
abbrev Reg.TBn_PPS_DELAY (i : Nat) : Nat := 0x4002006C + 0x100 * i
/-- TBn_LAST_OFS_LO, Table 2-11, access RO. -/
abbrev Reg.TBn_LAST_OFS_LO (i : Nat) : Nat := 0x40020070 + 0x100 * i
/-- TBn_LAST_OFS_HI, Table 2-11, access RO. -/
abbrev Reg.TBn_LAST_OFS_HI (i : Nat) : Nat := 0x40020074 + 0x100 * i
/-- TBn_LAST_REFUSED_LO, Table 2-11, access RO. -/
abbrev Reg.TBn_LAST_REFUSED_LO (i : Nat) : Nat := 0x40020078 + 0x100 * i
/-- TBn_LAST_REFUSED_HI, Table 2-11, access RO. -/
abbrev Reg.TBn_LAST_REFUSED_HI (i : Nat) : Nat := 0x4002007C + 0x100 * i
/-- TBn_SAMPLE_COUNT, Table 2-11, access RO. -/
abbrev Reg.TBn_SAMPLE_COUNT (i : Nat) : Nat := 0x40020080 + 0x100 * i
/-- TBn_JUMP_COUNT, Table 2-11, access RO. -/
abbrev Reg.TBn_JUMP_COUNT (i : Nat) : Nat := 0x40020084 + 0x100 * i
/-- TBn_STEP_COUNT, Table 2-11, access RO. -/
abbrev Reg.TBn_STEP_COUNT (i : Nat) : Nat := 0x40020088 + 0x100 * i
/-- TBn_HOLDOVER_MS, Table 2-11, access RO. -/
abbrev Reg.TBn_HOLDOVER_MS (i : Nat) : Nat := 0x4002008C + 0x100 * i
/-- TB0_PAIR_CTRL, Table 2-11, access RW. -/
abbrev Reg.TB0_PAIR_CTRL : Nat := 0x40020400
/-- TB0_PAIR_STATUS, Table 2-11, access RO. -/
abbrev Reg.TB0_PAIR_STATUS : Nat := 0x40020404
/-- TB0_PAIR_DIFF_LO, Table 2-11, access RO. -/
abbrev Reg.TB0_PAIR_DIFF_LO : Nat := 0x40020408
/-- TB0_PAIR_DIFF_HI, Table 2-11, access RO. -/
abbrev Reg.TB0_PAIR_DIFF_HI : Nat := 0x4002040C
/-- TB0_PAIR_DSW_LO, Table 2-11, access RO. -/
abbrev Reg.TB0_PAIR_DSW_LO : Nat := 0x40020410
/-- TB0_PAIR_DSW_HI, Table 2-11, access RO. -/
abbrev Reg.TB0_PAIR_DSW_HI : Nat := 0x40020414
/-- TB0_PAIR_SWITCH_COUNT, Table 2-11, access RO. -/
abbrev Reg.TB0_PAIR_SWITCH_COUNT : Nat := 0x40020418
/-- TB0_PAIR_DISCARD_COUNT, Table 2-11, access RO. -/
abbrev Reg.TB0_PAIR_DISCARD_COUNT : Nat := 0x4002041C
/-- TRK_Pp_TSQ_CTRL, Table 2-16, access RW. -/
abbrev Reg.TRK_Pp_TSQ_CTRL (i : Nat) : Nat := 0x4005F000 + 0x40 * i
/-- TRK_Pp_TSQ_STATUS, Table 2-16, access RO, W1C. -/
abbrev Reg.TRK_Pp_TSQ_STATUS (i : Nat) : Nat := 0x4005F004 + 0x40 * i
/-- TRK_Pp_TSQ_LOST, Table 2-16, access RO. -/
abbrev Reg.TRK_Pp_TSQ_LOST (i : Nat) : Nat := 0x4005F008 + 0x40 * i
/-- TRK_Pp_TSQ_FIRSTLOST, Table 2-16, access RO. -/
abbrev Reg.TRK_Pp_TSQ_FIRSTLOST (i : Nat) : Nat := 0x4005F00C + 0x40 * i
/-- TRK_Pp_TSQ_Wx, Table 2-16, access RO. -/
abbrev Reg.TRK_Pp_TSQ_Wx (i j : Nat) : Nat := 0x4005F010 + 0x40 * i + 0x4 * j
/-- TRK_Pp_TSQ_RX_ADJ, Table 2-16, access RW. -/
abbrev Reg.TRK_Pp_TSQ_RX_ADJ (i : Nat) : Nat := 0x4005F020 + 0x40 * i
/-- TRK_Pp_TSQ_TX_ADJ, Table 2-16, access RW. -/
abbrev Reg.TRK_Pp_TSQ_TX_ADJ (i : Nat) : Nat := 0x4005F024 + 0x40 * i
/-- TRK_Pp_TC_LINKDELAY, Table 2-16, access RW. -/
abbrev Reg.TRK_Pp_TC_LINKDELAY (i : Nat) : Nat := 0x4005F028 + 0x40 * i
/-- TRK_TC_CTRL, Table 2-16, access RW. -/
abbrev Reg.TRK_TC_CTRL : Nat := 0x4005F100
/-- TRK_SYNCE_CTRL, Table 2-16, access RW. -/
abbrev Reg.TRK_SYNCE_CTRL : Nat := 0x4005F200
/-- TRK_SYNCE_STATUS, Table 2-16, access RO. -/
abbrev Reg.TRK_SYNCE_STATUS : Nat := 0x4005F204
/-- TRK_SYNCE_FREQ, Table 2-16, access RO. -/
abbrev Reg.TRK_SYNCE_FREQ : Nat := 0x4005F208
/-- TRK_SYNCE_SWITCH_COUNT, Table 2-16, access RO. -/
abbrev Reg.TRK_SYNCE_SWITCH_COUNT : Nat := 0x4005F20C
/-- MERm_CTRL, Table 3-11, access RW. -/
abbrev Reg.MERm_CTRL (i : Nat) : Nat := 0x40020800 + 0x200 * i
/-- MERm_STATUS, Table 3-11, access RO. -/
abbrev Reg.MERm_STATUS (i : Nat) : Nat := 0x40020804 + 0x200 * i
/-- MERm_INT_STATUS, Table 3-11, access W1C. -/
abbrev Reg.MERm_INT_STATUS (i : Nat) : Nat := 0x40020808 + 0x200 * i
/-- MERm_INT_ENABLE, Table 3-11, access RW. -/
abbrev Reg.MERm_INT_ENABLE (i : Nat) : Nat := 0x4002080C + 0x200 * i
/-- MERm_POS_x, Table 3-11, access RO. -/
abbrev Reg.MERm_POS_x (i j : Nat) : Nat := 0x40020810 + 0x200 * i + 0x4 * j
/-- MERm_FREQ, Table 3-11, access RO. -/
abbrev Reg.MERm_FREQ (i : Nat) : Nat := 0x40020830 + 0x200 * i
/-- MERm_LAST_ERR, Table 3-11, access RO. -/
abbrev Reg.MERm_LAST_ERR (i : Nat) : Nat := 0x40020834 + 0x200 * i
/-- MERm_GAP_US, Table 3-11, access RO. -/
abbrev Reg.MERm_GAP_US (i : Nat) : Nat := 0x40020838 + 0x200 * i
/-- MERm_SLEW_REMAIN, Table 3-11, access RO. -/
abbrev Reg.MERm_SLEW_REMAIN (i : Nat) : Nat := 0x4002083C + 0x200 * i
/-- MERm_EDGE_COUNT, Table 3-11, access RO. -/
abbrev Reg.MERm_EDGE_COUNT (i : Nat) : Nat := 0x40020840 + 0x200 * i
/-- MERm_MISS_COUNT, Table 3-11, access RO. -/
abbrev Reg.MERm_MISS_COUNT (i : Nat) : Nat := 0x40020844 + 0x200 * i
/-- MERm_JUMP_COUNT, Table 3-11, access RO. -/
abbrev Reg.MERm_JUMP_COUNT (i : Nat) : Nat := 0x40020848 + 0x200 * i
/-- MERm_HOLDOVER_MS, Table 3-11, access RO. -/
abbrev Reg.MERm_HOLDOVER_MS (i : Nat) : Nat := 0x4002084C + 0x200 * i
/-- MERm_TC_VALUE, Table 3-11, access RO. -/
abbrev Reg.MERm_TC_VALUE (i : Nat) : Nat := 0x40020850 + 0x200 * i
/-- MERm_MAINS_MHZ, Table 3-11, access RO. -/
abbrev Reg.MERm_MAINS_MHZ (i : Nat) : Nat := 0x40020854 + 0x200 * i
/-- MERm_BEARING_LATE_COUNT, Table 3-11, access RO. -/
abbrev Reg.MERm_BEARING_LATE_COUNT (i : Nat) : Nat := 0x40020858 + 0x200 * i
/-- MERm_KP_ACQ, Table 3-11, access RW. -/
abbrev Reg.MERm_KP_ACQ (i : Nat) : Nat := 0x40020880 + 0x200 * i
/-- MERm_KI_ACQ, Table 3-11, access RW. -/
abbrev Reg.MERm_KI_ACQ (i : Nat) : Nat := 0x40020884 + 0x200 * i
/-- MERm_KP_LOCK, Table 3-11, access RW. -/
abbrev Reg.MERm_KP_LOCK (i : Nat) : Nat := 0x40020888 + 0x200 * i
/-- MERm_KI_LOCK, Table 3-11, access RW. -/
abbrev Reg.MERm_KI_LOCK (i : Nat) : Nat := 0x4002088C + 0x200 * i
/-- MERm_FREQ_LIMIT, Table 3-11, access RW. -/
abbrev Reg.MERm_FREQ_LIMIT (i : Nat) : Nat := 0x40020890 + 0x200 * i
/-- MERm_LOCK_THRESH, Table 3-11, access RW. -/
abbrev Reg.MERm_LOCK_THRESH (i : Nat) : Nat := 0x40020894 + 0x200 * i
/-- MERm_LOCK_COUNT, Table 3-11, access RW. -/
abbrev Reg.MERm_LOCK_COUNT (i : Nat) : Nat := 0x40020898 + 0x200 * i
/-- MERm_MISS_LIMIT, Table 3-11, access RW. -/
abbrev Reg.MERm_MISS_LIMIT (i : Nat) : Nat := 0x4002089C + 0x200 * i
/-- MERm_DECIM, Table 3-11, access RW. -/
abbrev Reg.MERm_DECIM (i : Nat) : Nat := 0x400208A0 + 0x200 * i
/-- MERm_STEP_LIMIT, Table 3-11, access RW. -/
abbrev Reg.MERm_STEP_LIMIT (i : Nat) : Nat := 0x400208A4 + 0x200 * i
/-- MERm_SLEW_RATE, Table 3-11, access RW. -/
abbrev Reg.MERm_SLEW_RATE (i : Nat) : Nat := 0x400208A8 + 0x200 * i
/-- MERm_JUMP_THRESH, Table 3-11, access RW. -/
abbrev Reg.MERm_JUMP_THRESH (i : Nat) : Nat := 0x400208AC + 0x200 * i
/-- MERm_MAINS_SLEW, Table 3-11, access RW. -/
abbrev Reg.MERm_MAINS_SLEW (i : Nat) : Nat := 0x400208B0 + 0x200 * i
/-- MERm_BEARING_TIMEOUT, Table 3-11, access RW. -/
abbrev Reg.MERm_BEARING_TIMEOUT (i : Nat) : Nat := 0x400208B4 + 0x200 * i
/-- MERm_EDGE_DELAY, Table 3-11, access RW. -/
abbrev Reg.MERm_EDGE_DELAY (i : Nat) : Nat := 0x400208B8 + 0x200 * i
/-- MERm_STAGE_SRC, Table 3-11, access RWC. -/
abbrev Reg.MERm_STAGE_SRC (i : Nat) : Nat := 0x40020900 + 0x200 * i
/-- MERm_STAGE_LAYOUT, Table 3-11, access RWC. -/
abbrev Reg.MERm_STAGE_LAYOUT (i : Nat) : Nat := 0x40020904 + 0x200 * i
/-- MERm_STAGE_PERIOD_LO, Table 3-11, access RWC. -/
abbrev Reg.MERm_STAGE_PERIOD_LO (i : Nat) : Nat := 0x40020908 + 0x200 * i
/-- MERm_STAGE_PERIOD_HI, Table 3-11, access RWC. -/
abbrev Reg.MERm_STAGE_PERIOD_HI (i : Nat) : Nat := 0x4002090C + 0x200 * i
/-- MERm_STAGE_PARAM, Table 3-11, access RWC. -/
abbrev Reg.MERm_STAGE_PARAM (i : Nat) : Nat := 0x40020910 + 0x200 * i
/-- MERm_STAGE_RATE_NUM, Table 3-11, access RWC. -/
abbrev Reg.MERm_STAGE_RATE_NUM (i : Nat) : Nat := 0x40020914 + 0x200 * i
/-- MERm_STAGE_RATE_DEN, Table 3-11, access RWC. -/
abbrev Reg.MERm_STAGE_RATE_DEN (i : Nat) : Nat := 0x40020918 + 0x200 * i
/-- MERm_STAGE_ANCHOR_NS, Table 3-11, access RWC. -/
abbrev Reg.MERm_STAGE_ANCHOR_NS (i : Nat) : Nat := 0x40020920 + 0x200 * i
/-- MERm_STAGE_ANCHOR_SEC_LO, Table 3-11, access RWC. -/
abbrev Reg.MERm_STAGE_ANCHOR_SEC_LO (i : Nat) : Nat := 0x40020924 + 0x200 * i
/-- MERm_STAGE_ANCHOR_SEC_HI, Table 3-11, access RWC. -/
abbrev Reg.MERm_STAGE_ANCHOR_SEC_HI (i : Nat) : Nat := 0x40020928 + 0x200 * i
/-- MERm_STAGE_SHUTx, Table 3-11, access RWC. -/
abbrev Reg.MERm_STAGE_SHUTx (i j : Nat) : Nat := 0x40020940 + 0x200 * i + 0x4 * j
/-- MERm_MODEL_x, Table 3-11, access RW. -/
abbrev Reg.MERm_MODEL_x (i j : Nat) : Nat := 0x40020980 + 0x200 * i + 0x4 * j
/-- MERm_SEG_x, Table 3-11, access RO. -/
abbrev Reg.MERm_SEG_x (i j : Nat) : Nat := 0x400209A0 + 0x200 * i + 0x4 * j
/-- WPT_CTRL, Table 3-16, access RW. -/
abbrev Reg.WPT_CTRL : Nat := 0x40021000
/-- WPT_STATUS, Table 3-16, access RO. -/
abbrev Reg.WPT_STATUS : Nat := 0x40021004
/-- WPT_INT_STATUS, Table 3-16, access W1C. -/
abbrev Reg.WPT_INT_STATUS : Nat := 0x40021008
/-- WPT_INT_ENABLE, Table 3-16, access RW. -/
abbrev Reg.WPT_INT_ENABLE : Nat := 0x4002100C
/-- WPT_INDEX, Table 3-16, access RW. -/
abbrev Reg.WPT_INDEX : Nat := 0x40021010
/-- WPT_CMD, Table 3-16, access WO. -/
abbrev Reg.WPT_CMD : Nat := 0x40021014
/-- WPT_ENTRYx, Table 3-16, access RW. -/
abbrev Reg.WPT_ENTRYx (j : Nat) : Nat := 0x40021018 + 0x4 * j
/-- WPT_MISSED_COUNT, Table 3-16, access RW. -/
abbrev Reg.WPT_MISSED_COUNT : Nat := 0x40021028
/-- WPT_LATE_COUNT, Table 3-16, access RW. -/
abbrev Reg.WPT_LATE_COUNT : Nat := 0x4002102C
/-- WPT_DEFER_COUNT, Table 3-16, access RW. -/
abbrev Reg.WPT_DEFER_COUNT : Nat := 0x40021030
/-- WPT_FIRE_TAG, Table 3-16, access RO. -/
abbrev Reg.WPT_FIRE_TAG : Nat := 0x40021034
/-- WPT_LAST_MISSED, Table 3-16, access RO. -/
abbrev Reg.WPT_LAST_MISSED : Nat := 0x40021038
/-- EVT_OUTk_CTRL, Table 3-16, access RW. -/
abbrev Reg.EVT_OUTk_CTRL (i : Nat) : Nat := 0x40021800 + 0x10 * i
/-- EVT_OUTk_COUNT, Table 3-16, access RW. -/
abbrev Reg.EVT_OUTk_COUNT (i : Nat) : Nat := 0x40021804 + 0x10 * i
/-- EVT_PPS_CTRL, Table 3-16, access RW. -/
abbrev Reg.EVT_PPS_CTRL : Nat := 0x40021880
/-- EVT_INj_CTRL, Table 3-16, access RW. -/
abbrev Reg.EVT_INj_CTRL (i : Nat) : Nat := 0x40021900 + 0x40 * i
/-- EVT_INj_STATUS, Table 3-16, access RO, W1C. -/
abbrev Reg.EVT_INj_STATUS (i : Nat) : Nat := 0x40021904 + 0x40 * i
/-- EVT_INj_LOST, Table 3-16, access RW. -/
abbrev Reg.EVT_INj_LOST (i : Nat) : Nat := 0x40021908 + 0x40 * i
/-- EVT_INj_Fx, Table 3-16, access RO. -/
abbrev Reg.EVT_INj_Fx (i j : Nat) : Nat := 0x40021910 + 0x40 * i + 0x4 * j
/-- EVT_INT_STATUS, Table 3-16, access W1C. -/
abbrev Reg.EVT_INT_STATUS : Nat := 0x40021A00
/-- EVT_INT_ENABLE, Table 3-16, access RW. -/
abbrev Reg.EVT_INT_ENABLE : Nat := 0x40021A04
/-- CNV_CTRL, Table 4-6, access RW. -/
abbrev Reg.CNV_CTRL : Nat := 0x40060000
/-- CNV_STATUS, Table 4-6, access RO. -/
abbrev Reg.CNV_STATUS : Nat := 0x40060004
/-- CNV_INT_STATUS, Table 4-6, access W1C. -/
abbrev Reg.CNV_INT_STATUS : Nat := 0x40060008
/-- CNV_INT_ENABLE, Table 4-6, access RW. -/
abbrev Reg.CNV_INT_ENABLE : Nat := 0x4006000C
/-- CNV_NEXT, Table 4-6, access WO. -/
abbrev Reg.CNV_NEXT : Nat := 0x40060010
/-- CNV_FLIP_LINE, Table 4-6, access RW. -/
abbrev Reg.CNV_FLIP_LINE : Nat := 0x40060014
/-- CNV_FLIP_FRAME, Table 4-6, access RO. -/
abbrev Reg.CNV_FLIP_FRAME : Nat := 0x40060018
/-- CNV_LOSS_FRAMES, Table 4-6, access RW. -/
abbrev Reg.CNV_LOSS_FRAMES : Nat := 0x4006001C
/-- CNV_STAGE_FORMAT, Table 4-6, access RWC. -/
abbrev Reg.CNV_STAGE_FORMAT : Nat := 0x40060020
/-- CNV_STAGE_RASTER, Table 4-6, access RWC. -/
abbrev Reg.CNV_STAGE_RASTER : Nat := 0x40060024
/-- CNV_STAGE_ORIGIN, Table 4-6, access RWC. -/
abbrev Reg.CNV_STAGE_ORIGIN : Nat := 0x40060028
/-- CNV_STAGE_SIZE, Table 4-6, access RWC. -/
abbrev Reg.CNV_STAGE_SIZE : Nat := 0x4006002C
/-- CNV_FORMAT, Table 4-6, access RO. -/
abbrev Reg.CNV_FORMAT : Nat := 0x40060030
/-- CNV_RASTER, Table 4-6, access RO. -/
abbrev Reg.CNV_RASTER : Nat := 0x40060034
/-- CNV_ORIGIN, Table 4-6, access RO. -/
abbrev Reg.CNV_ORIGIN : Nat := 0x40060038
/-- CNV_SIZE, Table 4-6, access RO. -/
abbrev Reg.CNV_SIZE : Nat := 0x4006003C
/-- CNV_PITCH_Y, Table 4-6, access RO. -/
abbrev Reg.CNV_PITCH_Y : Nat := 0x40060040
/-- CNV_PITCH_C, Table 4-6, access RO. -/
abbrev Reg.CNV_PITCH_C : Nat := 0x40060044
/-- CNV_FRAME_BYTES, Table 4-6, access RO. -/
abbrev Reg.CNV_FRAME_BYTES : Nat := 0x40060048
/-- CNV_SRC_FRAME, Table 4-6, access RO. -/
abbrev Reg.CNV_SRC_FRAME : Nat := 0x4006004C
/-- CNV_BG, Table 4-6, access RW. -/
abbrev Reg.CNV_BG : Nat := 0x40060050
/-- CNV_MERGE_WAIT, Table 4-6, access RW. -/
abbrev Reg.CNV_MERGE_WAIT : Nat := 0x40060054
/-- CNV_RX_CTRL, Table 4-6, access RW. -/
abbrev Reg.CNV_RX_CTRL : Nat := 0x40060060
/-- CNV_RX_A_GROUP, Table 4-6, access RW. -/
abbrev Reg.CNV_RX_A_GROUP : Nat := 0x40060064
/-- CNV_RX_A_SRCIP, Table 4-6, access RW. -/
abbrev Reg.CNV_RX_A_SRCIP : Nat := 0x40060068
/-- CNV_RX_A_UDP, Table 4-6, access RW. -/
abbrev Reg.CNV_RX_A_UDP : Nat := 0x4006006C
/-- CNV_RX_B_GROUP, Table 4-6, access RW. -/
abbrev Reg.CNV_RX_B_GROUP : Nat := 0x40060070
/-- CNV_RX_B_SRCIP, Table 4-6, access RW. -/
abbrev Reg.CNV_RX_B_SRCIP : Nat := 0x40060074
/-- CNV_RX_B_UDP, Table 4-6, access RW. -/
abbrev Reg.CNV_RX_B_UDP : Nat := 0x40060078
/-- CNV_RX_SSRC, Table 4-6, access RW. -/
abbrev Reg.CNV_RX_SSRC : Nat := 0x4006007C
/-- CNV_SS_CTRL, Table 4-6, access RW. -/
abbrev Reg.CNV_SS_CTRL : Nat := 0x40060080
/-- CNV_SS_GROUP, Table 4-6, access RW. -/
abbrev Reg.CNV_SS_GROUP : Nat := 0x40060084
/-- CNV_SS_LOCAL_IP, Table 4-6, access RW. -/
abbrev Reg.CNV_SS_LOCAL_IP : Nat := 0x40060088
/-- CNV_HOST_CTRL, Table 4-6, access RW. -/
abbrev Reg.CNV_HOST_CTRL : Nat := 0x40060090
/-- CNV_HOST_Y_LO, Table 4-6, access RW. -/
abbrev Reg.CNV_HOST_Y_LO : Nat := 0x40060094
/-- CNV_HOST_Y_HI, Table 4-6, access RW. -/
abbrev Reg.CNV_HOST_Y_HI : Nat := 0x40060098
/-- CNV_HOST_C0_LO, Table 4-6, access RW. -/
abbrev Reg.CNV_HOST_C0_LO : Nat := 0x4006009C
/-- CNV_HOST_C0_HI, Table 4-6, access RW. -/
abbrev Reg.CNV_HOST_C0_HI : Nat := 0x400600A0
/-- CNV_HOST_C1_LO, Table 4-6, access RW. -/
abbrev Reg.CNV_HOST_C1_LO : Nat := 0x400600A4
/-- CNV_HOST_C1_HI, Table 4-6, access RW. -/
abbrev Reg.CNV_HOST_C1_HI : Nat := 0x400600A8
/-- CNV_HOST_PITCH_Y, Table 4-6, access RW. -/
abbrev Reg.CNV_HOST_PITCH_Y : Nat := 0x400600AC
/-- CNV_HOST_PITCH_C, Table 4-6, access RW. -/
abbrev Reg.CNV_HOST_PITCH_C : Nat := 0x400600B0
/-- CNV_HOST_FRAME, Table 4-6, access RW. -/
abbrev Reg.CNV_HOST_FRAME : Nat := 0x400600B4
/-- CNV_COMMIT_COUNT, Table 4-6, access RO. -/
abbrev Reg.CNV_COMMIT_COUNT : Nat := 0x40060100
/-- CNV_FLIP_COUNT, Table 4-6, access RO. -/
abbrev Reg.CNV_FLIP_COUNT : Nat := 0x40060104
/-- CNV_INCOMPLETE_COUNT, Table 4-6, access RO. -/
abbrev Reg.CNV_INCOMPLETE_COUNT : Nat := 0x40060108
/-- CNV_SKIP_COUNT, Table 4-6, access RO. -/
abbrev Reg.CNV_SKIP_COUNT : Nat := 0x4006010C
/-- CNV_PKT_COUNT, Table 4-6, access RO. -/
abbrev Reg.CNV_PKT_COUNT : Nat := 0x40060110
/-- CNV_PKT_DROP, Table 4-6, access RO. -/
abbrev Reg.CNV_PKT_DROP : Nat := 0x40060114
/-- CNV_MERGE_DUP, Table 4-6, access RO. -/
abbrev Reg.CNV_MERGE_DUP : Nat := 0x40060118
/-- CNV_MERGE_LATE, Table 4-6, access RO. -/
abbrev Reg.CNV_MERGE_LATE : Nat := 0x4006011C
/-- CNV_PATH_A_ONLY, Table 4-6, access RO. -/
abbrev Reg.CNV_PATH_A_ONLY : Nat := 0x40060120
/-- CNV_PATH_B_ONLY, Table 4-6, access RO. -/
abbrev Reg.CNV_PATH_B_ONLY : Nat := 0x40060124
/-- CNV_RE_PKT_COUNT, Table 4-6, access RO. -/
abbrev Reg.CNV_RE_PKT_COUNT : Nat := 0x40060128
/-- CNV_RE_DROP, Table 4-6, access RO. -/
abbrev Reg.CNV_RE_DROP : Nat := 0x4006012C
/-- CNV_RE_PACE, Table 4-6, access RW. -/
abbrev Reg.CNV_RE_PACE : Nat := 0x40060200
/-- CNV_RE_SRC_IP, Table 4-6, access RW. -/
abbrev Reg.CNV_RE_SRC_IP : Nat := 0x40060204
/-- CNV_RE_SRC_MAC_LO, Table 4-6, access RW. -/
abbrev Reg.CNV_RE_SRC_MAC_LO : Nat := 0x40060208
/-- CNV_RE_SRC_MAC_HI, Table 4-6, access RW. -/
abbrev Reg.CNV_RE_SRC_MAC_HI : Nat := 0x4006020C
/-- CNV_REe_CTRL, Table 4-6, access RW. -/
abbrev Reg.CNV_REe_CTRL (i : Nat) : Nat := 0x40061000 + 0x20 * i
/-- CNV_REe_ORIGIN, Table 4-6, access RW. -/
abbrev Reg.CNV_REe_ORIGIN (i : Nat) : Nat := 0x40061004 + 0x20 * i
/-- CNV_REe_SIZE, Table 4-6, access RW. -/
abbrev Reg.CNV_REe_SIZE (i : Nat) : Nat := 0x40061008 + 0x20 * i
/-- CNV_REe_TILE, Table 4-6, access RW. -/
abbrev Reg.CNV_REe_TILE (i : Nat) : Nat := 0x4006100C + 0x20 * i
/-- CNV_REe_DEST_IP, Table 4-6, access RW. -/
abbrev Reg.CNV_REe_DEST_IP (i : Nat) : Nat := 0x40061010 + 0x20 * i
/-- CNV_REe_VLAN, Table 4-6, access RW. -/
abbrev Reg.CNV_REe_VLAN (i : Nat) : Nat := 0x40061014 + 0x20 * i
/-- CNV_REe_DEST_MAC_LO, Table 4-6, access RW. -/
abbrev Reg.CNV_REe_DEST_MAC_LO (i : Nat) : Nat := 0x40061018 + 0x20 * i
/-- CNV_REe_DEST_MAC_HI, Table 4-6, access RW. -/
abbrev Reg.CNV_REe_DEST_MAC_HI (i : Nat) : Nat := 0x4006101C + 0x20 * i
/-- CNV_REe_PKTS, Table 4-6, access RO. -/
abbrev Reg.CNV_REe_PKTS (i : Nat) : Nat := 0x40061800 + 0x4 * i
/-- STC_CTRL, Table 5-9, access RW. -/
abbrev Reg.STC_CTRL : Nat := 0x40070000
/-- STC_STATUS, Table 5-9, access RO. -/
abbrev Reg.STC_STATUS : Nat := 0x40070004
/-- STC_INT_STATUS, Table 5-9, access W1C. -/
abbrev Reg.STC_INT_STATUS : Nat := 0x40070008
/-- STC_INT_ENABLE, Table 5-9, access RW. -/
abbrev Reg.STC_INT_ENABLE : Nat := 0x4007000C
/-- STC_PROG_STAGE, Table 5-9, access RW. -/
abbrev Reg.STC_PROG_STAGE : Nat := 0x40070010
/-- STC_PROG_STATUS, Table 5-9, access RO. -/
abbrev Reg.STC_PROG_STATUS : Nat := 0x40070014
/-- STC_PROG_ID, Table 5-9, access RO. -/
abbrev Reg.STC_PROG_ID : Nat := 0x40070018
/-- STC_PROG_STAGED_ID, Table 5-9, access RO. -/
abbrev Reg.STC_PROG_STAGED_ID : Nat := 0x4007001C
/-- STC_LANE_EN, Table 5-9, access RW. -/
abbrev Reg.STC_LANE_EN : Nat := 0x40070020
/-- STC_FLOW_CANCEL, Table 5-9, access WO. -/
abbrev Reg.STC_FLOW_CANCEL : Nat := 0x40070024
/-- STC_CUE, Table 5-9, access WO. -/
abbrev Reg.STC_CUE : Nat := 0x40070028
/-- STC_CUE_BASE, Table 5-9, access RW. -/
abbrev Reg.STC_CUE_BASE : Nat := 0x4007002C
/-- STC_CUE_TAG, Table 5-9, access RO. -/
abbrev Reg.STC_CUE_TAG : Nat := 0x40070030
/-- STC_DELAY_USED, Table 5-9, access RO. -/
abbrev Reg.STC_DELAY_USED : Nat := 0x40070034
/-- STC_DELAY_FLUSH, Table 5-9, access WO. -/
abbrev Reg.STC_DELAY_FLUSH : Nat := 0x40070038
/-- STC_PARAM_DATA, Table 5-9, access RW. -/
abbrev Reg.STC_PARAM_DATA : Nat := 0x40070040
/-- STC_PARAM_CMD, Table 5-9, access WO. -/
abbrev Reg.STC_PARAM_CMD : Nat := 0x40070044
/-- STC_BATCH_COUNT, Table 5-9, access RO. -/
abbrev Reg.STC_BATCH_COUNT : Nat := 0x40070100
/-- STC_RETIRE_COUNT, Table 5-9, access RO. -/
abbrev Reg.STC_RETIRE_COUNT : Nat := 0x40070104
/-- STC_CANCEL_COUNT, Table 5-9, access RO. -/
abbrev Reg.STC_CANCEL_COUNT : Nat := 0x40070108
/-- STC_LATE_COUNT, Table 5-9, access RO. -/
abbrev Reg.STC_LATE_COUNT : Nat := 0x4007010C
/-- STC_RACE_COUNT, Table 5-9, access RO. -/
abbrev Reg.STC_RACE_COUNT : Nat := 0x40070110
/-- STC_ECC_CANCEL_COUNT, Table 5-9, access RO. -/
abbrev Reg.STC_ECC_CANCEL_COUNT : Nat := 0x40070114
/-- STC_EMIT_SKIP_COUNT, Table 5-9, access RO. -/
abbrev Reg.STC_EMIT_SKIP_COUNT : Nat := 0x40070118
/-- STC_DELAY_OVF_COUNT, Table 5-9, access RO. -/
abbrev Reg.STC_DELAY_OVF_COUNT : Nat := 0x4007011C
/-- STC_DELAY_EXPIRE_COUNT, Table 5-9, access RO. -/
abbrev Reg.STC_DELAY_EXPIRE_COUNT : Nat := 0x40070120
/-- STC_CUE_BAD_COUNT, Table 5-9, access RO. -/
abbrev Reg.STC_CUE_BAD_COUNT : Nat := 0x40070124
/-- STC_INFLIGHT_FULL_CYCLES, Table 5-9, access RO. -/
abbrev Reg.STC_INFLIGHT_FULL_CYCLES : Nat := 0x40070128
/-- STC_EMIT_WAIT_CYCLES, Table 5-9, access RO. -/
abbrev Reg.STC_EMIT_WAIT_CYCLES : Nat := 0x4007012C
/-- STC_INFLIGHT_MAX, Table 5-9, access RO. -/
abbrev Reg.STC_INFLIGHT_MAX : Nat := 0x40070130
/-- STC_ROW_SLACK_MIN, Table 5-9, access RO. -/
abbrev Reg.STC_ROW_SLACK_MIN : Nat := 0x40070134
/-- STC_ROW_BUSY_MAX, Table 5-9, access RO. -/
abbrev Reg.STC_ROW_BUSY_MAX : Nat := 0x40070138
/-- STC_LANEl_BUSY, Table 5-9, access RO. -/
abbrev Reg.STC_LANEl_BUSY (i : Nat) : Nat := 0x40070200 + 0x4 * i
/-- STC_PARAM_i, Table 5-9, access RO. -/
abbrev Reg.STC_PARAM_i (i : Nat) : Nat := 0x40071000 + 0x4 * i
/-- TRC_CTRL, Table 5-13, access RW. -/
abbrev Reg.TRC_CTRL : Nat := 0x40138000
/-- TRC_STATUS, Table 5-13, access RO. -/
abbrev Reg.TRC_STATUS : Nat := 0x40138004
/-- TRC_INT_STATUS, Table 5-13, access W1C. -/
abbrev Reg.TRC_INT_STATUS : Nat := 0x40138008
/-- TRC_INT_ENABLE, Table 5-13, access RW. -/
abbrev Reg.TRC_INT_ENABLE : Nat := 0x4013800C
/-- TRC_EVENT_MASK, Table 5-13, access RW. -/
abbrev Reg.TRC_EVENT_MASK : Nat := 0x40138010
/-- TRC_TRIG_MASK, Table 5-13, access RW. -/
abbrev Reg.TRC_TRIG_MASK : Nat := 0x40138014
/-- TRC_POST_COUNT, Table 5-13, access RW. -/
abbrev Reg.TRC_POST_COUNT : Nat := 0x40138018
/-- TRC_TRIG_INDEX, Table 5-13, access RO. -/
abbrev Reg.TRC_TRIG_INDEX : Nat := 0x4013801C
/-- TRC_LOST, Table 5-13, access RO. -/
abbrev Reg.TRC_LOST : Nat := 0x40138020
/-- TRC_STALL_CYCLES, Table 5-13, access RO. -/
abbrev Reg.TRC_STALL_CYCLES : Nat := 0x40138024
/-- TRC_FLOW_FILTER, Table 5-13, access RW. -/
abbrev Reg.TRC_FLOW_FILTER : Nat := 0x40138028
/-- STR_INT_SUMMARY, Table 7-9, access RO. -/
abbrev Reg.STR_INT_SUMMARY : Nat := 0x40090000
/-- STR_INT_STATUS, Table 7-9, access W1C. -/
abbrev Reg.STR_INT_STATUS : Nat := 0x40090004
/-- STR_INT_ENABLE, Table 7-9, access RW. -/
abbrev Reg.STR_INT_ENABLE : Nat := 0x40090008
/-- STR_REPLY_BASE, Table 7-9, access RW. -/
abbrev Reg.STR_REPLY_BASE : Nat := 0x40090010
/-- STR_REPLY_SIZE, Table 7-9, access RW. -/
abbrev Reg.STR_REPLY_SIZE : Nat := 0x40090014
/-- STR_REPLY_HEAD, Table 7-9, access RO. -/
abbrev Reg.STR_REPLY_HEAD : Nat := 0x40090018
/-- STR_REPLY_TAIL, Table 7-9, access RW. -/
abbrev Reg.STR_REPLY_TAIL : Nat := 0x4009001C
/-- STR_REPLY_LOST, Table 7-9, access RO. -/
abbrev Reg.STR_REPLY_LOST : Nat := 0x40090020
/-- STR_n_CTRL, Table 7-9, access RW. -/
abbrev Reg.STR_n_CTRL (i : Nat) : Nat := 0x40091000 + 0x200 * i
/-- STR_n_STATUS, Table 7-9, access RO. -/
abbrev Reg.STR_n_STATUS (i : Nat) : Nat := 0x40091004 + 0x200 * i
/-- STR_n_INT_STATUS, Table 7-9, access W1C. -/
abbrev Reg.STR_n_INT_STATUS (i : Nat) : Nat := 0x40091008 + 0x200 * i
/-- STR_n_INT_ENABLE, Table 7-9, access RW. -/
abbrev Reg.STR_n_INT_ENABLE (i : Nat) : Nat := 0x4009100C + 0x200 * i
/-- STR_n_RATE, Table 7-9, access RWC. -/
abbrev Reg.STR_n_RATE (i : Nat) : Nat := 0x40091010 + 0x200 * i
/-- STR_n_PHY, Table 7-9, access RW. -/
abbrev Reg.STR_n_PHY (i : Nat) : Nat := 0x40091014 + 0x200 * i
/-- STR_n_LAYOUT, Table 7-9, access RW. -/
abbrev Reg.STR_n_LAYOUT (i : Nat) : Nat := 0x40091018 + 0x200 * i
/-- STR_n_STITCH_BYTES, Table 7-9, access RW. -/
abbrev Reg.STR_n_STITCH_BYTES (i : Nat) : Nat := 0x4009101C + 0x200 * i
/-- STR_n_BGx, Table 7-9, access RW. -/
abbrev Reg.STR_n_BGx (i j : Nat) : Nat := 0x40091020 + 0x200 * i + 0x4 * j
/-- STR_n_LIMIT_B, Table 7-9, access RW. -/
abbrev Reg.STR_n_LIMIT_B (i : Nat) : Nat := 0x40091038 + 0x200 * i
/-- STR_n_LIMIT_D, Table 7-9, access RW. -/
abbrev Reg.STR_n_LIMIT_D (i : Nat) : Nat := 0x4009103C + 0x200 * i
/-- STR_n_CLAIM, Table 7-9, access RW. -/
abbrev Reg.STR_n_CLAIM (i : Nat) : Nat := 0x40091040 + 0x200 * i
/-- STR_n_RING, Table 7-9, access RW. -/
abbrev Reg.STR_n_RING (i : Nat) : Nat := 0x40091044 + 0x200 * i
/-- STR_n_MIRROR, Table 7-9, access RW. -/
abbrev Reg.STR_n_MIRROR (i : Nat) : Nat := 0x40091048 + 0x200 * i
/-- STR_n_REFRESH, Table 7-9, access RW. -/
abbrev Reg.STR_n_REFRESH (i : Nat) : Nat := 0x4009104C + 0x200 * i
/-- STR_n_HOP_MAX, Table 7-9, access RW. -/
abbrev Reg.STR_n_HOP_MAX (i : Nat) : Nat := 0x40091050 + 0x200 * i
/-- STR_n_SURVEY_ADDR, Table 7-9, access RW. -/
abbrev Reg.STR_n_SURVEY_ADDR (i : Nat) : Nat := 0x40091054 + 0x200 * i
/-- STR_n_SURVEY_CTRL, Table 7-9, access RW. -/
abbrev Reg.STR_n_SURVEY_CTRL (i : Nat) : Nat := 0x40091058 + 0x200 * i
/-- STR_n_PARK_LIMIT, Table 7-9, access RW. -/
abbrev Reg.STR_n_PARK_LIMIT (i : Nat) : Nat := 0x4009105C + 0x200 * i
/-- STR_n_CTL_ADDR, Table 7-9, access RW. -/
abbrev Reg.STR_n_CTL_ADDR (i : Nat) : Nat := 0x40091060 + 0x200 * i
/-- STR_n_CTL_CMD, Table 7-9, access WO. -/
abbrev Reg.STR_n_CTL_CMD (i : Nat) : Nat := 0x40091064 + 0x200 * i
/-- STR_n_LEAD, Table 7-9, access RO. -/
abbrev Reg.STR_n_LEAD (i : Nat) : Nat := 0x40091068 + 0x200 * i
/-- STR_n_NODES, Table 7-9, access RO. -/
abbrev Reg.STR_n_NODES (i : Nat) : Nat := 0x4009106C + 0x200 * i
/-- STR_n_CHAIN_CK, Table 7-9, access RO. -/
abbrev Reg.STR_n_CHAIN_CK (i : Nat) : Nat := 0x40091070 + 0x200 * i
/-- STR_n_UTIL, Table 7-9, access RO. -/
abbrev Reg.STR_n_UTIL (i : Nat) : Nat := 0x40091074 + 0x200 * i
/-- STR_n_FRAMES_TX, Table 7-9, access RO. -/
abbrev Reg.STR_n_FRAMES_TX (i : Nat) : Nat := 0x40091080 + 0x200 * i
/-- STR_n_LINES_TX, Table 7-9, access RO. -/
abbrev Reg.STR_n_LINES_TX (i : Nat) : Nat := 0x40091084 + 0x200 * i
/-- STR_n_UNDERRUN, Table 7-9, access RO. -/
abbrev Reg.STR_n_UNDERRUN (i : Nat) : Nat := 0x40091088 + 0x200 * i
/-- STR_n_BG_BYTES, Table 7-9, access RO. -/
abbrev Reg.STR_n_BG_BYTES (i : Nat) : Nat := 0x4009108C + 0x200 * i
/-- STR_n_LINE_SKIP, Table 7-9, access RO. -/
abbrev Reg.STR_n_LINE_SKIP (i : Nat) : Nat := 0x40091090 + 0x200 * i
/-- STR_n_LINE_UNCHANGED, Table 7-9, access RO. -/
abbrev Reg.STR_n_LINE_UNCHANGED (i : Nat) : Nat := 0x40091094 + 0x200 * i
/-- STR_n_LATCHES, Table 7-9, access RO. -/
abbrev Reg.STR_n_LATCHES (i : Nat) : Nat := 0x40091098 + 0x200 * i
/-- STR_n_LATCH_LATE, Table 7-9, access RO. -/
abbrev Reg.STR_n_LATCH_LATE (i : Nat) : Nat := 0x4009109C + 0x200 * i
/-- STR_n_RB_FRAMES, Table 7-9, access RO. -/
abbrev Reg.STR_n_RB_FRAMES (i : Nat) : Nat := 0x400910A0 + 0x200 * i
/-- STR_n_RB_MISMATCH, Table 7-9, access RO. -/
abbrev Reg.STR_n_RB_MISMATCH (i : Nat) : Nat := 0x400910A4 + 0x200 * i
/-- STR_n_RX_FRAMES, Table 7-9, access RO. -/
abbrev Reg.STR_n_RX_FRAMES (i : Nat) : Nat := 0x400910A8 + 0x200 * i
/-- STR_n_RX_CRC_ERR, Table 7-9, access RO. -/
abbrev Reg.STR_n_RX_CRC_ERR (i : Nat) : Nat := 0x400910AC + 0x200 * i
/-- STR_n_RX_LOS_COUNT, Table 7-9, access RO. -/
abbrev Reg.STR_n_RX_LOS_COUNT (i : Nat) : Nat := 0x400910B0 + 0x200 * i
/-- STR_n_REPLY_TIMEOUT, Table 7-9, access RO. -/
abbrev Reg.STR_n_REPLY_TIMEOUT (i : Nat) : Nat := 0x400910B4 + 0x200 * i
/-- STR_n_RATE_CHANGES, Table 7-9, access RO. -/
abbrev Reg.STR_n_RATE_CHANGES (i : Nat) : Nat := 0x400910B8 + 0x200 * i
/-- STR_n_LATE_BYTES, Table 7-9, access RO. -/
abbrev Reg.STR_n_LATE_BYTES (i : Nat) : Nat := 0x400910BC + 0x200 * i
/-- STR_n_RING_SWITCH, Table 7-9, access RO. -/
abbrev Reg.STR_n_RING_SWITCH (i : Nat) : Nat := 0x400910C0 + 0x200 * i
/-- E131_RX_MAPi, Table 8-10, access RW. -/
abbrev Reg.E131_RX_MAPi (i : Nat) : Nat := 0x4005C000 + 0x4 * i
/-- E131_CTRL, Table 8-10, access RW. -/
abbrev Reg.E131_CTRL : Nat := 0x4005E000
/-- E131_INT_STATUS, Table 8-10, access W1C. -/
abbrev Reg.E131_INT_STATUS : Nat := 0x4005E008
/-- E131_INT_ENABLE, Table 8-10, access RW. -/
abbrev Reg.E131_INT_ENABLE : Nat := 0x4005E00C
/-- E131_RX_BASE, Table 8-10, access RW. -/
abbrev Reg.E131_RX_BASE : Nat := 0x4005E010
/-- E131_TX_BASE, Table 8-10, access RW. -/
abbrev Reg.E131_TX_BASE : Nat := 0x4005E014
/-- E131_TX_TABLE, Table 8-10, access RW. -/
abbrev Reg.E131_TX_TABLE : Nat := 0x4005E018
/-- E131_TX_COUNT, Table 8-10, access RW. -/
abbrev Reg.E131_TX_COUNT : Nat := 0x4005E01C
/-- E131_TX_FDIV, Table 8-10, access RW. -/
abbrev Reg.E131_TX_FDIV : Nat := 0x4005E020
/-- E131_TX_SRC_IP, Table 8-10, access RW. -/
abbrev Reg.E131_TX_SRC_IP : Nat := 0x4005E024
/-- E131_TX_SRC_MAC_LO, Table 8-10, access RW. -/
abbrev Reg.E131_TX_SRC_MAC_LO : Nat := 0x4005E028
/-- E131_TX_SRC_MAC_HI, Table 8-10, access RW. -/
abbrev Reg.E131_TX_SRC_MAC_HI : Nat := 0x4005E02C
/-- E131_CIDx, Table 8-10, access RW. -/
abbrev Reg.E131_CIDx (j : Nat) : Nat := 0x4005E030 + 0x4 * j
/-- E131_NAME_ADDR, Table 8-10, access RW. -/
abbrev Reg.E131_NAME_ADDR : Nat := 0x4005E040
/-- E131_RX_RING, Table 8-10, access RW. -/
abbrev Reg.E131_RX_RING : Nat := 0x4005E044
/-- E131_SYNC_TIMEOUT, Table 8-10, access RW. -/
abbrev Reg.E131_SYNC_TIMEOUT : Nat := 0x4005E048
/-- E131_LOSS_TIMEOUT, Table 8-10, access RW. -/
abbrev Reg.E131_LOSS_TIMEOUT : Nat := 0x4005E04C
/-- E131_TX_VLAN, Table 8-10, access RW. -/
abbrev Reg.E131_TX_VLAN : Nat := 0x4005E050
/-- E131_TX_DSCP, Table 8-10, access RW. -/
abbrev Reg.E131_TX_DSCP : Nat := 0x4005E054
/-- E131_RX_PKTS, Table 8-10, access RO. -/
abbrev Reg.E131_RX_PKTS : Nat := 0x4005E100
/-- E131_RX_DROP, Table 8-10, access RO. -/
abbrev Reg.E131_RX_DROP : Nat := 0x4005E104
/-- E131_RX_SEQ_DROP, Table 8-10, access RO. -/
abbrev Reg.E131_RX_SEQ_DROP : Nat := 0x4005E108
/-- E131_RX_SRC_DROP, Table 8-10, access RO. -/
abbrev Reg.E131_RX_SRC_DROP : Nat := 0x4005E10C
/-- E131_TX_PKTS, Table 8-10, access RO. -/
abbrev Reg.E131_TX_PKTS : Nat := 0x4005E110
/-- E131_TX_SKIP, Table 8-10, access RO. -/
abbrev Reg.E131_TX_SKIP : Nat := 0x4005E114
/-- E131_SYNC_RX, Table 8-10, access RO. -/
abbrev Reg.E131_SYNC_RX : Nat := 0x4005E118
/-- E131_SYNC_TX, Table 8-10, access RO. -/
abbrev Reg.E131_SYNC_TX : Nat := 0x4005E11C
/-- E131_RX_LOSSx, Table 8-10, access RO. -/
abbrev Reg.E131_RX_LOSSx (j : Nat) : Nat := 0x4005E200 + 0x4 * j
/-- DRV_CTRL, Table 9-3, access RW. -/
abbrev Reg.DRV_CTRL : Nat := 0x400A0000
/-- DRV_STATUS, Table 9-3, access RO. -/
abbrev Reg.DRV_STATUS : Nat := 0x400A0004
/-- DRV_INT_STATUS, Table 9-3, access W1C. -/
abbrev Reg.DRV_INT_STATUS : Nat := 0x400A0008
/-- DRV_INT_ENABLE, Table 9-3, access RW. -/
abbrev Reg.DRV_INT_ENABLE : Nat := 0x400A000C
/-- DRV_CH_SUMMARY, Table 9-3, access RO. -/
abbrev Reg.DRV_CH_SUMMARY : Nat := 0x400A0010
/-- DRV_HOLD_CTRL, Table 9-3, access RW. -/
abbrev Reg.DRV_HOLD_CTRL : Nat := 0x400A0014
/-- DRV_HOLD_REMAIN, Table 9-3, access RO. -/
abbrev Reg.DRV_HOLD_REMAIN : Nat := 0x400A0018
/-- DRV_SNS_CTRL, Table 9-3, access RW. -/
abbrev Reg.DRV_SNS_CTRL : Nat := 0x400A001C
/-- DRV_AINi, Table 9-3, access RO. -/
abbrev Reg.DRV_AINi (i : Nat) : Nat := 0x400A0040 + 0x4 * i
/-- DRV_NTCi_k, Table 9-3, access RW. -/
abbrev Reg.DRV_NTCi_k (i j : Nat) : Nat := 0x400A0400 + 0x40 * i + 0x4 * j
/-- DRV_SNSs_CFG, Table 9-3, access RW. -/
abbrev Reg.DRV_SNSs_CFG (i : Nat) : Nat := 0x400A0800 + 0x10 * i
/-- DRV_SNSs_DATA0, Table 9-3, access RO. -/
abbrev Reg.DRV_SNSs_DATA0 (i : Nat) : Nat := 0x400A0804 + 0x10 * i
/-- DRV_SNSs_DATA1, Table 9-3, access RO. -/
abbrev Reg.DRV_SNSs_DATA1 (i : Nat) : Nat := 0x400A0808 + 0x10 * i
/-- DRV_SNSs_STAT, Table 9-3, access RO. -/
abbrev Reg.DRV_SNSs_STAT (i : Nat) : Nat := 0x400A080C + 0x10 * i
/-- DRV_c_CTRL, Table 9-3, access RW. -/
abbrev Reg.DRV_c_CTRL (i : Nat) : Nat := 0x400A1000 + 0x100 * i
/-- DRV_c_STATUS, Table 9-3, access RO. -/
abbrev Reg.DRV_c_STATUS (i : Nat) : Nat := 0x400A1004 + 0x100 * i
/-- DRV_c_INT_STATUS, Table 9-3, access W1C. -/
abbrev Reg.DRV_c_INT_STATUS (i : Nat) : Nat := 0x400A1008 + 0x100 * i
/-- DRV_c_INT_ENABLE, Table 9-3, access RW. -/
abbrev Reg.DRV_c_INT_ENABLE (i : Nat) : Nat := 0x400A100C + 0x100 * i
/-- DRV_c_FSW, Table 9-3, access RW. -/
abbrev Reg.DRV_c_FSW (i : Nat) : Nat := 0x400A1010 + 0x100 * i
/-- DRV_c_FS_UV, Table 9-3, access RW. -/
abbrev Reg.DRV_c_FS_UV (i : Nat) : Nat := 0x400A1014 + 0x100 * i
/-- DRV_c_RIPPLE_K, Table 9-3, access RW. -/
abbrev Reg.DRV_c_RIPPLE_K (i : Nat) : Nat := 0x400A1018 + 0x100 * i
/-- DRV_c_SLOPE, Table 9-3, access RW. -/
abbrev Reg.DRV_c_SLOPE (i : Nat) : Nat := 0x400A101C + 0x100 * i
/-- DRV_c_VSTR_DIV, Table 9-3, access RW. -/
abbrev Reg.DRV_c_VSTR_DIV (i : Nat) : Nat := 0x400A1020 + 0x100 * i
/-- DRV_c_VSTR_LIM, Table 9-3, access RW. -/
abbrev Reg.DRV_c_VSTR_LIM (i : Nat) : Nat := 0x400A1024 + 0x100 * i
/-- DRV_c_PARTIAL, Table 9-3, access RW. -/
abbrev Reg.DRV_c_PARTIAL (i : Nat) : Nat := 0x400A1028 + 0x100 * i
/-- DRV_c_SET, Table 9-3, access RWC. -/
abbrev Reg.DRV_c_SET (i : Nat) : Nat := 0x400A102C + 0x100 * i
/-- DRV_c_LEVEL, Table 9-3, access RO. -/
abbrev Reg.DRV_c_LEVEL (i : Nat) : Nat := 0x400A1030 + 0x100 * i
/-- DRV_c_STEP, Table 9-3, access RO. -/
abbrev Reg.DRV_c_STEP (i : Nat) : Nat := 0x400A1034 + 0x100 * i
/-- DRV_c_WIDTH, Table 9-3, access RO. -/
abbrev Reg.DRV_c_WIDTH (i : Nat) : Nat := 0x400A1038 + 0x100 * i
/-- DRV_c_VSTR, Table 9-3, access RO. -/
abbrev Reg.DRV_c_VSTR (i : Nat) : Nat := 0x400A103C + 0x100 * i
/-- DRV_c_DIAG_CFG, Table 9-3, access RW. -/
abbrev Reg.DRV_c_DIAG_CFG (i : Nat) : Nat := 0x400A1040 + 0x100 * i
/-- DRV_c_RETRY, Table 9-3, access RW. -/
abbrev Reg.DRV_c_RETRY (i : Nat) : Nat := 0x400A1044 + 0x100 * i
/-- DRV_c_EDGE_ADJ, Table 9-3, access RW. -/
abbrev Reg.DRV_c_EDGE_ADJ (i : Nat) : Nat := 0x400A1048 + 0x100 * i
/-- DRV_c_THERM, Table 9-3, access RW. -/
abbrev Reg.DRV_c_THERM (i : Nat) : Nat := 0x400A104C + 0x100 * i
/-- DRV_c_DERATE_x, Table 9-3, access RW. -/
abbrev Reg.DRV_c_DERATE_x (i j : Nat) : Nat := 0x400A1050 + 0x100 * i + 0x4 * j
/-- DRV_c_TCRIT, Table 9-3, access RW. -/
abbrev Reg.DRV_c_TCRIT (i : Nat) : Nat := 0x400A1070 + 0x100 * i
/-- DRV_c_DFAULT, Table 9-3, access RW. -/
abbrev Reg.DRV_c_DFAULT (i : Nat) : Nat := 0x400A1074 + 0x100 * i
/-- DRV_c_DERATE, Table 9-3, access RO. -/
abbrev Reg.DRV_c_DERATE (i : Nat) : Nat := 0x400A1078 + 0x100 * i
/-- DRV_c_TEMP, Table 9-3, access RO. -/
abbrev Reg.DRV_c_TEMP (i : Nat) : Nat := 0x400A107C + 0x100 * i
/-- DRV_c_LIMIT_B, Table 9-3, access RW. -/
abbrev Reg.DRV_c_LIMIT_B (i : Nat) : Nat := 0x400A1080 + 0x100 * i
/-- DRV_c_LATE_COUNT, Table 9-3, access RO. -/
abbrev Reg.DRV_c_LATE_COUNT (i : Nat) : Nat := 0x400A10A0 + 0x100 * i
/-- DRV_c_UNVERIFIED_COUNT, Table 9-3, access RO. -/
abbrev Reg.DRV_c_UNVERIFIED_COUNT (i : Nat) : Nat := 0x400A10A4 + 0x100 * i
/-- DRV_c_DIAG_PULSES, Table 9-3, access RO. -/
abbrev Reg.DRV_c_DIAG_PULSES (i : Nat) : Nat := 0x400A10A8 + 0x100 * i
/-- DRV_c_STRETCHED, Table 9-3, access RO. -/
abbrev Reg.DRV_c_STRETCHED (i : Nat) : Nat := 0x400A10AC + 0x100 * i
/-- DRV_c_FAULT_COUNT, Table 9-3, access RO. -/
abbrev Reg.DRV_c_FAULT_COUNT (i : Nat) : Nat := 0x400A10B0 + 0x100 * i
/-- DRV_c_OC_CYCLES, Table 9-3, access RO. -/
abbrev Reg.DRV_c_OC_CYCLES (i : Nat) : Nat := 0x400A10B4 + 0x100 * i
/-- DRV_c_WINDOW_CLIP, Table 9-3, access RO. -/
abbrev Reg.DRV_c_WINDOW_CLIP (i : Nat) : Nat := 0x400A10B8 + 0x100 * i
/-- DRV_c_UNVERIFIED_RUN, Table 9-3, access RO. -/
abbrev Reg.DRV_c_UNVERIFIED_RUN (i : Nat) : Nat := 0x400A10BC + 0x100 * i
/-- DRV_GRPg_CTRL, Table 9-3, access RWC. -/
abbrev Reg.DRV_GRPg_CTRL (i : Nat) : Nat := 0x400A3000 + 0x10 * i
/-- DRV_GRPg_PHASE, Table 9-3, access RWC. -/
abbrev Reg.DRV_GRPg_PHASE (i : Nat) : Nat := 0x400A3004 + 0x10 * i
/-- DRV_GRPg_STATUS, Table 9-3, access RO. -/
abbrev Reg.DRV_GRPg_STATUS (i : Nat) : Nat := 0x400A3008 + 0x10 * i
/-- TRK_CTRL, Table 10-12, access RW. -/
abbrev Reg.TRK_CTRL : Nat := 0x40040000
/-- TRK_STATUS, Table 10-12, access RO. -/
abbrev Reg.TRK_STATUS : Nat := 0x40040004
/-- TRK_INT_STATUS, Table 10-12, access W1C. -/
abbrev Reg.TRK_INT_STATUS : Nat := 0x40040008
/-- TRK_INT_ENABLE, Table 10-12, access RW. -/
abbrev Reg.TRK_INT_ENABLE : Nat := 0x4004000C
/-- TRK_AGE_TIME, Table 10-12, access RW. -/
abbrev Reg.TRK_AGE_TIME : Nat := 0x40040010
/-- TRK_FIX_CTRL, Table 10-12, access RW. -/
abbrev Reg.TRK_FIX_CTRL : Nat := 0x40040014
/-- TRK_Q_RESERVE, Table 10-12, access RW. -/
abbrev Reg.TRK_Q_RESERVE : Nat := 0x40040018
/-- TRK_TBL_CMD, Table 10-12, access WO. -/
abbrev Reg.TRK_TBL_CMD : Nat := 0x40040020
/-- TRK_TBL_DATA0, Table 10-12, access RW. -/
abbrev Reg.TRK_TBL_DATA0 : Nat := 0x40040024
/-- TRK_TBL_DATA1, Table 10-12, access RW. -/
abbrev Reg.TRK_TBL_DATA1 : Nat := 0x40040028
/-- TRK_TBL_DATA2, Table 10-12, access RW. -/
abbrev Reg.TRK_TBL_DATA2 : Nat := 0x4004002C
/-- TRK_TBL_STATUS, Table 10-12, access RO. -/
abbrev Reg.TRK_TBL_STATUS : Nat := 0x40040030
/-- TRK_LEARN_FULL, Table 10-12, access RO. -/
abbrev Reg.TRK_LEARN_FULL : Nat := 0x40040034
/-- TRK_BUF_FREE, Table 10-12, access RO. -/
abbrev Reg.TRK_BUF_FREE : Nat := 0x40040038
/-- TRK_BUF_MIN, Table 10-12, access RO. -/
abbrev Reg.TRK_BUF_MIN : Nat := 0x4004003C
/-- TRK_STEERk_MATCH, Table 10-12, access RW. -/
abbrev Reg.TRK_STEERk_MATCH (i : Nat) : Nat := 0x40040100 + 0x8 * i
/-- TRK_STEERk_RING, Table 10-12, access RW. -/
abbrev Reg.TRK_STEERk_RING (i : Nat) : Nat := 0x40040104 + 0x8 * i
/-- TRK_QRING_MAP, Table 10-12, access RW. -/
abbrev Reg.TRK_QRING_MAP : Nat := 0x40040180
/-- TRK_RINGi_CTRL, Table 10-12, access RW. -/
abbrev Reg.TRK_RINGi_CTRL (i : Nat) : Nat := 0x40040200 + 0x20 * i
/-- TRK_RINGi_STATUS, Table 10-12, access RO. -/
abbrev Reg.TRK_RINGi_STATUS (i : Nat) : Nat := 0x40040204 + 0x20 * i
/-- TRK_RINGi_CHANGES, Table 10-12, access RO. -/
abbrev Reg.TRK_RINGi_CHANGES (i : Nat) : Nat := 0x40040208 + 0x20 * i
/-- TRK_RINGi_FLUSHES, Table 10-12, access RO. -/
abbrev Reg.TRK_RINGi_FLUSHES (i : Nat) : Nat := 0x4004020C + 0x20 * i
/-- TRK_RINGi_LINKDOWN_RX, Table 10-12, access RO. -/
abbrev Reg.TRK_RINGi_LINKDOWN_RX (i : Nat) : Nat := 0x40040210 + 0x20 * i
/-- TRK_Pp_CTRL, Table 10-12, access RW. -/
abbrev Reg.TRK_Pp_CTRL (i : Nat) : Nat := 0x40041000 + 0x400 * i
/-- TRK_Pp_STATUS, Table 10-12, access RO. -/
abbrev Reg.TRK_Pp_STATUS (i : Nat) : Nat := 0x40041004 + 0x400 * i
/-- TRK_Pp_INT_STATUS, Table 10-12, access W1C. -/
abbrev Reg.TRK_Pp_INT_STATUS (i : Nat) : Nat := 0x40041008 + 0x400 * i
/-- TRK_Pp_INT_ENABLE, Table 10-12, access RW. -/
abbrev Reg.TRK_Pp_INT_ENABLE (i : Nat) : Nat := 0x4004100C + 0x400 * i
/-- TRK_Pp_MAX_LEN, Table 10-12, access RW. -/
abbrev Reg.TRK_Pp_MAX_LEN (i : Nat) : Nat := 0x40041010 + 0x400 * i
/-- TRK_Pp_CLASS, Table 10-12, access RW. -/
abbrev Reg.TRK_Pp_CLASS (i : Nat) : Nat := 0x40041014 + 0x400 * i
/-- TRK_Pp_PCP_MAP, Table 10-12, access RW. -/
abbrev Reg.TRK_Pp_PCP_MAP (i : Nat) : Nat := 0x40041018 + 0x400 * i
/-- TRK_Pp_STORM, Table 10-12, access RW. -/
abbrev Reg.TRK_Pp_STORM (i : Nat) : Nat := 0x4004101C + 0x400 * i
/-- TRK_Pp_DSCP_MAPx, Table 10-12, access RW. -/
abbrev Reg.TRK_Pp_DSCP_MAPx (i j : Nat) : Nat := 0x40041020 + 0x400 * i + 0x4 * j
/-- TRK_Pp_SERDES, Table 10-12, access RW. -/
abbrev Reg.TRK_Pp_SERDES (i : Nat) : Nat := 0x40041040 + 0x400 * i
/-- TRK_Pp_RX_FRAMES, Table 10-12, access RO. -/
abbrev Reg.TRK_Pp_RX_FRAMES (i : Nat) : Nat := 0x40041080 + 0x400 * i
/-- TRK_Pp_RX_OCTETS_LO, Table 10-12, access RO. -/
abbrev Reg.TRK_Pp_RX_OCTETS_LO (i : Nat) : Nat := 0x40041084 + 0x400 * i
/-- TRK_Pp_RX_OCTETS_HI, Table 10-12, access RO. -/
abbrev Reg.TRK_Pp_RX_OCTETS_HI (i : Nat) : Nat := 0x40041088 + 0x400 * i
/-- TRK_Pp_RX_FCS_ERR, Table 10-12, access RO. -/
abbrev Reg.TRK_Pp_RX_FCS_ERR (i : Nat) : Nat := 0x4004108C + 0x400 * i
/-- TRK_Pp_RX_RUNT, Table 10-12, access RO. -/
abbrev Reg.TRK_Pp_RX_RUNT (i : Nat) : Nat := 0x40041090 + 0x400 * i
/-- TRK_Pp_RX_OVERSIZE, Table 10-12, access RO. -/
abbrev Reg.TRK_Pp_RX_OVERSIZE (i : Nat) : Nat := 0x40041094 + 0x400 * i
/-- TRK_Pp_RX_PAUSE, Table 10-12, access RO. -/
abbrev Reg.TRK_Pp_RX_PAUSE (i : Nat) : Nat := 0x40041098 + 0x400 * i
/-- TRK_Pp_RX_STORM_DROP, Table 10-12, access RO. -/
abbrev Reg.TRK_Pp_RX_STORM_DROP (i : Nat) : Nat := 0x4004109C + 0x400 * i
/-- TRK_Pp_RX_NOCELL, Table 10-12, access RO. -/
abbrev Reg.TRK_Pp_RX_NOCELL (i : Nat) : Nat := 0x400410A0 + 0x400 * i
/-- TRK_Pp_RX_FILTERED, Table 10-12, access RO. -/
abbrev Reg.TRK_Pp_RX_FILTERED (i : Nat) : Nat := 0x400410A4 + 0x400 * i
/-- TRK_Pp_TX_FRAMES, Table 10-12, access RO. -/
abbrev Reg.TRK_Pp_TX_FRAMES (i : Nat) : Nat := 0x400410A8 + 0x400 * i
/-- TRK_Pp_TX_OCTETS_LO, Table 10-12, access RO. -/
abbrev Reg.TRK_Pp_TX_OCTETS_LO (i : Nat) : Nat := 0x400410AC + 0x400 * i
/-- TRK_Pp_TX_OCTETS_HI, Table 10-12, access RO. -/
abbrev Reg.TRK_Pp_TX_OCTETS_HI (i : Nat) : Nat := 0x400410B0 + 0x400 * i
/-- TRK_Pp_TX_LINKDROP, Table 10-12, access RO. -/
abbrev Reg.TRK_Pp_TX_LINKDROP (i : Nat) : Nat := 0x400410B4 + 0x400 * i
/-- TRK_Pp_LINK_DOWN, Table 10-12, access RO. -/
abbrev Reg.TRK_Pp_LINK_DOWN (i : Nat) : Nat := 0x400410B8 + 0x400 * i
/-- TRK_Pp_FEC_CORR, Table 10-12, access RO. -/
abbrev Reg.TRK_Pp_FEC_CORR (i : Nat) : Nat := 0x400410BC + 0x400 * i
/-- TRK_Pp_FEC_UNCORR, Table 10-12, access RO. -/
abbrev Reg.TRK_Pp_FEC_UNCORR (i : Nat) : Nat := 0x400410C0 + 0x400 * i
/-- TRK_Pp_TC_CORRECTED, Table 10-12, access RO. -/
abbrev Reg.TRK_Pp_TC_CORRECTED (i : Nat) : Nat := 0x400410C4 + 0x400 * i
/-- TRK_Pp_TX_STOMP, Table 10-12, access RO. -/
abbrev Reg.TRK_Pp_TX_STOMP (i : Nat) : Nat := 0x400410C8 + 0x400 * i
/-- TRK_Pp_TX_QDROPq, Table 10-12, access RO. -/
abbrev Reg.TRK_Pp_TX_QDROPq (i j : Nat) : Nat := 0x400410E0 + 0x400 * i + 0x4 * j
/-- TRK_RXr_CTRL, Table 10-12, access RW. -/
abbrev Reg.TRK_RXr_CTRL (i : Nat) : Nat := 0x40043000 + 0x40 * i
/-- TRK_RXr_BASE_LO, Table 10-12, access RW. -/
abbrev Reg.TRK_RXr_BASE_LO (i : Nat) : Nat := 0x40043004 + 0x40 * i
/-- TRK_RXr_BASE_HI, Table 10-12, access RW. -/
abbrev Reg.TRK_RXr_BASE_HI (i : Nat) : Nat := 0x40043008 + 0x40 * i
/-- TRK_RXr_HEAD, Table 10-12, access RO. -/
abbrev Reg.TRK_RXr_HEAD (i : Nat) : Nat := 0x4004300C + 0x40 * i
/-- TRK_RXr_TAIL, Table 10-12, access RW. -/
abbrev Reg.TRK_RXr_TAIL (i : Nat) : Nat := 0x40043010 + 0x40 * i
/-- TRK_RXr_COAL, Table 10-12, access RW. -/
abbrev Reg.TRK_RXr_COAL (i : Nat) : Nat := 0x40043014 + 0x40 * i
/-- TRK_RXr_INT_STATUS, Table 10-12, access W1C. -/
abbrev Reg.TRK_RXr_INT_STATUS (i : Nat) : Nat := 0x40043018 + 0x40 * i
/-- TRK_RXr_INT_ENABLE, Table 10-12, access RW. -/
abbrev Reg.TRK_RXr_INT_ENABLE (i : Nat) : Nat := 0x4004301C + 0x40 * i
/-- TRK_RXr_FRAMES, Table 10-12, access RO. -/
abbrev Reg.TRK_RXr_FRAMES (i : Nat) : Nat := 0x40043020 + 0x40 * i
/-- TRK_RXr_NOBUF, Table 10-12, access RO. -/
abbrev Reg.TRK_RXr_NOBUF (i : Nat) : Nat := 0x40043024 + 0x40 * i
/-- TRK_TXt_CTRL, Table 10-12, access RW. -/
abbrev Reg.TRK_TXt_CTRL (i : Nat) : Nat := 0x40043800 + 0x40 * i
/-- TRK_TXt_BASE_LO, Table 10-12, access RW. -/
abbrev Reg.TRK_TXt_BASE_LO (i : Nat) : Nat := 0x40043804 + 0x40 * i
/-- TRK_TXt_BASE_HI, Table 10-12, access RW. -/
abbrev Reg.TRK_TXt_BASE_HI (i : Nat) : Nat := 0x40043808 + 0x40 * i
/-- TRK_TXt_HEAD, Table 10-12, access RO. -/
abbrev Reg.TRK_TXt_HEAD (i : Nat) : Nat := 0x4004380C + 0x40 * i
/-- TRK_TXt_TAIL, Table 10-12, access RW. -/
abbrev Reg.TRK_TXt_TAIL (i : Nat) : Nat := 0x40043810 + 0x40 * i
/-- TRK_TXt_INT_STATUS, Table 10-12, access W1C. -/
abbrev Reg.TRK_TXt_INT_STATUS (i : Nat) : Nat := 0x40043814 + 0x40 * i
/-- TRK_TXt_INT_ENABLE, Table 10-12, access RW. -/
abbrev Reg.TRK_TXt_INT_ENABLE (i : Nat) : Nat := 0x40043818 + 0x40 * i
/-- TRK_TXt_FRAMES, Table 10-12, access RO. -/
abbrev Reg.TRK_TXt_FRAMES (i : Nat) : Nat := 0x4004381C + 0x40 * i
/-- TRK_TXt_ERRORS, Table 10-12, access RO. -/
abbrev Reg.TRK_TXt_ERRORS (i : Nat) : Nat := 0x40043820 + 0x40 * i
/-- PWR_WAKE_CTRL, Table 10-13, access RW. -/
abbrev Reg.PWR_WAKE_CTRL : Nat := 0x40010800
/-- PWR_WAKE_ID, Table 10-13, access RW. -/
abbrev Reg.PWR_WAKE_ID : Nat := 0x40010804
/-- PWR_WAKE_CODE_LO, Table 10-13, access RW. -/
abbrev Reg.PWR_WAKE_CODE_LO : Nat := 0x40010808
/-- PWR_WAKE_CODE_HI, Table 10-13, access RW. -/
abbrev Reg.PWR_WAKE_CODE_HI : Nat := 0x4001080C
/-- PWR_WAKE_STATUS, Table 10-13, access RO, W1C. -/
abbrev Reg.PWR_WAKE_STATUS : Nat := 0x40010810
/-- PWR_WAKE_SEEN, Table 10-13, access RO. -/
abbrev Reg.PWR_WAKE_SEEN : Nat := 0x40010814
/-- PAIR_CTRL, Table 11-7, access RW. -/
abbrev Reg.PAIR_CTRL : Nat := 0x400B0000
/-- PAIR_STATUS, Table 11-7, access RO. -/
abbrev Reg.PAIR_STATUS : Nat := 0x400B0004
/-- PAIR_INT_STATUS, Table 11-7, access W1C. -/
abbrev Reg.PAIR_INT_STATUS : Nat := 0x400B0008
/-- PAIR_INT_ENABLE, Table 11-7, access RW. -/
abbrev Reg.PAIR_INT_ENABLE : Nat := 0x400B000C
/-- PAIR_CONFIG, Table 11-7, access RW. -/
abbrev Reg.PAIR_CONFIG : Nat := 0x400B0010
/-- PAIR_TIMING, Table 11-7, access RW. -/
abbrev Reg.PAIR_TIMING : Nat := 0x400B0014
/-- PAIR_PARTNER, Table 11-7, access RW. -/
abbrev Reg.PAIR_PARTNER : Nat := 0x400B0018
/-- PAIR_PORTS, Table 11-7, access RW. -/
abbrev Reg.PAIR_PORTS : Nat := 0x400B001C
/-- PAIR_WEIGHT0, Table 11-7, access RW. -/
abbrev Reg.PAIR_WEIGHT0 : Nat := 0x400B0020
/-- PAIR_WEIGHT1, Table 11-7, access RW. -/
abbrev Reg.PAIR_WEIGHT1 : Nat := 0x400B0024
/-- PAIR_CLAIM, Table 11-7, access RO. -/
abbrev Reg.PAIR_CLAIM : Nat := 0x400B0028
/-- PAIR_FAULTS, Table 11-7, access RO. -/
abbrev Reg.PAIR_FAULTS : Nat := 0x400B002C
/-- PAIR_PEER, Table 11-7, access RO. -/
abbrev Reg.PAIR_PEER : Nat := 0x400B0030
/-- PAIR_PEER_AGE, Table 11-7, access RO. -/
abbrev Reg.PAIR_PEER_AGE : Nat := 0x400B0034
/-- PAIR_TAKEOVER_FRAME, Table 11-7, access RO. -/
abbrev Reg.PAIR_TAKEOVER_FRAME : Nat := 0x400B0038
/-- PAIR_CONFIG_TAG, Table 11-7, access RW. -/
abbrev Reg.PAIR_CONFIG_TAG : Nat := 0x400B003C
/-- PAIR_PEER_TAG, Table 11-7, access RO. -/
abbrev Reg.PAIR_PEER_TAG : Nat := 0x400B0040
/-- PAIR_FORCE_CTRL, Table 11-7, access RW. -/
abbrev Reg.PAIR_FORCE_CTRL : Nat := 0x400B0044
/-- PAIR_REVERT_REMAIN, Table 11-7, access RO. -/
abbrev Reg.PAIR_REVERT_REMAIN : Nat := 0x400B0048
/-- PAIR_SRC_MAC_LO, Table 11-7, access RW. -/
abbrev Reg.PAIR_SRC_MAC_LO : Nat := 0x400B004C
/-- PAIR_SRC_MAC_HI, Table 11-7, access RW. -/
abbrev Reg.PAIR_SRC_MAC_HI : Nat := 0x400B0050
/-- PAIR_TAKEOVERS, Table 11-7, access RO. -/
abbrev Reg.PAIR_TAKEOVERS : Nat := 0x400B0080
/-- PAIR_YIELDS, Table 11-7, access RO. -/
abbrev Reg.PAIR_YIELDS : Nat := 0x400B0084
/-- PAIR_BEACON_TX, Table 11-7, access RO. -/
abbrev Reg.PAIR_BEACON_TX : Nat := 0x400B0088
/-- PAIR_BEACON_RX, Table 11-7, access RO. -/
abbrev Reg.PAIR_BEACON_RX : Nat := 0x400B008C
/-- PAIR_BEACON_BAD, Table 11-7, access RO. -/
abbrev Reg.PAIR_BEACON_BAD : Nat := 0x400B0090
/-- PAIR_ALIVE_LOSS, Table 11-7, access RO. -/
abbrev Reg.PAIR_ALIVE_LOSS : Nat := 0x400B0094
/-- PAIR_SHADOW_COMPARED, Table 11-7, access RO. -/
abbrev Reg.PAIR_SHADOW_COMPARED : Nat := 0x400B0098
/-- PAIR_SHADOW_MISMATCH, Table 11-7, access RO. -/
abbrev Reg.PAIR_SHADOW_MISMATCH : Nat := 0x400B009C
/-- PAIR_SHADOW_SKIPPED, Table 11-7, access RO. -/
abbrev Reg.PAIR_SHADOW_SKIPPED : Nat := 0x400B00A0
/-- PAIR_WKR_CTRL, Table 11-7, access RW. -/
abbrev Reg.PAIR_WKR_CTRL : Nat := 0x400B0100
/-- PAIR_WKR_SRC, Table 11-7, access RW. -/
abbrev Reg.PAIR_WKR_SRC : Nat := 0x400B0104
/-- PAIR_WKR_HEARD, Table 11-7, access WO. -/
abbrev Reg.PAIR_WKR_HEARD : Nat := 0x400B0108
/-- PAIR_WKR_STATUS, Table 11-7, access RO. -/
abbrev Reg.PAIR_WKR_STATUS : Nat := 0x400B010C
/-- PAIR_WKR_CLAIM, Table 11-7, access RO. -/
abbrev Reg.PAIR_WKR_CLAIM : Nat := 0x400B0110
/-- PAIR_WKR_SWITCHES, Table 11-7, access RO. -/
abbrev Reg.PAIR_WKR_SWITCHES : Nat := 0x400B0114
/-- MBX_m_PTR_LO, Table 12-20, access RW. -/
abbrev Reg.MBX_m_PTR_LO (i : Nat) : Nat := 0x400C0000 + 0x20 * i
/-- MBX_m_PTR_HI, Table 12-20, access RW. -/
abbrev Reg.MBX_m_PTR_HI (i : Nat) : Nat := 0x400C0004 + 0x20 * i
/-- MBX_m_TAG, Table 12-20, access RW. -/
abbrev Reg.MBX_m_TAG (i : Nat) : Nat := 0x400C0008 + 0x20 * i
/-- MBX_m_STATUS, Table 12-20, access RO, W1C. -/
abbrev Reg.MBX_m_STATUS (i : Nat) : Nat := 0x400C000C + 0x20 * i
/-- MBX_m_ACK, Table 12-20, access WO. -/
abbrev Reg.MBX_m_ACK (i : Nat) : Nat := 0x400C0010 + 0x20 * i
/-- MBX_m_RCODE, Table 12-20, access RO. -/
abbrev Reg.MBX_m_RCODE (i : Nat) : Nat := 0x400C0014 + 0x20 * i
/-- MBX_m_POSTS, Table 12-20, access RO. -/
abbrev Reg.MBX_m_POSTS (i : Nat) : Nat := 0x400C0018 + 0x20 * i
/-- MBX_INT_STATUS, Table 12-20, access W1C. -/
abbrev Reg.MBX_INT_STATUS : Nat := 0x400C0200
/-- MBX_INT_ENABLE, Table 12-20, access RW. -/
abbrev Reg.MBX_INT_ENABLE : Nat := 0x400C0204
/-- MBX_INT_EN_CC0, Table 12-20, access RW. -/
abbrev Reg.MBX_INT_EN_CC0 : Nat := 0x400C0208
/-- MBX_INT_EN_CC1, Table 12-20, access RW. -/
abbrev Reg.MBX_INT_EN_CC1 : Nat := 0x400C020C
/-- MBX_ERR_COUNT, Table 12-20, access RO. -/
abbrev Reg.MBX_ERR_COUNT : Nat := 0x400C0210
/-- DBL_STATUS, Table 12-20, access W1C. -/
abbrev Reg.DBL_STATUS : Nat := 0x400C0400
/-- DBL_RAISE, Table 12-20, access W1S. -/
abbrev Reg.DBL_RAISE : Nat := 0x400C0404
/-- DBL_ENABLE, Table 12-20, access RW. -/
abbrev Reg.DBL_ENABLE : Nat := 0x400C0408
/-- MBX_LOCK_n, Table 12-20, access RW. -/
abbrev Reg.MBX_LOCK_n (i : Nat) : Nat := 0x400C0800 + 0x4 * i
/-- MBX_LOCK_VIOL, Table 12-20, access RO. -/
abbrev Reg.MBX_LOCK_VIOL : Nat := 0x400C0880
/-- MBX_LOCK_BREAK, Table 12-20, access WO. -/
abbrev Reg.MBX_LOCK_BREAK : Nat := 0x400C0884
/-- HST_CTRL, Table 12-21, access RW. -/
abbrev Reg.HST_CTRL : Nat := 0x40120000
/-- HST_STATUS, Table 12-21, access RO. -/
abbrev Reg.HST_STATUS : Nat := 0x40120004
/-- HST_INT_STATUS, Table 12-21, access W1C. -/
abbrev Reg.HST_INT_STATUS : Nat := 0x40120008
/-- HST_INT_ENABLE, Table 12-21, access RW. -/
abbrev Reg.HST_INT_ENABLE : Nat := 0x4012000C
/-- HST_IDS, Table 12-21, access RO. -/
abbrev Reg.HST_IDS : Nat := 0x40120010
/-- HST_INTN_SEL_LO, Table 12-21, access RW. -/
abbrev Reg.HST_INTN_SEL_LO : Nat := 0x40120014
/-- HST_INTN_SEL_HI, Table 12-21, access RW. -/
abbrev Reg.HST_INTN_SEL_HI : Nat := 0x40120018
/-- HST_SRC_PEND_LO, Table 12-21, access RO. -/
abbrev Reg.HST_SRC_PEND_LO : Nat := 0x4012001C
/-- HST_SRC_PEND_HI, Table 12-21, access RO. -/
abbrev Reg.HST_SRC_PEND_HI : Nat := 0x40120020
/-- HST_ACL_DROPS, Table 12-21, access RO. -/
abbrev Reg.HST_ACL_DROPS : Nat := 0x40120024
/-- HST_CA_COUNT, Table 12-21, access RO. -/
abbrev Reg.HST_CA_COUNT : Nat := 0x40120028
/-- HST_UR_COUNT, Table 12-21, access RO. -/
abbrev Reg.HST_UR_COUNT : Nat := 0x4012002C
/-- HST_OBk_BASE_LO, Table 12-21, access RW. -/
abbrev Reg.HST_OBk_BASE_LO (i : Nat) : Nat := 0x40120040 + 0x8 * i
/-- HST_OBk_BASE_HI, Table 12-21, access RW. -/
abbrev Reg.HST_OBk_BASE_HI (i : Nat) : Nat := 0x40120044 + 0x8 * i
/-- HST_MSIXv_SEL_LO, Table 12-21, access RW. -/
abbrev Reg.HST_MSIXv_SEL_LO (i : Nat) : Nat := 0x40120100 + 0x8 * i
/-- HST_MSIXv_SEL_HI, Table 12-21, access RW. -/
abbrev Reg.HST_MSIXv_SEL_HI (i : Nat) : Nat := 0x40120104 + 0x8 * i
/-- HST_QBUF_IN, Table 12-21, access RW. -/
abbrev Reg.HST_QBUF_IN (i : Nat) : Nat := 0x40128000 + 0x4 * i
/-- HST_QBUF_OUT, Table 12-21, access RW. -/
abbrev Reg.HST_QBUF_OUT (i : Nat) : Nat := 0x4012A000 + 0x4 * i
/-- HST_QSPI_STATUS, Table 12-21, access RO. -/
abbrev Reg.HST_QSPI_STATUS : Nat := 0x4012C000
/-- SYS_INT_SUMMARY, Table 12-22, access RO. -/
abbrev Reg.SYS_INT_SUMMARY : Nat := 0x40000100
/-- SYS_INT_STATUS, Table 12-22, access W1C. -/
abbrev Reg.SYS_INT_STATUS : Nat := 0x40000104
/-- SYS_INT_ENABLE, Table 12-22, access RW. -/
abbrev Reg.SYS_INT_ENABLE : Nat := 0x40000108
/-- DMA_CTRL, Table 13-5, access RW. -/
abbrev Reg.DMA_CTRL : Nat := 0x400D0000
/-- DMA_STATUS, Table 13-5, access RO. -/
abbrev Reg.DMA_STATUS : Nat := 0x400D0004
/-- DMA_INT_STATUS, Table 13-5, access W1C. -/
abbrev Reg.DMA_INT_STATUS : Nat := 0x400D0008
/-- DMA_INT_ENABLE, Table 13-5, access RW. -/
abbrev Reg.DMA_INT_ENABLE : Nat := 0x400D000C
/-- DMA_CHn_CTRL, Table 13-5, access RW. -/
abbrev Reg.DMA_CHn_CTRL (i : Nat) : Nat := 0x400D0100 + 0x40 * i
/-- DMA_CHn_STATUS, Table 13-5, access RO. -/
abbrev Reg.DMA_CHn_STATUS (i : Nat) : Nat := 0x400D0104 + 0x40 * i
/-- DMA_CHn_RESET, Table 13-5, access WO. -/
abbrev Reg.DMA_CHn_RESET (i : Nat) : Nat := 0x400D0108 + 0x40 * i
/-- DMA_CHn_TRIG, Table 13-5, access RW. -/
abbrev Reg.DMA_CHn_TRIG (i : Nat) : Nat := 0x400D010C + 0x40 * i
/-- DMA_CHn_DESC_LO, Table 13-5, access RW. -/
abbrev Reg.DMA_CHn_DESC_LO (i : Nat) : Nat := 0x400D0110 + 0x40 * i
/-- DMA_CHn_DESC_HI, Table 13-5, access RW. -/
abbrev Reg.DMA_CHn_DESC_HI (i : Nat) : Nat := 0x400D0114 + 0x40 * i
/-- DMA_CHn_LAST_LO, Table 13-5, access RO. -/
abbrev Reg.DMA_CHn_LAST_LO (i : Nat) : Nat := 0x400D0118 + 0x40 * i
/-- DMA_CHn_LAST_HI, Table 13-5, access RO. -/
abbrev Reg.DMA_CHn_LAST_HI (i : Nat) : Nat := 0x400D011C + 0x40 * i
/-- DMA_CHn_ERR_ADDR_LO, Table 13-5, access RO. -/
abbrev Reg.DMA_CHn_ERR_ADDR_LO (i : Nat) : Nat := 0x400D0120 + 0x40 * i
/-- DMA_CHn_ERR_ADDR_HI, Table 13-5, access RO. -/
abbrev Reg.DMA_CHn_ERR_ADDR_HI (i : Nat) : Nat := 0x400D0124 + 0x40 * i
/-- DMA_CHn_PUSHQ, Table 13-5, access RW. -/
abbrev Reg.DMA_CHn_PUSHQ (i : Nat) : Nat := 0x400D0128 + 0x40 * i
/-- DMA_CHn_BYTES, Table 13-5, access RO. -/
abbrev Reg.DMA_CHn_BYTES (i : Nat) : Nat := 0x400D012C + 0x40 * i
/-- DMA_CHn_DESCS, Table 13-5, access RO. -/
abbrev Reg.DMA_CHn_DESCS (i : Nat) : Nat := 0x400D0130 + 0x40 * i
/-- DMA_CHn_ERRORS, Table 13-5, access RO. -/
abbrev Reg.DMA_CHn_ERRORS (i : Nat) : Nat := 0x400D0134 + 0x40 * i
/-- DMA_CHn_TRIG_MISS, Table 13-5, access RO. -/
abbrev Reg.DMA_CHn_TRIG_MISS (i : Nat) : Nat := 0x400D0138 + 0x40 * i
/-- SKN_CTRL, Table 13-6, access RW. -/
abbrev Reg.SKN_CTRL : Nat := 0x400E0000
/-- SKN_STATUS, Table 13-6, access RO. -/
abbrev Reg.SKN_STATUS : Nat := 0x400E0004
/-- SKN_INT_STATUS, Table 13-6, access W1C. -/
abbrev Reg.SKN_INT_STATUS : Nat := 0x400E0008
/-- SKN_INT_ENABLE, Table 13-6, access RW. -/
abbrev Reg.SKN_INT_ENABLE : Nat := 0x400E000C
/-- SKN_CELLS, Table 13-6, access RW. -/
abbrev Reg.SKN_CELLS : Nat := 0x400E0010
/-- SKN_CELLS_FREE, Table 13-6, access RO. -/
abbrev Reg.SKN_CELLS_FREE : Nat := 0x400E0014
/-- SKN_CELLS_COMMITTED, Table 13-6, access RO. -/
abbrev Reg.SKN_CELLS_COMMITTED : Nat := 0x400E0018
/-- SKN_EVENTk, Table 13-6, access W1C. -/
abbrev Reg.SKN_EVENTk (i : Nat) : Nat := 0x400E0020 + 0x4 * i
/-- SKN_EVENT_ENk, Table 13-6, access RW. -/
abbrev Reg.SKN_EVENT_ENk (i : Nat) : Nat := 0x400E0040 + 0x4 * i
/-- SKN_Qn_CTRL, Table 13-6, access RW. -/
abbrev Reg.SKN_Qn_CTRL (i : Nat) : Nat := 0x400E1000 + 0x20 * i
/-- SKN_Qn_QUOTA, Table 13-6, access RW. -/
abbrev Reg.SKN_Qn_QUOTA (i : Nat) : Nat := 0x400E1004 + 0x20 * i
/-- SKN_Qn_SPILL_BASE, Table 13-6, access RW. -/
abbrev Reg.SKN_Qn_SPILL_BASE (i : Nat) : Nat := 0x400E1008 + 0x20 * i
/-- SKN_Qn_SPILL_SIZE, Table 13-6, access RW. -/
abbrev Reg.SKN_Qn_SPILL_SIZE (i : Nat) : Nat := 0x400E100C + 0x20 * i
/-- SKN_Qn_LEVEL, Table 13-6, access RO. -/
abbrev Reg.SKN_Qn_LEVEL (i : Nat) : Nat := 0x400E1010 + 0x20 * i
/-- SKN_Qn_THRESH, Table 13-6, access RW. -/
abbrev Reg.SKN_Qn_THRESH (i : Nat) : Nat := 0x400E1014 + 0x20 * i
/-- SKN_Qn_LOST, Table 13-6, access RO. -/
abbrev Reg.SKN_Qn_LOST (i : Nat) : Nat := 0x400E1018 + 0x20 * i
/-- SKN_Qn_UNDERFLOW, Table 13-6, access RO. -/
abbrev Reg.SKN_Qn_UNDERFLOW (i : Nat) : Nat := 0x400E101C + 0x20 * i
/-- SKN_Qn_PUSHx, Table 13-6, access WO. -/
abbrev Reg.SKN_Qn_PUSHx (i j : Nat) : Nat := 0x400E4000 + 0x40 * i + 0x4 * j
/-- SKN_Qn_POPx, Table 13-6, access RO. -/
abbrev Reg.SKN_Qn_POPx (i j : Nat) : Nat := 0x400E4010 + 0x40 * i + 0x4 * j
/-- SKN_Qn_FLAGS, Table 13-6, access RO. -/
abbrev Reg.SKN_Qn_FLAGS (i : Nat) : Nat := 0x400E4020 + 0x40 * i
/-- CRC_CTRL, Table 13-9, access RW. -/
abbrev Reg.CRC_CTRL : Nat := 0x400F0000
/-- CRC_INT_STATUS, Table 13-9, access W1C. -/
abbrev Reg.CRC_INT_STATUS : Nat := 0x400F0008
/-- CRC_INT_ENABLE, Table 13-9, access RW. -/
abbrev Reg.CRC_INT_ENABLE : Nat := 0x400F000C
/-- CRC_n_CFG, Table 13-9, access RW. -/
abbrev Reg.CRC_n_CFG (i : Nat) : Nat := 0x400F1000 + 0x80 * i
/-- CRC_n_SRC, Table 13-9, access RW. -/
abbrev Reg.CRC_n_SRC (i : Nat) : Nat := 0x400F1004 + 0x80 * i
/-- CRC_n_FILTER, Table 13-9, access RW. -/
abbrev Reg.CRC_n_FILTER (i : Nat) : Nat := 0x400F1008 + 0x80 * i
/-- CRC_n_COUNT, Table 13-9, access RW. -/
abbrev Reg.CRC_n_COUNT (i : Nat) : Nat := 0x400F100C + 0x80 * i
/-- CRC_n_POLY_LO, Table 13-9, access RW. -/
abbrev Reg.CRC_n_POLY_LO (i : Nat) : Nat := 0x400F1010 + 0x80 * i
/-- CRC_n_POLY_HI, Table 13-9, access RW. -/
abbrev Reg.CRC_n_POLY_HI (i : Nat) : Nat := 0x400F1014 + 0x80 * i
/-- CRC_n_INIT_LO, Table 13-9, access RW. -/
abbrev Reg.CRC_n_INIT_LO (i : Nat) : Nat := 0x400F1018 + 0x80 * i
/-- CRC_n_INIT_HI, Table 13-9, access RW. -/
abbrev Reg.CRC_n_INIT_HI (i : Nat) : Nat := 0x400F101C + 0x80 * i
/-- CRC_n_XOROUT_LO, Table 13-9, access RW. -/
abbrev Reg.CRC_n_XOROUT_LO (i : Nat) : Nat := 0x400F1020 + 0x80 * i
/-- CRC_n_XOROUT_HI, Table 13-9, access RW. -/
abbrev Reg.CRC_n_XOROUT_HI (i : Nat) : Nat := 0x400F1024 + 0x80 * i
/-- CRC_n_VALUE_LO, Table 13-9, access RW. -/
abbrev Reg.CRC_n_VALUE_LO (i : Nat) : Nat := 0x400F1028 + 0x80 * i
/-- CRC_n_VALUE_HI, Table 13-9, access RW. -/
abbrev Reg.CRC_n_VALUE_HI (i : Nat) : Nat := 0x400F102C + 0x80 * i
/-- CRC_n_EXPECT_LO, Table 13-9, access RW. -/
abbrev Reg.CRC_n_EXPECT_LO (i : Nat) : Nat := 0x400F1030 + 0x80 * i
/-- CRC_n_EXPECT_HI, Table 13-9, access RW. -/
abbrev Reg.CRC_n_EXPECT_HI (i : Nat) : Nat := 0x400F1034 + 0x80 * i
/-- CRC_n_RESULT_LO, Table 13-9, access RO. -/
abbrev Reg.CRC_n_RESULT_LO (i : Nat) : Nat := 0x400F1038 + 0x80 * i
/-- CRC_n_RESULT_HI, Table 13-9, access RO. -/
abbrev Reg.CRC_n_RESULT_HI (i : Nat) : Nat := 0x400F103C + 0x80 * i
/-- CRC_n_CMD, Table 13-9, access WO. -/
abbrev Reg.CRC_n_CMD (i : Nat) : Nat := 0x400F1040 + 0x80 * i
/-- CRC_n_STATUS, Table 13-9, access RO. -/
abbrev Reg.CRC_n_STATUS (i : Nat) : Nat := 0x400F1044 + 0x80 * i
/-- CRC_n_UNITS, Table 13-9, access RO. -/
abbrev Reg.CRC_n_UNITS (i : Nat) : Nat := 0x400F1048 + 0x80 * i
/-- CRC_n_MISMATCHES, Table 13-9, access RO. -/
abbrev Reg.CRC_n_MISMATCHES (i : Nat) : Nat := 0x400F104C + 0x80 * i
/-- CRC_n_BYTES, Table 13-9, access RO. -/
abbrev Reg.CRC_n_BYTES (i : Nat) : Nat := 0x400F1050 + 0x80 * i
/-- RST_CTRL, Table 14-8, access RW. -/
abbrev Reg.RST_CTRL : Nat := 0x40010000
/-- RST_CAUSE, Table 14-8, access RO. -/
abbrev Reg.RST_CAUSE : Nat := 0x40010004
/-- RST_INT_STATUS, Table 14-8, access W1C. -/
abbrev Reg.RST_INT_STATUS : Nat := 0x40010008
/-- RST_INT_ENABLE, Table 14-8, access RW. -/
abbrev Reg.RST_INT_ENABLE : Nat := 0x4001000C
/-- RST_DOMAIN, Table 14-8, access WO. -/
abbrev Reg.RST_DOMAIN : Nat := 0x40010010
/-- RST_STATUS, Table 14-8, access RO. -/
abbrev Reg.RST_STATUS : Nat := 0x40010014
/-- RST_WDTc_CTRL, Table 14-8, access RW. -/
abbrev Reg.RST_WDTc_CTRL (i : Nat) : Nat := 0x40010020 + 0x10 * i
/-- RST_WDTc_KICK, Table 14-8, access WO. -/
abbrev Reg.RST_WDTc_KICK (i : Nat) : Nat := 0x40010024 + 0x10 * i
/-- RST_WDTc_REMAIN, Table 14-8, access RO. -/
abbrev Reg.RST_WDTc_REMAIN (i : Nat) : Nat := 0x40010028 + 0x10 * i
/-- RST_WDTHW_CTRL, Table 14-8, access RW. -/
abbrev Reg.RST_WDTHW_CTRL : Nat := 0x40010040
/-- RST_WDTHW_KICK, Table 14-8, access WO. -/
abbrev Reg.RST_WDTHW_KICK : Nat := 0x40010044
/-- RST_WDTHW_REMAIN, Table 14-8, access RO. -/
abbrev Reg.RST_WDTHW_REMAIN : Nat := 0x40010048
/-- RST_WDT_BADKICK, Table 14-8, access RW. -/
abbrev Reg.RST_WDT_BADKICK : Nat := 0x4001004C
/-- RST_RFRAME_CTRL, Table 14-8, access RW. -/
abbrev Reg.RST_RFRAME_CTRL : Nat := 0x40010100
/-- RST_RFRAME_ID, Table 14-8, access RW. -/
abbrev Reg.RST_RFRAME_ID : Nat := 0x40010104
/-- RST_RFRAME_COUNT_LO, Table 14-8, access RW. -/
abbrev Reg.RST_RFRAME_COUNT_LO : Nat := 0x40010108
/-- RST_RFRAME_COUNT_HI, Table 14-8, access RW. -/
abbrev Reg.RST_RFRAME_COUNT_HI : Nat := 0x4001010C
/-- RST_RFRAME_ACCEPT, Table 14-8, access RW. -/
abbrev Reg.RST_RFRAME_ACCEPT : Nat := 0x40010110
/-- RST_RFRAME_REJECT, Table 14-8, access RW. -/
abbrev Reg.RST_RFRAME_REJECT : Nat := 0x40010114
/-- RST_RFRAME_LASTREJ, Table 14-8, access RO. -/
abbrev Reg.RST_RFRAME_LASTREJ : Nat := 0x40010118
/-- PWR_CTRL, Table 14-8, access RW. -/
abbrev Reg.PWR_CTRL : Nat := 0x40010200
/-- PWR_STATUS, Table 14-8, access RO. -/
abbrev Reg.PWR_STATUS : Nat := 0x40010204
/-- PWR_DOMAIN, Table 14-8, access RW. -/
abbrev Reg.PWR_DOMAIN : Nat := 0x40010208
/-- PWR_RAIL, Table 14-8, access RO. -/
abbrev Reg.PWR_RAIL : Nat := 0x4001020C
/-- PWR_SEQ, Table 14-8, access RW. -/
abbrev Reg.PWR_SEQ : Nat := 0x40010210
/-- PWR_TJ, Table 14-8, access RO. -/
abbrev Reg.PWR_TJ : Nat := 0x40010214
/-- PWR_TJ_WARN, Table 14-8, access RW. -/
abbrev Reg.PWR_TJ_WARN : Nat := 0x40010218
/-- OPT_STATUS, Table 14-8, access RO, W1C. -/
abbrev Reg.OPT_STATUS : Nat := 0x40010400
/-- OPT_RESTARTS, Table 14-8, access RO. -/
abbrev Reg.OPT_RESTARTS : Nat := 0x40010404
/-- OPT_PCI_IDS, Table 14-8, access RO. -/
abbrev Reg.OPT_PCI_IDS : Nat := 0x40010408
/-- OPT_TRUNK_DEF, Table 14-8, access RO. -/
abbrev Reg.OPT_TRUNK_DEF : Nat := 0x4001040C
/-- OPT_FLAGS, Table 14-8, access RO. -/
abbrev Reg.OPT_FLAGS : Nat := 0x40010410
/-- BKP_CTRL, Table 14-8, access WO. -/
abbrev Reg.BKP_CTRL : Nat := 0x40010600
/-- FWU_CTRL, Table 15-15, access RW. -/
abbrev Reg.FWU_CTRL : Nat := 0x40110000
/-- FWU_STATUS, Table 15-15, access RO. -/
abbrev Reg.FWU_STATUS : Nat := 0x40110004
/-- FWU_INT_STATUS, Table 15-15, access W1C. -/
abbrev Reg.FWU_INT_STATUS : Nat := 0x40110008
/-- FWU_INT_ENABLE, Table 15-15, access RW. -/
abbrev Reg.FWU_INT_ENABLE : Nat := 0x4011000C
/-- FWU_COPY_SRC, Table 15-15, access RW. -/
abbrev Reg.FWU_COPY_SRC : Nat := 0x40110010
/-- FWU_COPY_LEN, Table 15-15, access RW. -/
abbrev Reg.FWU_COPY_LEN : Nat := 0x40110014
/-- FWU_COPY_HASHx, Table 15-15, access RW. -/
abbrev Reg.FWU_COPY_HASHx (j : Nat) : Nat := 0x40110018 + 0x4 * j
/-- FWU_RESUME_ADDR, Table 15-15, access RW. -/
abbrev Reg.FWU_RESUME_ADDR : Nat := 0x40110048
/-- FWU_ENTRY_ADDR, Table 15-15, access RW. -/
abbrev Reg.FWU_ENTRY_ADDR : Nat := 0x4011004C
/-- FWU_HO_TIMEOUT, Table 15-15, access RW. -/
abbrev Reg.FWU_HO_TIMEOUT : Nat := 0x40110050
/-- FWU_REC_ADDR, Table 15-15, access RW. -/
abbrev Reg.FWU_REC_ADDR : Nat := 0x40110054
/-- FWU_PROB_REMAIN, Table 15-15, access RW. -/
abbrev Reg.FWU_PROB_REMAIN : Nat := 0x40110058
/-- FWU_LC, Table 15-15, access RO. -/
abbrev Reg.FWU_LC : Nat := 0x4011005C
/-- FWU_LC_CMD, Table 15-15, access WO. -/
abbrev Reg.FWU_LC_CMD : Nat := 0x40110060
/-- FWU_ROLLBACK, Table 15-15, access RO. -/
abbrev Reg.FWU_ROLLBACK : Nat := 0x40110064
/-- FWU_ROLLBACK_SET, Table 15-15, access WO. -/
abbrev Reg.FWU_ROLLBACK_SET : Nat := 0x40110068
/-- FWU_OTP_KEYS, Table 15-15, access RO. -/
abbrev Reg.FWU_OTP_KEYS : Nat := 0x4011006C
/-- FWU_OTP_REVOKE, Table 15-15, access WO. -/
abbrev Reg.FWU_OTP_REVOKE : Nat := 0x40110070
/-- FWU_DBG_CHALLENGEx, Table 15-15, access RO. -/
abbrev Reg.FWU_DBG_CHALLENGEx (j : Nat) : Nat := 0x40110080 + 0x4 * j
/-- FWU_TOKEN_x, Table 15-15, access WO. -/
abbrev Reg.FWU_TOKEN_x (j : Nat) : Nat := 0x40110090 + 0x4 * j
/-- FWU_TOKEN_CMD, Table 15-15, access WO. -/
abbrev Reg.FWU_TOKEN_CMD : Nat := 0x401100F4
/-- FWU_TOKEN_STATUS, Table 15-15, access RO. -/
abbrev Reg.FWU_TOKEN_STATUS : Nat := 0x401100F8
/-- FWU_CART_x, Table 15-15, access RO. -/
abbrev Reg.FWU_CART_x (j : Nat) : Nat := 0x40110100 + 0x4 * j
/-- FWU_KEY_CMD, Table 15-15, access WO. -/
abbrev Reg.FWU_KEY_CMD : Nat := 0x40110200
/-- FWU_KEY_STATUS, Table 15-15, access RO. -/
abbrev Reg.FWU_KEY_STATUS : Nat := 0x40110204
/-- FWU_KEY_DATAx, Table 15-15, access WO. -/
abbrev Reg.FWU_KEY_DATAx (j : Nat) : Nat := 0x40110208 + 0x4 * j
/-- FWU_KEY_WRAPx, Table 15-15, access RO. -/
abbrev Reg.FWU_KEY_WRAPx (j : Nat) : Nat := 0x40110220 + 0x4 * j
/-- FWU_REC_CMD, Table 15-15, access WO. -/
abbrev Reg.FWU_REC_CMD : Nat := 0x40110300
/-- FWU_REC_LEN, Table 15-15, access RW. -/
abbrev Reg.FWU_REC_LEN : Nat := 0x40110304
/-- FWU_REC_STATUS, Table 15-15, access RO. -/
abbrev Reg.FWU_REC_STATUS : Nat := 0x40110308
/-- FWU_REC_IP, Table 15-15, access RO. -/
abbrev Reg.FWU_REC_IP : Nat := 0x4011030C
/-- LOG_CTRL, Table 15-17, access RW. -/
abbrev Reg.LOG_CTRL : Nat := 0x40130000
/-- LOG_STATUS, Table 15-17, access RO. -/
abbrev Reg.LOG_STATUS : Nat := 0x40130004
/-- LOG_INT_STATUS, Table 15-17, access W1C. -/
abbrev Reg.LOG_INT_STATUS : Nat := 0x40130008
/-- LOG_INT_ENABLE, Table 15-17, access RW. -/
abbrev Reg.LOG_INT_ENABLE : Nat := 0x4013000C
/-- LOG_FLUSH_MIN, Table 15-17, access RW. -/
abbrev Reg.LOG_FLUSH_MIN : Nat := 0x40130010
/-- LOG_CORE_S, Table 15-17, access RO. -/
abbrev Reg.LOG_CORE_S : Nat := 0x40130014
/-- LOG_DORMANT_S, Table 15-17, access RO. -/
abbrev Reg.LOG_DORMANT_S : Nat := 0x40130018
/-- LOG_TJ_k, Table 15-17, access RO. -/
abbrev Reg.LOG_TJ_k (i : Nat) : Nat := 0x40130040 + 0x4 * i
/-- LOG_RAILr_b, Table 15-17, access RO. -/
abbrev Reg.LOG_RAILr_b (i j : Nat) : Nat := 0x40130100 + 0x10 * i + 0x4 * j
/-- LOG_RESET_c, Table 15-17, access RO. -/
abbrev Reg.LOG_RESET_c (i : Nat) : Nat := 0x40130200 + 0x4 * i
/-- LOG_ECC_m, Table 15-17, access RO. -/
abbrev Reg.LOG_ECC_m (i : Nat) : Nat := 0x40130300 + 0x4 * i
/-- CAL_CTRL, Table 16-2, access RW. -/
abbrev Reg.CAL_CTRL : Nat := 0x40100000
/-- CAL_STATUS, Table 16-2, access RO. -/
abbrev Reg.CAL_STATUS : Nat := 0x40100004
/-- CAL_INT_STATUS, Table 16-2, access W1C. -/
abbrev Reg.CAL_INT_STATUS : Nat := 0x40100008
/-- CAL_INT_ENABLE, Table 16-2, access RW. -/
abbrev Reg.CAL_INT_ENABLE : Nat := 0x4010000C
/-- CAL_STATUS_DRV, Table 16-2, access RO. -/
abbrev Reg.CAL_STATUS_DRV : Nat := 0x40100010
/-- CAL_JOB_DROP, Table 16-2, access RO. -/
abbrev Reg.CAL_JOB_DROP : Nat := 0x40100014
/-- CAL_LAST_JOB, Table 16-2, access RO. -/
abbrev Reg.CAL_LAST_JOB : Nat := 0x40100018
/-- CAL_STRn_CFG, Table 16-2, access RW. -/
abbrev Reg.CAL_STRn_CFG (i : Nat) : Nat := 0x40101000 + 0x20 * i
/-- CAL_STRn_GAUGE, Table 16-2, access RO. -/
abbrev Reg.CAL_STRn_GAUGE (i : Nat) : Nat := 0x40101004 + 0x20 * i
/-- CAL_STRn_EYE, Table 16-2, access RO. -/
abbrev Reg.CAL_STRn_EYE (i : Nat) : Nat := 0x40101008 + 0x20 * i
/-- CAL_STRn_RESULT, Table 16-2, access RO. -/
abbrev Reg.CAL_STRn_RESULT (i : Nat) : Nat := 0x4010100C + 0x20 * i
/-- CAL_STRn_AGE_MS, Table 16-2, access RO. -/
abbrev Reg.CAL_STRn_AGE_MS (i : Nat) : Nat := 0x40101010 + 0x20 * i
/-- CAL_STRn_RUNS, Table 16-2, access RO. -/
abbrev Reg.CAL_STRn_RUNS (i : Nat) : Nat := 0x40101014 + 0x20 * i
/-- CAL_STRn_PAUSE_US, Table 16-2, access RO. -/
abbrev Reg.CAL_STRn_PAUSE_US (i : Nat) : Nat := 0x40101018 + 0x20 * i
/-- CAL_STRn_FAILS, Table 16-2, access RO. -/
abbrev Reg.CAL_STRn_FAILS (i : Nat) : Nat := 0x4010101C + 0x20 * i
/-- CAL_DRVc_CFG, Table 16-2, access RW. -/
abbrev Reg.CAL_DRVc_CFG (i : Nat) : Nat := 0x40102000 + 0x20 * i
/-- CAL_DRVc_OFFSET, Table 16-2, access RO. -/
abbrev Reg.CAL_DRVc_OFFSET (i : Nat) : Nat := 0x40102004 + 0x20 * i
/-- CAL_DRVc_CORR, Table 16-2, access RO. -/
abbrev Reg.CAL_DRVc_CORR (i : Nat) : Nat := 0x40102008 + 0x20 * i
/-- CAL_DRVc_GAUGE, Table 16-2, access RO. -/
abbrev Reg.CAL_DRVc_GAUGE (i : Nat) : Nat := 0x4010200C + 0x20 * i
/-- CAL_DRVc_AGE_MS, Table 16-2, access RO. -/
abbrev Reg.CAL_DRVc_AGE_MS (i : Nat) : Nat := 0x40102010 + 0x20 * i
/-- CAL_DRVc_RESULT, Table 16-2, access RO. -/
abbrev Reg.CAL_DRVc_RESULT (i : Nat) : Nat := 0x40102014 + 0x20 * i
/-- CAL_DRVc_INTERRUPTS, Table 16-2, access RO. -/
abbrev Reg.CAL_DRVc_INTERRUPTS (i : Nat) : Nat := 0x40102018 + 0x20 * i
/-- CAL_DRVc_UNSETTLED, Table 16-2, access RO. -/
abbrev Reg.CAL_DRVc_UNSETTLED (i : Nat) : Nat := 0x4010201C + 0x20 * i
/-- CAL_TRKp_EYE, Table 16-2, access RO. -/
abbrev Reg.CAL_TRKp_EYE (i : Nat) : Nat := 0x40103000 + 0x10 * i
/-- CAL_TRKp_AGE_MS, Table 16-2, access RO. -/
abbrev Reg.CAL_TRKp_AGE_MS (i : Nat) : Nat := 0x40103004 + 0x10 * i
/-- SKN_Qn (host window)_PUSHx, Table 13-6, access WO. -/
abbrev Reg.SKN_Hn_PUSHx (i j : Nat) : Nat := 0x400E8000 + 0x40 * i + 0x4 * j
/-- SKN_Qn (host window)_POPx, Table 13-6, access RO. -/
abbrev Reg.SKN_Hn_POPx (i j : Nat) : Nat := 0x400E8010 + 0x40 * i + 0x4 * j
/-- SKN_Qn (host window)_FLAGS, Table 13-6, access RO. -/
abbrev Reg.SKN_Hn_FLAGS (i : Nat) : Nat := 0x400E8020 + 0x40 * i
/-- TRIM_t_CTRL, Table 6-4, access RW. -/
abbrev Reg.TRIM_t_CTRL (i : Nat) : Nat := 0x400A2000 + 0x80 * i
/-- TRIM_t_REF, Table 6-4, access RW. -/
abbrev Reg.TRIM_t_REF (i : Nat) : Nat := 0x400A2004 + 0x80 * i
/-- TRIM_t_GAIN, Table 6-4, access RW. -/
abbrev Reg.TRIM_t_GAIN (i : Nat) : Nat := 0x400A2008 + 0x80 * i
/-- TRIM_t_MINMAX, Table 6-4, access RW. -/
abbrev Reg.TRIM_t_MINMAX (i : Nat) : Nat := 0x400A200C + 0x80 * i
/-- TRIM_t_CH, Table 6-4, access RW. -/
abbrev Reg.TRIM_t_CH (i : Nat) : Nat := 0x400A2010 + 0x80 * i
/-- TRIM_t_K, Table 6-4, access RW. -/
abbrev Reg.TRIM_t_K (i j : Nat) : Nat := 0x400A2014 + 0x80 * i + 0x4 * j
/-- TRIM_t_TRIM, Table 6-4, access RO. -/
abbrev Reg.TRIM_t_TRIM (i j : Nat) : Nat := 0x400A2034 + 0x80 * i + 0x4 * j
/-- TRIM_t_STATUS, Table 6-4, access RO. -/
abbrev Reg.TRIM_t_STATUS (i : Nat) : Nat := 0x400A2044 + 0x80 * i

/-- Rows of the SYS block, part 1. -/
def regRows_sys : List RegRow := [
  row1 "SYS_FAB_CTRL" 0x40000200 .rw 0x4 0x4 0x0,
  row1 "SYS_FAB_GUARD_COUNT" 0x40000204 .ro 0x0 0x0 0x0,
  row1 "SYS_ECC_CE_COUNT" 0x40000208 .ro 0x0 0x0 0x0,
  row1 "SYS_ECC_UE_COUNT" 0x4000020C .ro 0x0 0x0 0x0,
  row1 "SYS_ECC_UE_ADDR" 0x40000210 .ro 0x0 0x0 0x0,
  row1 "SYS_ECC_UE_SRC" 0x40000214 .ro 0x0 0x0 0x0,
  row1 "SYS_FAB_MAXWAIT0" 0x40000220 .ro 0x0 0x0 0x0,
  row1 "SYS_FAB_MAXWAIT1" 0x40000224 .ro 0x0 0x0 0x0,
  row1 "SYS_FAB_MAXWAIT2" 0x40000228 .ro 0x0 0x0 0x0,
  row1 "SYS_FAB_MAXWAIT3" 0x4000022C .ro 0x0 0x0 0x0,
  row1 "SYS_FAB_MAXWAIT4" 0x40000230 .ro 0x0 0x0 0x0,
  row1 "SYS_INT_SUMMARY" 0x40000100 .ro 0x0 0x0 0x0,
  row1 "SYS_INT_STATUS" 0x40000104 .w1c 0x0 0x0 0x3,
  row1 "SYS_INT_ENABLE" 0x40000108 .rw 0x0 0x3 0x0]

/-- Rows of the MER block, part 1. -/
def regRows_mer_p1 : List RegRow := [
  rowN "TBn_CTRL" 0x40020000 0x100 4 .rw 0x0 0x3F 0x0,
  rowN "TBn_STATUS" 0x40020004 0x100 4 .ro 0x0 0x0 0x0,
  rowN "TBn_INT_STATUS" 0x40020008 0x100 4 .w1c 0x0 0x0 0xFF,
  rowN "TBn_INT_ENABLE" 0x4002000C 0x100 4 .rw 0x0 0xFF 0x0,
  rowN "TBn_TIME_SUBNS" 0x40020010 0x100 4 .ro 0x0 0x0 0x0,
  rowN "TBn_TIME_NS" 0x40020014 0x100 4 .ro 0x0 0x0 0x0,
  rowN "TBn_TIME_SEC_LO" 0x40020018 0x100 4 .ro 0x0 0x0 0x0,
  rowN "TBn_TIME_SEC_HI" 0x4002001C 0x100 4 .ro 0x0 0x0 0x0,
  rowN "TBn_SET_SUBNS" 0x40020020 0x100 4 .rw 0x0 0xFFFF 0x0,
  rowN "TBn_SET_NS" 0x40020024 0x100 4 .rw 0x0 0x3FFFFFFF 0x0,
  rowN "TBn_SET_SEC_LO" 0x40020028 0x100 4 .rw 0x0 0xFFFFFFFF 0x0,
  rowN "TBn_SET_SEC_HI" 0x4002002C 0x100 4 .rw 0x0 0xFFFF 0x0,
  rowN "TBn_STEP_LO" 0x40020030 0x100 4 .rw 0x0 0xFFFFFFFF 0x0,
  rowN "TBn_STEP_HI" 0x40020034 0x100 4 .rw 0x0 0xFFFFFFFF 0x0,
  rowN "TBn_OFS_LO" 0x40020038 0x100 4 .wo 0x0 0x0 0x0,
  rowN "TBn_OFS_HI" 0x4002003C 0x100 4 .wo 0x0 0x0 0x0,
  rowN "TBn_FREQ" 0x40020040 0x100 4 .ro 0x0 0x0 0x0,
  rowN "TBn_FREQ_SET" 0x40020044 0x100 4 .rw 0x0 0xFFFFFFFF 0x0,
  rowN "TBn_FREQ_LIMIT" 0x40020048 0x100 4 .rw 0x30D4000 0xFFFFFFFF 0x0,
  rowN "TBn_KP_ACQ" 0x4002004C 0x100 4 .rw 0xB333 0xFFFFFFFF 0x0,
  rowN "TBn_KI_ACQ" 0x40020050 0x100 4 .rw 0x4CCD 0xFFFFFFFF 0x0,
  rowN "TBn_KP_LOCK" 0x40020054 0x100 4 .rw 0x199A 0xFFFFFFFF 0x0,
  rowN "TBn_KI_LOCK" 0x40020058 0x100 4 .rw 0x148 0xFFFFFFFF 0x0,
  rowN "TBn_JUMP_LIMIT" 0x4002005C 0x100 4 .rw 0x3E8 0xFFFFFFFF 0x0,
  rowN "TBn_LOCK_THRESH" 0x40020060 0x100 4 .rw 0x64 0xFFFFFFFF 0x0,
  rowN "TBn_LOCK_COUNT" 0x40020064 0x100 4 .rw 0x8 0xFF 0x0,
  rowN "TBn_SAMPLE_TIMEOUT" 0x40020068 0x100 4 .rw 0x3E8 0xFFFFFFFF 0x0,
  rowN "TBn_PPS_DELAY" 0x4002006C 0x100 4 .rw 0x0 0xFFFFFFFF 0x0,
  rowN "TBn_LAST_OFS_LO" 0x40020070 0x100 4 .ro 0x0 0x0 0x0,
  rowN "TBn_LAST_OFS_HI" 0x40020074 0x100 4 .ro 0x0 0x0 0x0,
  rowN "TBn_LAST_REFUSED_LO" 0x40020078 0x100 4 .ro 0x0 0x0 0x0,
  rowN "TBn_LAST_REFUSED_HI" 0x4002007C 0x100 4 .ro 0x0 0x0 0x0,
  rowN "TBn_SAMPLE_COUNT" 0x40020080 0x100 4 .ro 0x0 0x0 0x0,
  rowN "TBn_JUMP_COUNT" 0x40020084 0x100 4 .ro 0x0 0x0 0x0,
  rowN "TBn_STEP_COUNT" 0x40020088 0x100 4 .ro 0x0 0x0 0x0,
  rowN "TBn_HOLDOVER_MS" 0x4002008C 0x100 4 .ro 0x0 0x0 0x0,
  row1 "TB0_PAIR_CTRL" 0x40020400 .rw 0x0 0x7 0x0,
  row1 "TB0_PAIR_STATUS" 0x40020404 .ro 0x0 0x0 0x0,
  row1 "TB0_PAIR_DIFF_LO" 0x40020408 .ro 0x0 0x0 0x0,
  row1 "TB0_PAIR_DIFF_HI" 0x4002040C .ro 0x0 0x0 0x0]

/-- Rows of the MER block, part 2. -/
def regRows_mer_p2 : List RegRow := [
  row1 "TB0_PAIR_DSW_LO" 0x40020410 .ro 0x0 0x0 0x0,
  row1 "TB0_PAIR_DSW_HI" 0x40020414 .ro 0x0 0x0 0x0,
  row1 "TB0_PAIR_SWITCH_COUNT" 0x40020418 .ro 0x0 0x0 0x0,
  row1 "TB0_PAIR_DISCARD_COUNT" 0x4002041C .ro 0x0 0x0 0x0,
  rowN "MERm_CTRL" 0x40020800 0x200 2 .rw 0x20 0xF7 0x0,
  rowN "MERm_STATUS" 0x40020804 0x200 2 .ro 0x0 0x0 0x0,
  rowN "MERm_INT_STATUS" 0x40020808 0x200 2 .w1c 0x0 0x0 0x1FFF,
  rowN "MERm_INT_ENABLE" 0x4002080C 0x200 2 .rw 0x0 0x1FFF 0x0,
  rowNM "MERm_POS_x" 0x40020810 0x200 2 0x4 8 .ro 0x0 0x0 0x0,
  rowN "MERm_FREQ" 0x40020830 0x200 2 .ro 0x0 0x0 0x0,
  rowN "MERm_LAST_ERR" 0x40020834 0x200 2 .ro 0x0 0x0 0x0,
  rowN "MERm_GAP_US" 0x40020838 0x200 2 .ro 0x0 0x0 0x0,
  rowN "MERm_SLEW_REMAIN" 0x4002083C 0x200 2 .ro 0x0 0x0 0x0,
  rowN "MERm_EDGE_COUNT" 0x40020840 0x200 2 .ro 0x0 0x0 0x0,
  rowN "MERm_MISS_COUNT" 0x40020844 0x200 2 .ro 0x0 0x0 0x0,
  rowN "MERm_JUMP_COUNT" 0x40020848 0x200 2 .ro 0x0 0x0 0x0,
  rowN "MERm_HOLDOVER_MS" 0x4002084C 0x200 2 .ro 0x0 0x0 0x0,
  rowN "MERm_TC_VALUE" 0x40020850 0x200 2 .ro 0x0 0x0 0x0,
  rowN "MERm_MAINS_MHZ" 0x40020854 0x200 2 .ro 0x0 0x0 0x0,
  rowN "MERm_BEARING_LATE_COUNT" 0x40020858 0x200 2 .ro 0x0 0x0 0x0,
  rowN "MERm_KP_ACQ" 0x40020880 0x200 2 .rw 0x8000 0xFFFFFFFF 0x0,
  rowN "MERm_KI_ACQ" 0x40020884 0x200 2 .rw 0x199A 0xFFFFFFFF 0x0,
  rowN "MERm_KP_LOCK" 0x40020888 0x200 2 .rw 0x199A 0xFFFFFFFF 0x0,
  rowN "MERm_KI_LOCK" 0x4002088C 0x200 2 .rw 0x148 0xFFFFFFFF 0x0,
  rowN "MERm_FREQ_LIMIT" 0x40020890 0x200 2 .rw 0xC3500 0xFFFFFFFF 0x0,
  rowN "MERm_LOCK_THRESH" 0x40020894 0x200 2 .rw 0x64 0xFFFFFFFF 0x0,
  rowN "MERm_LOCK_COUNT" 0x40020898 0x200 2 .rw 0x10 0xFF 0x0,
  rowN "MERm_MISS_LIMIT" 0x4002089C 0x200 2 .rw 0x4 0xFF 0x0,
  rowN "MERm_DECIM" 0x400208A0 0x200 2 .rw 0x1 0xFF 0x0,
  rowN "MERm_STEP_LIMIT" 0x400208A4 0x200 2 .rw 0xA 0xFFFFFFFF 0x0,
  rowN "MERm_SLEW_RATE" 0x400208A8 0x200 2 .rw 0x3E8 0xFFFFFFFF 0x0,
  rowN "MERm_JUMP_THRESH" 0x400208AC 0x200 2 .rw 0x0 0xFFFF 0x0,
  rowN "MERm_MAINS_SLEW" 0x400208B0 0x200 2 .rw 0x1F4 0xFFFFFFFF 0x0,
  rowN "MERm_BEARING_TIMEOUT" 0x400208B4 0x200 2 .rw 0x1F4 0xFFFFFFFF 0x0,
  rowN "MERm_EDGE_DELAY" 0x400208B8 0x200 2 .rw 0x0 0xFFFFFFFF 0x0,
  rowN "MERm_STAGE_SRC" 0x40020900 0x200 2 .rwc 0x0 0xFF7 0x0,
  rowN "MERm_STAGE_LAYOUT" 0x40020904 0x200 2 .rwc 0x11000 0x7FFFFF 0x0,
  rowN "MERm_STAGE_PERIOD_LO" 0x40020908 0x200 2 .rwc 0x0 0xFFFFFFFF 0x0,
  rowN "MERm_STAGE_PERIOD_HI" 0x4002090C 0x200 2 .rwc 0x3E8 0xFFFFFFFF 0x0,
  rowN "MERm_STAGE_PARAM" 0x40020910 0x200 2 .rwc 0x0 0xFFFF 0x0]

/-- Rows of the MER block, part 3. -/
def regRows_mer_p3 : List RegRow := [
  rowN "MERm_STAGE_RATE_NUM" 0x40020914 0x200 2 .rwc 0x0 0xFFFFFFFF 0x0,
  rowN "MERm_STAGE_RATE_DEN" 0x40020918 0x200 2 .rwc 0x1 0xFFFF 0x0,
  rowN "MERm_STAGE_ANCHOR_NS" 0x40020920 0x200 2 .rwc 0x0 0x3FFFFFFF 0x0,
  rowN "MERm_STAGE_ANCHOR_SEC_LO" 0x40020924 0x200 2 .rwc 0x0 0xFFFFFFFF 0x0,
  rowN "MERm_STAGE_ANCHOR_SEC_HI" 0x40020928 0x200 2 .rwc 0x0 0xFFFF 0x0,
  rowNM "MERm_STAGE_SHUTx" 0x40020940 0x200 2 0x4 8 .rwc 0x0 0xFFFFFFFF 0x0,
  rowNM "MERm_MODEL_x" 0x40020980 0x200 2 0x4 8 .rw 0x0 0xFFFFFFFF 0x0,
  rowNM "MERm_SEG_x" 0x400209A0 0x200 2 0x4 8 .ro 0x0 0x0 0x0,
  row1 "WPT_CTRL" 0x40021000 .rw 0x0 0x1 0x0,
  row1 "WPT_STATUS" 0x40021004 .ro 0x0 0x0 0x0,
  row1 "WPT_INT_STATUS" 0x40021008 .w1c 0x0 0x0 0x1F,
  row1 "WPT_INT_ENABLE" 0x4002100C .rw 0x0 0x1F 0x0,
  row1 "WPT_INDEX" 0x40021010 .rw 0x0 0x3FF 0x0,
  row1 "WPT_CMD" 0x40021014 .wo 0x0 0x0 0x0,
  rowNM "WPT_ENTRYx" 0x40021018 0x0 1 0x4 4 .rw 0x0 0xFFFFFFFF 0x0,
  row1 "WPT_MISSED_COUNT" 0x40021028 .rw 0x0 0xFFFFFFFF 0x0,
  row1 "WPT_LATE_COUNT" 0x4002102C .rw 0x0 0xFFFFFFFF 0x0,
  row1 "WPT_DEFER_COUNT" 0x40021030 .rw 0x0 0xFFFFFFFF 0x0,
  row1 "WPT_FIRE_TAG" 0x40021034 .ro 0x0 0x0 0x0,
  row1 "WPT_LAST_MISSED" 0x40021038 .ro 0x0 0x0 0x0,
  rowN "EVT_OUTk_CTRL" 0x40021800 0x10 8 .rw 0x0 0xFFFFFF07 0x0,
  rowN "EVT_OUTk_COUNT" 0x40021804 0x10 8 .rw 0x0 0xFFFFFFFF 0x0,
  row1 "EVT_PPS_CTRL" 0x40021880 .rw 0x0 0xFFFFFF07 0x0,
  rowN "EVT_INj_CTRL" 0x40021900 0x40 4 .rw 0x0 0x3F 0x0,
  rowN "EVT_INj_STATUS" 0x40021904 0x40 4 .ro 0x0 0x0 0x100,
  rowN "EVT_INj_LOST" 0x40021908 0x40 4 .rw 0x0 0xFFFFFFFF 0x0,
  rowNM "EVT_INj_Fx" 0x40021910 0x40 4 0x4 6 .ro 0x0 0x0 0x0,
  row1 "EVT_INT_STATUS" 0x40021A00 .w1c 0x0 0x0 0xFFFFFF,
  row1 "EVT_INT_ENABLE" 0x40021A04 .rw 0x0 0xFFFFFF 0x0]

/-- Rows of the MER block. -/
def regRows_mer : List RegRow := regRows_mer_p1 ++ regRows_mer_p2 ++ regRows_mer_p3

/-- Rows of the TRUNK block, part 1. -/
def regRows_trunk_p1 : List RegRow := [
  rowN "TRK_Pp_TSQ_CTRL" 0x4005F000 0x40 4 .rw 0x0 0x7 0x0,
  rowN "TRK_Pp_TSQ_STATUS" 0x4005F004 0x40 4 .ro 0x0 0x0 0x100,
  rowN "TRK_Pp_TSQ_LOST" 0x4005F008 0x40 4 .ro 0x0 0x0 0x0,
  rowN "TRK_Pp_TSQ_FIRSTLOST" 0x4005F00C 0x40 4 .ro 0x0 0x0 0x0,
  rowNM "TRK_Pp_TSQ_Wx" 0x4005F010 0x40 4 0x4 4 .ro 0x0 0x0 0x0,
  rowN "TRK_Pp_TSQ_RX_ADJ" 0x4005F020 0x40 4 .rw 0x0 0xFFFF 0x0,
  rowN "TRK_Pp_TSQ_TX_ADJ" 0x4005F024 0x40 4 .rw 0x0 0xFFFF 0x0,
  rowN "TRK_Pp_TC_LINKDELAY" 0x4005F028 0x40 4 .rw 0x0 0xFFFFFFFF 0x0,
  row1 "TRK_TC_CTRL" 0x4005F100 .rw 0x0 0xF 0x0,
  row1 "TRK_SYNCE_CTRL" 0x4005F200 .rw 0x0 0x3FF 0x0,
  row1 "TRK_SYNCE_STATUS" 0x4005F204 .ro 0x0 0x0 0x0,
  row1 "TRK_SYNCE_FREQ" 0x4005F208 .ro 0x0 0x0 0x0,
  row1 "TRK_SYNCE_SWITCH_COUNT" 0x4005F20C .ro 0x0 0x0 0x0,
  rowN "E131_RX_MAPi" 0x4005C000 0x4 1024 .rw 0x0 0x3FFFF 0x0,
  row1 "E131_CTRL" 0x4005E000 .rw 0x0 0x3 0x0,
  row1 "E131_INT_STATUS" 0x4005E008 .w1c 0x0 0x0 0xF,
  row1 "E131_INT_ENABLE" 0x4005E00C .rw 0x0 0xF 0x0,
  row1 "E131_RX_BASE" 0x4005E010 .rw 0x0 0xFFFFFFFF 0x0,
  row1 "E131_TX_BASE" 0x4005E014 .rw 0x0 0xFFFFFFFF 0x0,
  row1 "E131_TX_TABLE" 0x4005E018 .rw 0x0 0xFFFFFFFF 0x0,
  row1 "E131_TX_COUNT" 0x4005E01C .rw 0x0 0xFFF 0x0,
  row1 "E131_TX_FDIV" 0x4005E020 .rw 0x1 0xFF 0x0,
  row1 "E131_TX_SRC_IP" 0x4005E024 .rw 0x0 0xFFFFFFFF 0x0,
  row1 "E131_TX_SRC_MAC_LO" 0x4005E028 .rw 0x0 0xFFFFFFFF 0x0,
  row1 "E131_TX_SRC_MAC_HI" 0x4005E02C .rw 0x0 0xFFFF 0x0,
  rowNM "E131_CIDx" 0x4005E030 0x0 1 0x4 4 .rw 0x0 0xFFFFFFFF 0x0,
  row1 "E131_NAME_ADDR" 0x4005E040 .rw 0x0 0xFFFFFFFF 0x0,
  row1 "E131_RX_RING" 0x4005E044 .rw 0x0 0xF 0x0,
  row1 "E131_SYNC_TIMEOUT" 0x4005E048 .rw 0x9C4 0xFFFFFFFF 0x0,
  row1 "E131_LOSS_TIMEOUT" 0x4005E04C .rw 0x9C4 0xFFFFFFFF 0x0,
  row1 "E131_TX_VLAN" 0x4005E050 .rw 0x0 0xFFFF 0x0,
  row1 "E131_TX_DSCP" 0x4005E054 .rw 0x0 0x3F 0x0,
  row1 "E131_RX_PKTS" 0x4005E100 .ro 0x0 0x0 0x0,
  row1 "E131_RX_DROP" 0x4005E104 .ro 0x0 0x0 0x0,
  row1 "E131_RX_SEQ_DROP" 0x4005E108 .ro 0x0 0x0 0x0,
  row1 "E131_RX_SRC_DROP" 0x4005E10C .ro 0x0 0x0 0x0,
  row1 "E131_TX_PKTS" 0x4005E110 .ro 0x0 0x0 0x0,
  row1 "E131_TX_SKIP" 0x4005E114 .ro 0x0 0x0 0x0,
  row1 "E131_SYNC_RX" 0x4005E118 .ro 0x0 0x0 0x0,
  row1 "E131_SYNC_TX" 0x4005E11C .ro 0x0 0x0 0x0]

/-- Rows of the TRUNK block, part 2. -/
def regRows_trunk_p2 : List RegRow := [
  rowNM "E131_RX_LOSSx" 0x4005E200 0x0 1 0x4 32 .ro 0x0 0x0 0x0,
  row1 "TRK_CTRL" 0x40040000 .rw 0x6 0xF 0x0,
  row1 "TRK_STATUS" 0x40040004 .ro 0x0 0x0 0x0,
  row1 "TRK_INT_STATUS" 0x40040008 .w1c 0x0 0x0 0x1FF,
  row1 "TRK_INT_ENABLE" 0x4004000C .rw 0x0 0x1FF 0x0,
  row1 "TRK_AGE_TIME" 0x40040010 .rw 0x12C 0xFFFF 0x0,
  row1 "TRK_FIX_CTRL" 0x40040014 .rw 0x2201 0x3F01 0x0,
  row1 "TRK_Q_RESERVE" 0x40040018 .rw 0x8000028 0x3FFF00FF 0x0,
  row1 "TRK_TBL_CMD" 0x40040020 .wo 0x0 0x0 0x0,
  row1 "TRK_TBL_DATA0" 0x40040024 .rw 0x0 0xFFFFFFFF 0x0,
  row1 "TRK_TBL_DATA1" 0x40040028 .rw 0x0 0x1FFFFFFF 0x0,
  row1 "TRK_TBL_DATA2" 0x4004002C .rw 0x0 0x31F 0x0,
  row1 "TRK_TBL_STATUS" 0x40040030 .ro 0x0 0x0 0x0,
  row1 "TRK_LEARN_FULL" 0x40040034 .ro 0x0 0x0 0x0,
  row1 "TRK_BUF_FREE" 0x40040038 .ro 0x0 0x0 0x0,
  row1 "TRK_BUF_MIN" 0x4004003C .ro 0x0 0x0 0x0,
  rowN "TRK_STEERk_MATCH" 0x40040100 0x8 16 .rw 0x0 0x7FFFF 0x0,
  rowN "TRK_STEERk_RING" 0x40040104 0x8 16 .rw 0x0 0xF 0x0,
  row1 "TRK_QRING_MAP" 0x40040180 .rw 0x76543210 0xFFFFFFFF 0x0,
  rowN "TRK_RINGi_CTRL" 0x40040200 0x20 2 .rw 0x1F40000 0xFFFF0F3F 0x0,
  rowN "TRK_RINGi_STATUS" 0x40040204 0x20 2 .ro 0x0 0x0 0x0,
  rowN "TRK_RINGi_CHANGES" 0x40040208 0x20 2 .ro 0x0 0x0 0x0,
  rowN "TRK_RINGi_FLUSHES" 0x4004020C 0x20 2 .ro 0x0 0x0 0x0,
  rowN "TRK_RINGi_LINKDOWN_RX" 0x40040210 0x20 2 .ro 0x0 0x0 0x0,
  rowN "TRK_Pp_CTRL" 0x40041000 0x400 4 .rw 0x70 0x7F 0x0,
  rowN "TRK_Pp_STATUS" 0x40041004 0x400 4 .ro 0x0 0x0 0x0,
  rowN "TRK_Pp_INT_STATUS" 0x40041008 0x400 4 .w1c 0x0 0x0 0xFF,
  rowN "TRK_Pp_INT_ENABLE" 0x4004100C 0x400 4 .rw 0x0 0xFF 0x0,
  rowN "TRK_Pp_MAX_LEN" 0x40041010 0x400 4 .rw 0x2400 0x3FFF 0x0,
  rowN "TRK_Pp_CLASS" 0x40041014 0x400 5 .rw 0x0 0x73 0x0,
  rowN "TRK_Pp_PCP_MAP" 0x40041018 0x400 5 .rw 0x76543210 0x77777777 0x0,
  rowN "TRK_Pp_STORM" 0x4004101C 0x400 4 .rw 0x0 0xFFFF 0x0,
  rowNM "TRK_Pp_DSCP_MAPx" 0x40041020 0x400 5 0x4 8 .rw 0x0 0x77777777 0x0,
  rowN "TRK_Pp_SERDES" 0x40041040 0x400 4 .rw 0x140602 0x1F0F0F 0x0,
  rowN "TRK_Pp_RX_FRAMES" 0x40041080 0x400 5 .ro 0x0 0x0 0x0,
  rowN "TRK_Pp_RX_OCTETS_LO" 0x40041084 0x400 5 .ro 0x0 0x0 0x0,
  rowN "TRK_Pp_RX_OCTETS_HI" 0x40041088 0x400 5 .ro 0x0 0x0 0x0,
  rowN "TRK_Pp_RX_FCS_ERR" 0x4004108C 0x400 5 .ro 0x0 0x0 0x0,
  rowN "TRK_Pp_RX_RUNT" 0x40041090 0x400 5 .ro 0x0 0x0 0x0,
  rowN "TRK_Pp_RX_OVERSIZE" 0x40041094 0x400 5 .ro 0x0 0x0 0x0]

/-- Rows of the TRUNK block, part 3. -/
def regRows_trunk_p3 : List RegRow := [
  rowN "TRK_Pp_RX_PAUSE" 0x40041098 0x400 5 .ro 0x0 0x0 0x0,
  rowN "TRK_Pp_RX_STORM_DROP" 0x4004109C 0x400 5 .ro 0x0 0x0 0x0,
  rowN "TRK_Pp_RX_NOCELL" 0x400410A0 0x400 5 .ro 0x0 0x0 0x0,
  rowN "TRK_Pp_RX_FILTERED" 0x400410A4 0x400 5 .ro 0x0 0x0 0x0,
  rowN "TRK_Pp_TX_FRAMES" 0x400410A8 0x400 5 .ro 0x0 0x0 0x0,
  rowN "TRK_Pp_TX_OCTETS_LO" 0x400410AC 0x400 5 .ro 0x0 0x0 0x0,
  rowN "TRK_Pp_TX_OCTETS_HI" 0x400410B0 0x400 5 .ro 0x0 0x0 0x0,
  rowN "TRK_Pp_TX_LINKDROP" 0x400410B4 0x400 5 .ro 0x0 0x0 0x0,
  rowN "TRK_Pp_LINK_DOWN" 0x400410B8 0x400 5 .ro 0x0 0x0 0x0,
  rowN "TRK_Pp_FEC_CORR" 0x400410BC 0x400 5 .ro 0x0 0x0 0x0,
  rowN "TRK_Pp_FEC_UNCORR" 0x400410C0 0x400 5 .ro 0x0 0x0 0x0,
  rowN "TRK_Pp_TC_CORRECTED" 0x400410C4 0x400 5 .ro 0x0 0x0 0x0,
  rowN "TRK_Pp_TX_STOMP" 0x400410C8 0x400 5 .ro 0x0 0x0 0x0,
  rowNM "TRK_Pp_TX_QDROPq" 0x400410E0 0x400 5 0x4 8 .ro 0x0 0x0 0x0,
  rowN "TRK_RXr_CTRL" 0x40043000 0x40 16 .rw 0x0 0x1FF9FFF 0x0,
  rowN "TRK_RXr_BASE_LO" 0x40043004 0x40 16 .rw 0x0 0xFFFFFFFF 0x0,
  rowN "TRK_RXr_BASE_HI" 0x40043008 0x40 16 .rw 0x0 0xFFFFFFFF 0x0,
  rowN "TRK_RXr_HEAD" 0x4004300C 0x40 16 .ro 0x0 0x0 0x0,
  rowN "TRK_RXr_TAIL" 0x40043010 0x40 16 .rw 0x0 0xFFF 0x0,
  rowN "TRK_RXr_COAL" 0x40043014 0x40 16 .rw 0x1 0xFFFF00FF 0x0,
  rowN "TRK_RXr_INT_STATUS" 0x40043018 0x40 16 .w1c 0x0 0x0 0x3,
  rowN "TRK_RXr_INT_ENABLE" 0x4004301C 0x40 16 .rw 0x0 0x3 0x0,
  rowN "TRK_RXr_FRAMES" 0x40043020 0x40 16 .ro 0x0 0x0 0x0,
  rowN "TRK_RXr_NOBUF" 0x40043024 0x40 16 .ro 0x0 0x0 0x0,
  rowN "TRK_TXt_CTRL" 0x40043800 0x40 4 .rw 0x0 0x9FFF 0x0,
  rowN "TRK_TXt_BASE_LO" 0x40043804 0x40 4 .rw 0x0 0xFFFFFFFF 0x0,
  rowN "TRK_TXt_BASE_HI" 0x40043808 0x40 4 .rw 0x0 0xFFFFFFFF 0x0,
  rowN "TRK_TXt_HEAD" 0x4004380C 0x40 4 .ro 0x0 0x0 0x0,
  rowN "TRK_TXt_TAIL" 0x40043810 0x40 4 .rw 0x0 0xFFF 0x0,
  rowN "TRK_TXt_INT_STATUS" 0x40043814 0x40 4 .w1c 0x0 0x0 0x3,
  rowN "TRK_TXt_INT_ENABLE" 0x40043818 0x40 4 .rw 0x0 0x3 0x0,
  rowN "TRK_TXt_FRAMES" 0x4004381C 0x40 4 .ro 0x0 0x0 0x0,
  rowN "TRK_TXt_ERRORS" 0x40043820 0x40 4 .ro 0x0 0x0 0x0]

/-- Rows of the TRUNK block. -/
def regRows_trunk : List RegRow := regRows_trunk_p1 ++ regRows_trunk_p2 ++ regRows_trunk_p3

/-- Rows of the CANVAS block, part 1. -/
def regRows_canvas_p1 : List RegRow := [
  row1 "CNV_CTRL" 0x40060000 .rw 0x20 0xF1 0x0,
  row1 "CNV_STATUS" 0x40060004 .ro 0x0 0x0 0x0,
  row1 "CNV_INT_STATUS" 0x40060008 .w1c 0x0 0x0 0x7FF,
  row1 "CNV_INT_ENABLE" 0x4006000C .rw 0x0 0x7FF 0x0,
  row1 "CNV_NEXT" 0x40060010 .wo 0x0 0x0 0x0,
  row1 "CNV_FLIP_LINE" 0x40060014 .rw 0x0 0xFFFF 0x0,
  row1 "CNV_FLIP_FRAME" 0x40060018 .ro 0x0 0x0 0x0,
  row1 "CNV_LOSS_FRAMES" 0x4006001C .rw 0x4 0xFF 0x0,
  row1 "CNV_STAGE_FORMAT" 0x40060020 .rwc 0x0 0x7F 0x0,
  row1 "CNV_STAGE_RASTER" 0x40060024 .rwc 0x0 0x1FFF1FFF 0x0,
  row1 "CNV_STAGE_ORIGIN" 0x40060028 .rwc 0x0 0x1FFF1FFF 0x0,
  row1 "CNV_STAGE_SIZE" 0x4006002C .rwc 0x0 0x1FFF1FFF 0x0,
  row1 "CNV_FORMAT" 0x40060030 .ro 0x0 0x0 0x0,
  row1 "CNV_RASTER" 0x40060034 .ro 0x0 0x0 0x0,
  row1 "CNV_ORIGIN" 0x40060038 .ro 0x0 0x0 0x0,
  row1 "CNV_SIZE" 0x4006003C .ro 0x0 0x0 0x0,
  row1 "CNV_PITCH_Y" 0x40060040 .ro 0x0 0x0 0x0,
  row1 "CNV_PITCH_C" 0x40060044 .ro 0x0 0x0 0x0,
  row1 "CNV_FRAME_BYTES" 0x40060048 .ro 0x0 0x0 0x0,
  row1 "CNV_SRC_FRAME" 0x4006004C .ro 0x0 0x0 0x0,
  row1 "CNV_BG" 0x40060050 .rw 0x20080040 0x3FFFFFFF 0x0,
  row1 "CNV_MERGE_WAIT" 0x40060054 .rw 0x3E8 0xFFFF 0x0,
  row1 "CNV_RX_CTRL" 0x40060060 .rw 0x0 0x7FFF 0x0,
  row1 "CNV_RX_A_GROUP" 0x40060064 .rw 0x0 0xFFFFFFFF 0x0,
  row1 "CNV_RX_A_SRCIP" 0x40060068 .rw 0x0 0xFFFFFFFF 0x0,
  row1 "CNV_RX_A_UDP" 0x4006006C .rw 0x0 0xFFFF 0x0,
  row1 "CNV_RX_B_GROUP" 0x40060070 .rw 0x0 0xFFFFFFFF 0x0,
  row1 "CNV_RX_B_SRCIP" 0x40060074 .rw 0x0 0xFFFFFFFF 0x0,
  row1 "CNV_RX_B_UDP" 0x40060078 .rw 0x0 0xFFFF 0x0,
  row1 "CNV_RX_SSRC" 0x4006007C .rw 0x0 0xFFFFFFFF 0x0,
  row1 "CNV_SS_CTRL" 0x40060080 .rw 0x0 0xFFF7FFFF 0x0,
  row1 "CNV_SS_GROUP" 0x40060084 .rw 0x0 0xFFFFFFFF 0x0,
  row1 "CNV_SS_LOCAL_IP" 0x40060088 .rw 0x0 0xFFFFFFFF 0x0,
  row1 "CNV_HOST_CTRL" 0x40060090 .rw 0x0 0x1F 0x0,
  row1 "CNV_HOST_Y_LO" 0x40060094 .rw 0x0 0xFFFFFFFF 0x0,
  row1 "CNV_HOST_Y_HI" 0x40060098 .rw 0x0 0xFFFFFFFF 0x0,
  row1 "CNV_HOST_C0_LO" 0x4006009C .rw 0x0 0xFFFFFFFF 0x0,
  row1 "CNV_HOST_C0_HI" 0x400600A0 .rw 0x0 0xFFFFFFFF 0x0,
  row1 "CNV_HOST_C1_LO" 0x400600A4 .rw 0x0 0xFFFFFFFF 0x0,
  row1 "CNV_HOST_C1_HI" 0x400600A8 .rw 0x0 0xFFFFFFFF 0x0]

/-- Rows of the CANVAS block, part 2. -/
def regRows_canvas_p2 : List RegRow := [
  row1 "CNV_HOST_PITCH_Y" 0x400600AC .rw 0x0 0xFFFFF 0x0,
  row1 "CNV_HOST_PITCH_C" 0x400600B0 .rw 0x0 0xFFFFF 0x0,
  row1 "CNV_HOST_FRAME" 0x400600B4 .rw 0x0 0xFFFFFFFF 0x0,
  row1 "CNV_COMMIT_COUNT" 0x40060100 .ro 0x0 0x0 0x0,
  row1 "CNV_FLIP_COUNT" 0x40060104 .ro 0x0 0x0 0x0,
  row1 "CNV_INCOMPLETE_COUNT" 0x40060108 .ro 0x0 0x0 0x0,
  row1 "CNV_SKIP_COUNT" 0x4006010C .ro 0x0 0x0 0x0,
  row1 "CNV_PKT_COUNT" 0x40060110 .ro 0x0 0x0 0x0,
  row1 "CNV_PKT_DROP" 0x40060114 .ro 0x0 0x0 0x0,
  row1 "CNV_MERGE_DUP" 0x40060118 .ro 0x0 0x0 0x0,
  row1 "CNV_MERGE_LATE" 0x4006011C .ro 0x0 0x0 0x0,
  row1 "CNV_PATH_A_ONLY" 0x40060120 .ro 0x0 0x0 0x0,
  row1 "CNV_PATH_B_ONLY" 0x40060124 .ro 0x0 0x0 0x0,
  row1 "CNV_RE_PKT_COUNT" 0x40060128 .ro 0x0 0x0 0x0,
  row1 "CNV_RE_DROP" 0x4006012C .ro 0x0 0x0 0x0,
  row1 "CNV_RE_PACE" 0x40060200 .rw 0x0 0xFFFF 0x0,
  row1 "CNV_RE_SRC_IP" 0x40060204 .rw 0x0 0xFFFFFFFF 0x0,
  row1 "CNV_RE_SRC_MAC_LO" 0x40060208 .rw 0x0 0xFFFFFFFF 0x0,
  row1 "CNV_RE_SRC_MAC_HI" 0x4006020C .rw 0x0 0xFFFF 0x0,
  rowN "CNV_REe_CTRL" 0x40061000 0x20 64 .rw 0x0 0xFF03 0x0,
  rowN "CNV_REe_ORIGIN" 0x40061004 0x20 64 .rw 0x0 0x1FFF1FFF 0x0,
  rowN "CNV_REe_SIZE" 0x40061008 0x20 64 .rw 0x0 0x1FFF1FFF 0x0,
  rowN "CNV_REe_TILE" 0x4006100C 0x20 64 .rw 0x0 0xFF1FFF 0x0,
  rowN "CNV_REe_DEST_IP" 0x40061010 0x20 64 .rw 0x0 0xFFFFFFFF 0x0,
  rowN "CNV_REe_VLAN" 0x40061014 0x20 64 .rw 0x0 0xFFFF 0x0,
  rowN "CNV_REe_DEST_MAC_LO" 0x40061018 0x20 64 .rw 0x0 0xFFFFFFFF 0x0,
  rowN "CNV_REe_DEST_MAC_HI" 0x4006101C 0x20 64 .rw 0x0 0xFFFF 0x0,
  rowN "CNV_REe_PKTS" 0x40061800 0x4 64 .ro 0x0 0x0 0x0]

/-- Rows of the CANVAS block. -/
def regRows_canvas : List RegRow := regRows_canvas_p1 ++ regRows_canvas_p2

/-- Rows of the STITCH block, part 1. -/
def regRows_stitch : List RegRow := [
  row1 "STC_CTRL" 0x40070000 .rw 0x0 0x3 0x0,
  row1 "STC_STATUS" 0x40070004 .ro 0x0 0x0 0x0,
  row1 "STC_INT_STATUS" 0x40070008 .w1c 0x0 0x0 0xFFF,
  row1 "STC_INT_ENABLE" 0x4007000C .rw 0x0 0xFFF 0x0,
  row1 "STC_PROG_STAGE" 0x40070010 .rw 0x0 0x3FFF0001 0x0,
  row1 "STC_PROG_STATUS" 0x40070014 .ro 0x0 0x0 0x0,
  row1 "STC_PROG_ID" 0x40070018 .ro 0x0 0x0 0x0,
  row1 "STC_PROG_STAGED_ID" 0x4007001C .ro 0x0 0x0 0x0,
  row1 "STC_LANE_EN" 0x40070020 .rw 0xFF 0xFF 0x0,
  row1 "STC_FLOW_CANCEL" 0x40070024 .wo 0x0 0x0 0x0,
  row1 "STC_CUE" 0x40070028 .wo 0x0 0x0 0x0,
  row1 "STC_CUE_BASE" 0x4007002C .rw 0x0 0xFFFFFFFF 0x0,
  row1 "STC_CUE_TAG" 0x40070030 .ro 0x0 0x0 0x0,
  row1 "STC_DELAY_USED" 0x40070034 .ro 0x0 0x0 0x0,
  row1 "STC_DELAY_FLUSH" 0x40070038 .wo 0x0 0x0 0x0,
  row1 "STC_PARAM_DATA" 0x40070040 .rw 0x0 0xFFFFFFFF 0x0,
  row1 "STC_PARAM_CMD" 0x40070044 .wo 0x0 0x0 0x0,
  row1 "STC_BATCH_COUNT" 0x40070100 .ro 0x0 0x0 0x0,
  row1 "STC_RETIRE_COUNT" 0x40070104 .ro 0x0 0x0 0x0,
  row1 "STC_CANCEL_COUNT" 0x40070108 .ro 0x0 0x0 0x0,
  row1 "STC_LATE_COUNT" 0x4007010C .ro 0x0 0x0 0x0,
  row1 "STC_RACE_COUNT" 0x40070110 .ro 0x0 0x0 0x0,
  row1 "STC_ECC_CANCEL_COUNT" 0x40070114 .ro 0x0 0x0 0x0,
  row1 "STC_EMIT_SKIP_COUNT" 0x40070118 .ro 0x0 0x0 0x0,
  row1 "STC_DELAY_OVF_COUNT" 0x4007011C .ro 0x0 0x0 0x0,
  row1 "STC_DELAY_EXPIRE_COUNT" 0x40070120 .ro 0x0 0x0 0x0,
  row1 "STC_CUE_BAD_COUNT" 0x40070124 .ro 0x0 0x0 0x0,
  row1 "STC_INFLIGHT_FULL_CYCLES" 0x40070128 .ro 0x0 0x0 0x0,
  row1 "STC_EMIT_WAIT_CYCLES" 0x4007012C .ro 0x0 0x0 0x0,
  row1 "STC_INFLIGHT_MAX" 0x40070130 .ro 0x0 0x0 0x0,
  row1 "STC_ROW_SLACK_MIN" 0x40070134 .ro 0xFFFFFFFF 0x0 0x0,
  row1 "STC_ROW_BUSY_MAX" 0x40070138 .ro 0x0 0x0 0x0,
  rowN "STC_LANEl_BUSY" 0x40070200 0x4 8 .ro 0x0 0x0 0x0,
  rowN "STC_PARAM_i" 0x40071000 0x4 1024 .ro 0x0 0x0 0x0]

/-- Rows of the DIAG block, part 1. -/
def regRows_diag : List RegRow := [
  row1 "TRC_CTRL" 0x40138000 .rw 0x2 0x7 0x0,
  row1 "TRC_STATUS" 0x40138004 .ro 0x0 0x0 0x0,
  row1 "TRC_INT_STATUS" 0x40138008 .w1c 0x0 0x0 0x7,
  row1 "TRC_INT_ENABLE" 0x4013800C .rw 0x0 0x7 0x0,
  row1 "TRC_EVENT_MASK" 0x40138010 .rw 0x7E 0x7E 0x0,
  row1 "TRC_TRIG_MASK" 0x40138014 .rw 0x10 0xFE 0x0,
  row1 "TRC_POST_COUNT" 0x40138018 .rw 0x1000 0x1FFF 0x0,
  row1 "TRC_TRIG_INDEX" 0x4013801C .ro 0x0 0x0 0x0,
  row1 "TRC_LOST" 0x40138020 .ro 0x0 0x0 0x0,
  row1 "TRC_STALL_CYCLES" 0x40138024 .ro 0x0 0x0 0x0,
  row1 "TRC_FLOW_FILTER" 0x40138028 .rw 0x0 0x103FF 0x0,
  row1 "LOG_CTRL" 0x40130000 .rw 0x1 0x1 0x0,
  row1 "LOG_STATUS" 0x40130004 .ro 0x0 0x0 0x0,
  row1 "LOG_INT_STATUS" 0x40130008 .w1c 0x0 0x0 0x1,
  row1 "LOG_INT_ENABLE" 0x4013000C .rw 0x0 0x1 0x0,
  row1 "LOG_FLUSH_MIN" 0x40130010 .rw 0x3C 0xFFFF 0x0,
  row1 "LOG_CORE_S" 0x40130014 .ro 0x0 0x0 0x0,
  row1 "LOG_DORMANT_S" 0x40130018 .ro 0x0 0x0 0x0,
  rowN "LOG_TJ_k" 0x40130040 0x4 16 .ro 0x0 0x0 0x0,
  rowNM "LOG_RAILr_b" 0x40130100 0x10 10 0x4 4 .ro 0x0 0x0 0x0,
  rowN "LOG_RESET_c" 0x40130200 0x4 17 .ro 0x0 0x0 0x0,
  rowN "LOG_ECC_m" 0x40130300 0x4 192 .ro 0x0 0x0 0x0]

/-- Rows of the STRAND block, part 1. -/
def regRows_strand_p1 : List RegRow := [
  row1 "STR_INT_SUMMARY" 0x40090000 .ro 0x0 0x0 0x0,
  row1 "STR_INT_STATUS" 0x40090004 .w1c 0x0 0x0 0x3,
  row1 "STR_INT_ENABLE" 0x40090008 .rw 0x0 0x3 0x0,
  row1 "STR_REPLY_BASE" 0x40090010 .rw 0x0 0xFFFFFFFF 0x0,
  row1 "STR_REPLY_SIZE" 0x40090014 .rw 0x40 0x1FFF 0x0,
  row1 "STR_REPLY_HEAD" 0x40090018 .ro 0x0 0x0 0x0,
  row1 "STR_REPLY_TAIL" 0x4009001C .rw 0x0 0xFFF 0x0,
  row1 "STR_REPLY_LOST" 0x40090020 .ro 0x0 0x0 0x0,
  rowN "STR_n_CTRL" 0x40091000 0x200 32 .rw 0x40 0x7FF 0x0,
  rowN "STR_n_STATUS" 0x40091004 0x200 32 .ro 0x0 0x0 0x0,
  rowN "STR_n_INT_STATUS" 0x40091008 0x200 32 .w1c 0x0 0x0 0x7FFF,
  rowN "STR_n_INT_ENABLE" 0x4009100C 0x200 32 .rw 0x0 0x7FFF 0x0,
  rowN "STR_n_RATE" 0x40091010 0x200 32 .rwc 0x300 0x333 0x0,
  rowN "STR_n_PHY" 0x40091014 0x200 32 .rw 0x3 0x1F77 0x0,
  rowN "STR_n_LAYOUT" 0x40091018 0x200 32 .rw 0x3F80000 0x3FF3FFF 0x0,
  rowN "STR_n_STITCH_BYTES" 0x4009101C 0x200 32 .rw 0x3 0x1F 0x0,
  rowNM "STR_n_BGx" 0x40091020 0x200 32 0x4 6 .rw 0x0 0xFFFFFFFF 0x0,
  rowN "STR_n_LIMIT_B" 0x40091038 0x200 32 .rw 0xFFFFFFFF 0xFFFFFFFF 0x0,
  rowN "STR_n_LIMIT_D" 0x4009103C 0x200 32 .rw 0x8000 0xFFFF 0x0,
  rowN "STR_n_CLAIM" 0x40091040 0x200 32 .rw 0x8000 0x1FFFF 0x0,
  rowN "STR_n_RING" 0x40091044 0x200 32 .rw 0x0 0x17F 0x0,
  rowN "STR_n_MIRROR" 0x40091048 0x200 32 .rw 0x0 0x11F 0x0,
  rowN "STR_n_REFRESH" 0x4009104C 0x200 32 .rw 0x10 0xFF 0x0,
  rowN "STR_n_HOP_MAX" 0x40091050 0x200 32 .rw 0x0 0xFFFF 0x0,
  rowN "STR_n_SURVEY_ADDR" 0x40091054 0x200 32 .rw 0x0 0xFFFFFFFF 0x0,
  rowN "STR_n_SURVEY_CTRL" 0x40091058 0x200 32 .rw 0x4 0x4 0x0,
  rowN "STR_n_PARK_LIMIT" 0x4009105C 0x200 32 .rw 0x438 0xFFFF 0x0,
  rowN "STR_n_CTL_ADDR" 0x40091060 0x200 32 .rw 0x0 0xFFFFFFFF 0x0,
  rowN "STR_n_CTL_CMD" 0x40091064 0x200 32 .wo 0x0 0x0 0x0,
  rowN "STR_n_LEAD" 0x40091068 0x200 32 .ro 0x0 0x0 0x0,
  rowN "STR_n_NODES" 0x4009106C 0x200 32 .ro 0x0 0x0 0x0,
  rowN "STR_n_CHAIN_CK" 0x40091070 0x200 32 .ro 0x0 0x0 0x0,
  rowN "STR_n_UTIL" 0x40091074 0x200 32 .ro 0x0 0x0 0x0,
  rowN "STR_n_FRAMES_TX" 0x40091080 0x200 32 .ro 0x0 0x0 0x0,
  rowN "STR_n_LINES_TX" 0x40091084 0x200 32 .ro 0x0 0x0 0x0,
  rowN "STR_n_UNDERRUN" 0x40091088 0x200 32 .ro 0x0 0x0 0x0,
  rowN "STR_n_BG_BYTES" 0x4009108C 0x200 32 .ro 0x0 0x0 0x0,
  rowN "STR_n_LINE_SKIP" 0x40091090 0x200 32 .ro 0x0 0x0 0x0,
  rowN "STR_n_LINE_UNCHANGED" 0x40091094 0x200 32 .ro 0x0 0x0 0x0,
  rowN "STR_n_LATCHES" 0x40091098 0x200 32 .ro 0x0 0x0 0x0]

/-- Rows of the STRAND block, part 2. -/
def regRows_strand_p2 : List RegRow := [
  rowN "STR_n_LATCH_LATE" 0x4009109C 0x200 32 .ro 0x0 0x0 0x0,
  rowN "STR_n_RB_FRAMES" 0x400910A0 0x200 32 .ro 0x0 0x0 0x0,
  rowN "STR_n_RB_MISMATCH" 0x400910A4 0x200 32 .ro 0x0 0x0 0x0,
  rowN "STR_n_RX_FRAMES" 0x400910A8 0x200 32 .ro 0x0 0x0 0x0,
  rowN "STR_n_RX_CRC_ERR" 0x400910AC 0x200 32 .ro 0x0 0x0 0x0,
  rowN "STR_n_RX_LOS_COUNT" 0x400910B0 0x200 32 .ro 0x0 0x0 0x0,
  rowN "STR_n_REPLY_TIMEOUT" 0x400910B4 0x200 32 .ro 0x0 0x0 0x0,
  rowN "STR_n_RATE_CHANGES" 0x400910B8 0x200 32 .ro 0x0 0x0 0x0,
  rowN "STR_n_LATE_BYTES" 0x400910BC 0x200 32 .ro 0x0 0x0 0x0,
  rowN "STR_n_RING_SWITCH" 0x400910C0 0x200 32 .ro 0x0 0x0 0x0]

/-- Rows of the STRAND block. -/
def regRows_strand : List RegRow := regRows_strand_p1 ++ regRows_strand_p2

/-- Rows of the DRIVE block, part 1. -/
def regRows_drive_p1 : List RegRow := [
  row1 "DRV_CTRL" 0x400A0000 .rw 0x0 0x1 0x0,
  row1 "DRV_STATUS" 0x400A0004 .ro 0x0 0x0 0x0,
  row1 "DRV_INT_STATUS" 0x400A0008 .w1c 0x0 0x0 0x3F,
  row1 "DRV_INT_ENABLE" 0x400A000C .rw 0x0 0x3F 0x0,
  row1 "DRV_CH_SUMMARY" 0x400A0010 .ro 0x0 0x0 0x0,
  row1 "DRV_HOLD_CTRL" 0x400A0014 .rw 0x27100000 0xFFFF0001 0x0,
  row1 "DRV_HOLD_REMAIN" 0x400A0018 .ro 0x0 0x0 0x0,
  row1 "DRV_SNS_CTRL" 0x400A001C .rw 0x6400 0xFFFF 0x0,
  rowN "DRV_AINi" 0x400A0040 0x4 8 .ro 0x0 0x0 0x0,
  rowNM "DRV_NTCi_k" 0x400A0400 0x40 8 0x4 16 .rw 0x0 0xFFFF0FFF 0x0,
  rowN "DRV_SNSs_CFG" 0x400A0800 0x10 64 .rw 0x0 0xF0FF1F7F 0x0,
  rowN "DRV_SNSs_DATA0" 0x400A0804 0x10 64 .ro 0x0 0x0 0x0,
  rowN "DRV_SNSs_DATA1" 0x400A0808 0x10 64 .ro 0x0 0x0 0x0,
  rowN "DRV_SNSs_STAT" 0x400A080C 0x10 64 .ro 0x0 0x0 0x0,
  rowN "DRV_c_CTRL" 0x400A1000 0x100 16 .rw 0x0 0xF07 0x0,
  rowN "DRV_c_STATUS" 0x400A1004 0x100 16 .ro 0x0 0x0 0x0,
  rowN "DRV_c_INT_STATUS" 0x400A1008 0x100 16 .w1c 0x0 0x0 0x7FF,
  rowN "DRV_c_INT_ENABLE" 0x400A100C 0x100 16 .rw 0x0 0x7FF 0x0,
  rowN "DRV_c_FSW" 0x400A1010 0x100 16 .rw 0x1F4 0xFFF 0x0,
  rowN "DRV_c_FS_UV" 0x400A1014 0x100 16 .rw 0x14820 0x1FFFF 0x0,
  rowN "DRV_c_RIPPLE_K" 0x400A1018 0x100 16 .rw 0x0 0xFFFFFFFF 0x0,
  rowN "DRV_c_SLOPE" 0x400A101C 0x100 16 .rw 0x640000 0xFFFFFF 0x0,
  rowN "DRV_c_VSTR_DIV" 0x400A1020 0x100 16 .rw 0x3200 0xFFFF 0x0,
  rowN "DRV_c_VSTR_LIM" 0x400A1024 0x100 16 .rw 0x0 0xFFFFFFFF 0x0,
  rowN "DRV_c_PARTIAL" 0x400A1028 0x100 16 .rw 0x0 0xFFFF 0x0,
  rowN "DRV_c_SET" 0x400A102C 0x100 16 .rwc 0x0 0xFFFFFF 0x0,
  rowN "DRV_c_LEVEL" 0x400A1030 0x100 16 .ro 0x0 0x0 0x0,
  rowN "DRV_c_STEP" 0x400A1034 0x100 16 .ro 0x0 0x0 0x0,
  rowN "DRV_c_WIDTH" 0x400A1038 0x100 16 .ro 0x0 0x0 0x0,
  rowN "DRV_c_VSTR" 0x400A103C 0x100 16 .ro 0x0 0x0 0x0,
  rowN "DRV_c_DIAG_CFG" 0x400A1040 0x100 16 .rw 0x3E80140 0xFFFF01FF 0x0,
  rowN "DRV_c_RETRY" 0x400A1044 0x100 16 .rw 0x3E8 0xFFFF 0x0,
  rowN "DRV_c_EDGE_ADJ" 0x400A1048 0x100 16 .rw 0x0 0xFFFF 0x0,
  rowN "DRV_c_THERM" 0x400A104C 0x100 16 .rw 0x0 0x1BF 0x0,
  rowNM "DRV_c_DERATE_x" 0x400A1050 0x100 16 0x4 8 .rw 0x80000000 0xFFFFFFFF 0x0,
  rowN "DRV_c_TCRIT" 0x400A1070 0x100 16 .rw 0xA07D0 0x1FFFFFF 0x0,
  rowN "DRV_c_DFAULT" 0x400A1074 0x100 16 .rw 0x4000 0xFFFF 0x0,
  rowN "DRV_c_DERATE" 0x400A1078 0x100 16 .ro 0x80008000 0x0 0x0,
  rowN "DRV_c_TEMP" 0x400A107C 0x100 16 .ro 0x0 0x0 0x0,
  rowN "DRV_c_LIMIT_B" 0x400A1080 0x100 16 .rw 0xFFFFFFFF 0xFFFFFFFF 0x0]

/-- Rows of the DRIVE block, part 2. -/
def regRows_drive_p2 : List RegRow := [
  rowN "DRV_c_LATE_COUNT" 0x400A10A0 0x100 16 .ro 0x0 0x0 0x0,
  rowN "DRV_c_UNVERIFIED_COUNT" 0x400A10A4 0x100 16 .ro 0x0 0x0 0x0,
  rowN "DRV_c_DIAG_PULSES" 0x400A10A8 0x100 16 .ro 0x0 0x0 0x0,
  rowN "DRV_c_STRETCHED" 0x400A10AC 0x100 16 .ro 0x0 0x0 0x0,
  rowN "DRV_c_FAULT_COUNT" 0x400A10B0 0x100 16 .ro 0x0 0x0 0x0,
  rowN "DRV_c_OC_CYCLES" 0x400A10B4 0x100 16 .ro 0x0 0x0 0x0,
  rowN "DRV_c_WINDOW_CLIP" 0x400A10B8 0x100 16 .ro 0x0 0x0 0x0,
  rowN "DRV_c_UNVERIFIED_RUN" 0x400A10BC 0x100 16 .ro 0x0 0x0 0x0,
  rowN "DRV_GRPg_CTRL" 0x400A3000 0x10 16 .rwc 0x0 0x1F1F 0x0,
  rowN "DRV_GRPg_PHASE" 0x400A3004 0x10 16 .rwc 0x0 0xFFFF 0x0,
  rowN "DRV_GRPg_STATUS" 0x400A3008 0x10 16 .ro 0x0 0x0 0x0,
  rowN "TRIM_t_CTRL" 0x400A2000 0x80 32 .rw 0x0 0xFF 0x0,
  rowN "TRIM_t_REF" 0x400A2004 0x80 32 .rw 0x0 0x3FFFF 0x0,
  rowN "TRIM_t_GAIN" 0x400A2008 0x80 32 .rw 0x4000 0xFFFFFFFF 0x0,
  rowN "TRIM_t_MINMAX" 0x400A200C 0x80 32 .rw 0x50003000 0xFFFFFFFF 0x0,
  rowN "TRIM_t_CH" 0x400A2010 0x80 32 .rw 0x0 0x33333333 0x0,
  rowNM "TRIM_t_K" 0x400A2014 0x80 32 0x4 8 .rw 0x0 0xFFFFFFFF 0x0,
  rowNM "TRIM_t_TRIM" 0x400A2034 0x80 32 0x4 4 .ro 0x40004000 0x0 0x0,
  rowN "TRIM_t_STATUS" 0x400A2044 0x80 32 .ro 0x0 0x0 0x0]

/-- Rows of the DRIVE block. -/
def regRows_drive : List RegRow := regRows_drive_p1 ++ regRows_drive_p2

/-- Rows of the RSTPWR block, part 1. -/
def regRows_rstpwr : List RegRow := [
  row1 "PWR_WAKE_CTRL" 0x40010800 .rw 0x11 0x17 0x0,
  row1 "PWR_WAKE_ID" 0x40010804 .rw 0xFFF 0xFFFF0FFF 0x0,
  row1 "PWR_WAKE_CODE_LO" 0x40010808 .rw 0x0 0xFFFFFFFF 0x0,
  row1 "PWR_WAKE_CODE_HI" 0x4001080C .rw 0x0 0xFFFFFFFF 0x0,
  row1 "PWR_WAKE_STATUS" 0x40010810 .ro 0x0 0x0 0x300,
  row1 "PWR_WAKE_SEEN" 0x40010814 .ro 0x0 0x0 0x0,
  row1 "RST_CTRL" 0x40010000 .rw 0x0 0x0 0x0,
  row1 "RST_CAUSE" 0x40010004 .ro 0x0 0x0 0x0,
  row1 "RST_INT_STATUS" 0x40010008 .w1c 0x0 0x0 0x3F,
  row1 "RST_INT_ENABLE" 0x4001000C .rw 0x0 0x3F 0x0,
  row1 "RST_DOMAIN" 0x40010010 .wo 0x0 0x0 0x0,
  row1 "RST_STATUS" 0x40010014 .ro 0x0 0x0 0x0,
  rowN "RST_WDTc_CTRL" 0x40010020 0x10 2 .rw 0x3E800 0xFFFFFF01 0x0,
  rowN "RST_WDTc_KICK" 0x40010024 0x10 2 .wo 0x0 0x0 0x0,
  rowN "RST_WDTc_REMAIN" 0x40010028 0x10 2 .ro 0x0 0x0 0x0,
  row1 "RST_WDTHW_CTRL" 0x40010040 .rw 0x7D000 0xFFFFFF03 0x0,
  row1 "RST_WDTHW_KICK" 0x40010044 .wo 0x0 0x0 0x0,
  row1 "RST_WDTHW_REMAIN" 0x40010048 .ro 0x0 0x0 0x0,
  row1 "RST_WDT_BADKICK" 0x4001004C .rw 0x0 0xFFFFFFFF 0x0,
  row1 "RST_RFRAME_CTRL" 0x40010100 .rw 0x0 0xF 0x0,
  row1 "RST_RFRAME_ID" 0x40010104 .rw 0x0 0xFFF 0x0,
  row1 "RST_RFRAME_COUNT_LO" 0x40010108 .rw 0x0 0xFFFFFFFF 0x0,
  row1 "RST_RFRAME_COUNT_HI" 0x4001010C .rw 0x0 0xFFFFFFFF 0x0,
  row1 "RST_RFRAME_ACCEPT" 0x40010110 .rw 0x0 0xFFFFFFFF 0x0,
  row1 "RST_RFRAME_REJECT" 0x40010114 .rw 0x0 0xFFFFFFFF 0x0,
  row1 "RST_RFRAME_LASTREJ" 0x40010118 .ro 0x0 0x0 0x0,
  row1 "PWR_CTRL" 0x40010200 .rw 0x0 0x6 0x0,
  row1 "PWR_STATUS" 0x40010204 .ro 0x3FF 0x0 0x0,
  row1 "PWR_DOMAIN" 0x40010208 .rw 0x3FF 0x3FF 0x0,
  row1 "PWR_RAIL" 0x4001020C .ro 0x0 0x0 0x0,
  row1 "PWR_SEQ" 0x40010210 .rw 0x50064 0xFFFFFFFF 0x0,
  row1 "PWR_TJ" 0x40010214 .ro 0x0 0x0 0x0,
  row1 "PWR_TJ_WARN" 0x40010218 .rw 0x690 0xFFFF 0x0,
  row1 "OPT_STATUS" 0x40010400 .ro 0x0 0x0 0x2,
  row1 "OPT_RESTARTS" 0x40010404 .ro 0x0 0x0 0x0,
  row1 "OPT_PCI_IDS" 0x40010408 .ro 0x77401E7C 0x0 0x0,
  row1 "OPT_TRUNK_DEF" 0x4001040C .ro 0x0 0x0 0x0,
  row1 "OPT_FLAGS" 0x40010410 .ro 0x0 0x0 0x0,
  row1 "BKP_CTRL" 0x40010600 .wo 0x0 0x0 0x0]

/-- Rows of the PAIR block, part 1. -/
def regRows_pair : List RegRow := [
  row1 "PAIR_CTRL" 0x400B0000 .rw 0x0 0x7 0x0,
  row1 "PAIR_STATUS" 0x400B0004 .ro 0x0 0x0 0x0,
  row1 "PAIR_INT_STATUS" 0x400B0008 .w1c 0x0 0x0 0x3FF,
  row1 "PAIR_INT_ENABLE" 0x400B000C .rw 0x0 0x3FF 0x0,
  row1 "PAIR_CONFIG" 0x400B0010 .rw 0x338080 0x3FFFFF 0x0,
  row1 "PAIR_TIMING" 0x400B0014 .rw 0x31E001E 0xFFFFFFFF 0x0,
  row1 "PAIR_PARTNER" 0x400B0018 .rw 0x0 0xFFF 0x0,
  row1 "PAIR_PORTS" 0x400B001C .rw 0x0 0xFFFFFFFF 0x0,
  row1 "PAIR_WEIGHT0" 0x400B0020 .rw 0x40208080 0xFFFFFFFF 0x0,
  row1 "PAIR_WEIGHT1" 0x400B0024 .rw 0x40692040 0xFFFFFFFF 0x0,
  row1 "PAIR_CLAIM" 0x400B0028 .ro 0x0 0x0 0x0,
  row1 "PAIR_FAULTS" 0x400B002C .ro 0x0 0x0 0x0,
  row1 "PAIR_PEER" 0x400B0030 .ro 0x0 0x0 0x0,
  row1 "PAIR_PEER_AGE" 0x400B0034 .ro 0xFFFFFFFF 0x0 0x0,
  row1 "PAIR_TAKEOVER_FRAME" 0x400B0038 .ro 0x0 0x0 0x0,
  row1 "PAIR_CONFIG_TAG" 0x400B003C .rw 0x0 0xFFFFFFFF 0x0,
  row1 "PAIR_PEER_TAG" 0x400B0040 .ro 0x0 0x0 0x0,
  row1 "PAIR_FORCE_CTRL" 0x400B0044 .rw 0x0 0x203 0x0,
  row1 "PAIR_REVERT_REMAIN" 0x400B0048 .ro 0x0 0x0 0x0,
  row1 "PAIR_SRC_MAC_LO" 0x400B004C .rw 0x0 0xFFFFFFFF 0x0,
  row1 "PAIR_SRC_MAC_HI" 0x400B0050 .rw 0x0 0xFFFF 0x0,
  row1 "PAIR_TAKEOVERS" 0x400B0080 .ro 0x0 0x0 0x0,
  row1 "PAIR_YIELDS" 0x400B0084 .ro 0x0 0x0 0x0,
  row1 "PAIR_BEACON_TX" 0x400B0088 .ro 0x0 0x0 0x0,
  row1 "PAIR_BEACON_RX" 0x400B008C .ro 0x0 0x0 0x0,
  row1 "PAIR_BEACON_BAD" 0x400B0090 .ro 0x0 0x0 0x0,
  row1 "PAIR_ALIVE_LOSS" 0x400B0094 .ro 0x0 0x0 0x0,
  row1 "PAIR_SHADOW_COMPARED" 0x400B0098 .ro 0x0 0x0 0x0,
  row1 "PAIR_SHADOW_MISMATCH" 0x400B009C .ro 0x0 0x0 0x0,
  row1 "PAIR_SHADOW_SKIPPED" 0x400B00A0 .ro 0x0 0x0 0x0,
  row1 "PAIR_WKR_CTRL" 0x400B0100 .rw 0x0 0x1 0x0,
  row1 "PAIR_WKR_SRC" 0x400B0104 .rw 0x0 0xFFF0FFF 0x0,
  row1 "PAIR_WKR_HEARD" 0x400B0108 .wo 0x0 0x0 0x0,
  row1 "PAIR_WKR_STATUS" 0x400B010C .ro 0x0 0x0 0x0,
  row1 "PAIR_WKR_CLAIM" 0x400B0110 .ro 0x0 0x0 0x0,
  row1 "PAIR_WKR_SWITCHES" 0x400B0114 .ro 0x0 0x0 0x0]

/-- Rows of the MBX block, part 1. -/
def regRows_mbx : List RegRow := [
  rowN "MBX_m_PTR_LO" 0x400C0000 0x20 16 .rw 0x0 0xFFFFFFFF 0x0,
  rowN "MBX_m_PTR_HI" 0x400C0004 0x20 16 .rw 0x0 0xFFFFFFFF 0x0,
  rowN "MBX_m_TAG" 0x400C0008 0x20 16 .rw 0x0 0xFFFF 0x0,
  rowN "MBX_m_STATUS" 0x400C000C 0x20 16 .ro 0x0 0x0 0x6,
  rowN "MBX_m_ACK" 0x400C0010 0x20 16 .wo 0x0 0x0 0x0,
  rowN "MBX_m_RCODE" 0x400C0014 0x20 16 .ro 0x0 0x0 0x0,
  rowN "MBX_m_POSTS" 0x400C0018 0x20 16 .ro 0x0 0x0 0x0,
  row1 "MBX_INT_STATUS" 0x400C0200 .w1c 0x0 0x0 0xFFFFFFFF,
  row1 "MBX_INT_ENABLE" 0x400C0204 .rw 0x0 0xFFFFFFFF 0x0,
  row1 "MBX_INT_EN_CC0" 0x400C0208 .rw 0x0 0xFFFFFFFF 0x0,
  row1 "MBX_INT_EN_CC1" 0x400C020C .rw 0x0 0xFFFFFFFF 0x0,
  row1 "MBX_ERR_COUNT" 0x400C0210 .ro 0x0 0x0 0x0,
  row1 "DBL_STATUS" 0x400C0400 .w1c 0x0 0x0 0xFFFFFFFF,
  row1 "DBL_RAISE" 0x400C0404 .w1s 0x0 0x0 0x0,
  row1 "DBL_ENABLE" 0x400C0408 .rw 0x0 0xFFFFFFFF 0x0,
  rowN "MBX_LOCK_n" 0x400C0800 0x4 32 .rw 0x0 0x7 0x0,
  row1 "MBX_LOCK_VIOL" 0x400C0880 .ro 0x0 0x0 0x0,
  row1 "MBX_LOCK_BREAK" 0x400C0884 .wo 0x0 0x0 0x0]

/-- Rows of the HOST block, part 1. -/
def regRows_host : List RegRow := [
  row1 "HST_CTRL" 0x40120000 .rw 0x3 0x3 0x0,
  row1 "HST_STATUS" 0x40120004 .ro 0x0 0x0 0x0,
  row1 "HST_INT_STATUS" 0x40120008 .w1c 0x0 0x0 0xF,
  row1 "HST_INT_ENABLE" 0x4012000C .rw 0x0 0xF 0x0,
  row1 "HST_IDS" 0x40120010 .ro 0x77401E7C 0x0 0x0,
  row1 "HST_INTN_SEL_LO" 0x40120014 .rw 0x1FFFF 0xFFFFFFFF 0x0,
  row1 "HST_INTN_SEL_HI" 0x40120018 .rw 0x0 0xFFFFFFFF 0x0,
  row1 "HST_SRC_PEND_LO" 0x4012001C .ro 0x0 0x0 0x0,
  row1 "HST_SRC_PEND_HI" 0x40120020 .ro 0x0 0x0 0x0,
  row1 "HST_ACL_DROPS" 0x40120024 .ro 0x0 0x0 0x0,
  row1 "HST_CA_COUNT" 0x40120028 .ro 0x0 0x0 0x0,
  row1 "HST_UR_COUNT" 0x4012002C .ro 0x0 0x0 0x0,
  rowN "HST_OBk_BASE_LO" 0x40120040 0x8 4 .rw 0x0 0xE0000001 0x0,
  rowN "HST_OBk_BASE_HI" 0x40120044 0x8 4 .rw 0x0 0xFFFFFFFF 0x0,
  rowN "HST_MSIXv_SEL_LO" 0x40120100 0x8 32 .rw 0x0 0xFFFFFFFF 0x0,
  rowN "HST_MSIXv_SEL_HI" 0x40120104 0x8 32 .rw 0x0 0xFFFFFFFF 0x0,
  rowN "HST_QBUF_IN" 0x40128000 0x4 2048 .rw 0x0 0xFFFFFFFF 0x0,
  rowN "HST_QBUF_OUT" 0x4012A000 0x4 2048 .rw 0x0 0xFFFFFFFF 0x0,
  row1 "HST_QSPI_STATUS" 0x4012C000 .ro 0x0 0x0 0x0]

/-- Rows of the DMA block, part 1. -/
def regRows_dma : List RegRow := [
  row1 "DMA_CTRL" 0x400D0000 .rw 0x0 0x0 0x0,
  row1 "DMA_STATUS" 0x400D0004 .ro 0x0 0x0 0x0,
  row1 "DMA_INT_STATUS" 0x400D0008 .w1c 0x0 0x0 0xFFFFFFFF,
  row1 "DMA_INT_ENABLE" 0x400D000C .rw 0x0 0xFFFFFFFF 0x0,
  rowN "DMA_CHn_CTRL" 0x400D0100 0x40 16 .rw 0x0 0x3 0x0,
  rowN "DMA_CHn_STATUS" 0x400D0104 0x40 16 .ro 0x0 0x0 0x0,
  rowN "DMA_CHn_RESET" 0x400D0108 0x40 16 .wo 0x0 0x0 0x0,
  rowN "DMA_CHn_TRIG" 0x400D010C 0x40 16 .rw 0x0 0x1F 0x0,
  rowN "DMA_CHn_DESC_LO" 0x400D0110 0x40 16 .rw 0x0 0xFFFFFFFF 0x0,
  rowN "DMA_CHn_DESC_HI" 0x400D0114 0x40 16 .rw 0x0 0xFFFFFFFF 0x0,
  rowN "DMA_CHn_LAST_LO" 0x400D0118 0x40 16 .ro 0x0 0x0 0x0,
  rowN "DMA_CHn_LAST_HI" 0x400D011C 0x40 16 .ro 0x0 0x0 0x0,
  rowN "DMA_CHn_ERR_ADDR_LO" 0x400D0120 0x40 16 .ro 0x0 0x0 0x0,
  rowN "DMA_CHn_ERR_ADDR_HI" 0x400D0124 0x40 16 .ro 0x0 0x0 0x0,
  rowN "DMA_CHn_PUSHQ" 0x400D0128 0x40 16 .rw 0x0 0x1FF 0x0,
  rowN "DMA_CHn_BYTES" 0x400D012C 0x40 16 .ro 0x0 0x0 0x0,
  rowN "DMA_CHn_DESCS" 0x400D0130 0x40 16 .ro 0x0 0x0 0x0,
  rowN "DMA_CHn_ERRORS" 0x400D0134 0x40 16 .ro 0x0 0x0 0x0,
  rowN "DMA_CHn_TRIG_MISS" 0x400D0138 0x40 16 .ro 0x0 0x0 0x0]

/-- Rows of the SKEIN block, part 1. -/
def regRows_skein : List RegRow := [
  row1 "SKN_CTRL" 0x400E0000 .rw 0x0 0x3 0x0,
  row1 "SKN_STATUS" 0x400E0004 .ro 0x0 0x0 0x0,
  row1 "SKN_INT_STATUS" 0x400E0008 .w1c 0x0 0x0 0x1F,
  row1 "SKN_INT_ENABLE" 0x400E000C .rw 0x0 0x1F 0x0,
  row1 "SKN_CELLS" 0x400E0010 .rw 0x10000 0x1FFFF 0x0,
  row1 "SKN_CELLS_FREE" 0x400E0014 .ro 0x0 0x0 0x0,
  row1 "SKN_CELLS_COMMITTED" 0x400E0018 .ro 0x0 0x0 0x0,
  rowN "SKN_EVENTk" 0x400E0020 0x4 8 .w1c 0x0 0x0 0xFFFFFFFF,
  rowN "SKN_EVENT_ENk" 0x400E0040 0x4 8 .rw 0x0 0xFFFFFFFF 0x0,
  rowN "SKN_Qn_CTRL" 0x400E1000 0x20 256 .rw 0x0 0x7 0x0,
  rowN "SKN_Qn_QUOTA" 0x400E1004 0x20 256 .rw 0x8 0x3FFFF 0x0,
  rowN "SKN_Qn_SPILL_BASE" 0x400E1008 0x20 256 .rw 0x0 0xFFFFFFFF 0x0,
  rowN "SKN_Qn_SPILL_SIZE" 0x400E100C 0x20 256 .rw 0x0 0x1FFF 0x0,
  rowN "SKN_Qn_LEVEL" 0x400E1010 0x20 256 .ro 0x0 0x0 0x0,
  rowN "SKN_Qn_THRESH" 0x400E1014 0x20 256 .rw 0x0 0x3FFFF 0x0,
  rowN "SKN_Qn_LOST" 0x400E1018 0x20 256 .ro 0x0 0x0 0x0,
  rowN "SKN_Qn_UNDERFLOW" 0x400E101C 0x20 256 .ro 0x0 0x0 0x0,
  rowNM "SKN_Qn_PUSHx" 0x400E4000 0x40 256 0x4 4 .wo 0x0 0x0 0x0,
  rowNM "SKN_Qn_POPx" 0x400E4010 0x40 256 0x4 4 .ro 0x0 0x0 0x0,
  rowN "SKN_Qn_FLAGS" 0x400E4020 0x40 256 .ro 0x2 0x0 0x0,
  rowNM "SKN_Hn_PUSHx" 0x400E8000 0x40 256 0x4 4 .wo 0x0 0x0 0x0,
  rowNM "SKN_Hn_POPx" 0x400E8010 0x40 256 0x4 4 .ro 0x0 0x0 0x0,
  rowN "SKN_Hn_FLAGS" 0x400E8020 0x40 256 .ro 0x2 0x0 0x0]

/-- Rows of the CRC block, part 1. -/
def regRows_crc : List RegRow := [
  row1 "CRC_CTRL" 0x400F0000 .rw 0x0 0x0 0x0,
  row1 "CRC_INT_STATUS" 0x400F0008 .w1c 0x0 0x0 0xFFFF,
  row1 "CRC_INT_ENABLE" 0x400F000C .rw 0x0 0xFFFF 0x0,
  rowN "CRC_n_CFG" 0x400F1000 0x80 8 .rw 0x20 0xF31F7F 0x0,
  rowN "CRC_n_SRC" 0x400F1004 0x80 8 .rw 0x0 0x1F0F 0x0,
  rowN "CRC_n_FILTER" 0x400F1008 0x80 8 .rw 0x0 0x1FFFF 0x0,
  rowN "CRC_n_COUNT" 0x400F100C 0x80 8 .rw 0x1 0xFFFFFFFF 0x0,
  rowN "CRC_n_POLY_LO" 0x400F1010 0x80 8 .rw 0x4C11DB7 0xFFFFFFFF 0x0,
  rowN "CRC_n_POLY_HI" 0x400F1014 0x80 8 .rw 0x0 0xFFFFFFFF 0x0,
  rowN "CRC_n_INIT_LO" 0x400F1018 0x80 8 .rw 0xFFFFFFFF 0xFFFFFFFF 0x0,
  rowN "CRC_n_INIT_HI" 0x400F101C 0x80 8 .rw 0x0 0xFFFFFFFF 0x0,
  rowN "CRC_n_XOROUT_LO" 0x400F1020 0x80 8 .rw 0xFFFFFFFF 0xFFFFFFFF 0x0,
  rowN "CRC_n_XOROUT_HI" 0x400F1024 0x80 8 .rw 0x0 0xFFFFFFFF 0x0,
  rowN "CRC_n_VALUE_LO" 0x400F1028 0x80 8 .rw 0x0 0xFFFFFFFF 0x0,
  rowN "CRC_n_VALUE_HI" 0x400F102C 0x80 8 .rw 0x0 0xFFFFFFFF 0x0,
  rowN "CRC_n_EXPECT_LO" 0x400F1030 0x80 8 .rw 0x0 0xFFFFFFFF 0x0,
  rowN "CRC_n_EXPECT_HI" 0x400F1034 0x80 8 .rw 0x0 0xFFFFFFFF 0x0,
  rowN "CRC_n_RESULT_LO" 0x400F1038 0x80 8 .ro 0x0 0x0 0x0,
  rowN "CRC_n_RESULT_HI" 0x400F103C 0x80 8 .ro 0x0 0x0 0x0,
  rowN "CRC_n_CMD" 0x400F1040 0x80 8 .wo 0x0 0x0 0x0,
  rowN "CRC_n_STATUS" 0x400F1044 0x80 8 .ro 0x0 0x0 0x0,
  rowN "CRC_n_UNITS" 0x400F1048 0x80 8 .ro 0x0 0x0 0x0,
  rowN "CRC_n_MISMATCHES" 0x400F104C 0x80 8 .ro 0x0 0x0 0x0,
  rowN "CRC_n_BYTES" 0x400F1050 0x80 8 .ro 0x0 0x0 0x0]

/-- Rows of the FWU block, part 1. -/
def regRows_fwu : List RegRow := [
  row1 "FWU_CTRL" 0x40110000 .rw 0x0 0x0 0x0,
  row1 "FWU_STATUS" 0x40110004 .ro 0x0 0x0 0x0,
  row1 "FWU_INT_STATUS" 0x40110008 .w1c 0x0 0x0 0x7F,
  row1 "FWU_INT_ENABLE" 0x4011000C .rw 0x0 0x7F 0x0,
  row1 "FWU_COPY_SRC" 0x40110010 .rw 0x0 0xFFFFFFFF 0x0,
  row1 "FWU_COPY_LEN" 0x40110014 .rw 0x0 0xFFFFFFFF 0x0,
  rowNM "FWU_COPY_HASHx" 0x40110018 0x0 1 0x4 12 .rw 0x0 0xFFFFFFFF 0x0,
  row1 "FWU_RESUME_ADDR" 0x40110048 .rw 0x0 0xFFFFFFFF 0x0,
  row1 "FWU_ENTRY_ADDR" 0x4011004C .rw 0x0 0xFFFFFFFF 0x0,
  row1 "FWU_HO_TIMEOUT" 0x40110050 .rw 0xFA0 0xFFFF 0x0,
  row1 "FWU_REC_ADDR" 0x40110054 .rw 0x0 0xFFFFFFFF 0x0,
  row1 "FWU_PROB_REMAIN" 0x40110058 .rw 0x0 0xFFFFFFFF 0x0,
  row1 "FWU_LC" 0x4011005C .ro 0x0 0x0 0x0,
  row1 "FWU_LC_CMD" 0x40110060 .wo 0x0 0x0 0x0,
  row1 "FWU_ROLLBACK" 0x40110064 .ro 0x0 0x0 0x0,
  row1 "FWU_ROLLBACK_SET" 0x40110068 .wo 0x0 0x0 0x0,
  row1 "FWU_OTP_KEYS" 0x4011006C .ro 0x0 0x0 0x0,
  row1 "FWU_OTP_REVOKE" 0x40110070 .wo 0x0 0x0 0x0,
  rowNM "FWU_DBG_CHALLENGEx" 0x40110080 0x0 1 0x4 4 .ro 0x0 0x0 0x0,
  rowNM "FWU_TOKEN_x" 0x40110090 0x0 1 0x4 25 .wo 0x0 0x0 0x0,
  row1 "FWU_TOKEN_CMD" 0x401100F4 .wo 0x0 0x0 0x0,
  row1 "FWU_TOKEN_STATUS" 0x401100F8 .ro 0x0 0x0 0x0,
  rowNM "FWU_CART_x" 0x40110100 0x0 1 0x4 8 .ro 0x0 0x0 0x0,
  row1 "FWU_KEY_CMD" 0x40110200 .wo 0x0 0x0 0x0,
  row1 "FWU_KEY_STATUS" 0x40110204 .ro 0x0 0x0 0x0,
  rowNM "FWU_KEY_DATAx" 0x40110208 0x0 1 0x4 6 .wo 0x0 0x0 0x0,
  rowNM "FWU_KEY_WRAPx" 0x40110220 0x0 1 0x4 6 .ro 0x0 0x0 0x0,
  row1 "FWU_REC_CMD" 0x40110300 .wo 0x0 0x0 0x0,
  row1 "FWU_REC_LEN" 0x40110304 .rw 0x0 0xFFFFFFFF 0x0,
  row1 "FWU_REC_STATUS" 0x40110308 .ro 0x0 0x0 0x0,
  row1 "FWU_REC_IP" 0x4011030C .ro 0x0 0x0 0x0]

/-- Rows of the CAL block, part 1. -/
def regRows_cal : List RegRow := [
  row1 "CAL_CTRL" 0x40100000 .rw 0x100400 0x3FFFFF 0x0,
  row1 "CAL_STATUS" 0x40100004 .ro 0x0 0x0 0x0,
  row1 "CAL_INT_STATUS" 0x40100008 .w1c 0x0 0x0 0xF,
  row1 "CAL_INT_ENABLE" 0x4010000C .rw 0x0 0xF 0x0,
  row1 "CAL_STATUS_DRV" 0x40100010 .ro 0x0 0x0 0x0,
  row1 "CAL_JOB_DROP" 0x40100014 .ro 0x0 0x0 0x0,
  row1 "CAL_LAST_JOB" 0x40100018 .ro 0x0 0x0 0x0,
  rowN "CAL_STRn_CFG" 0x40101000 0x20 32 .rw 0x0 0xFFFF3FFF 0x0,
  rowN "CAL_STRn_GAUGE" 0x40101004 0x20 32 .ro 0x0 0x0 0x0,
  rowN "CAL_STRn_EYE" 0x40101008 0x20 32 .ro 0x0 0x0 0x0,
  rowN "CAL_STRn_RESULT" 0x4010100C 0x20 32 .ro 0x0 0x0 0x0,
  rowN "CAL_STRn_AGE_MS" 0x40101010 0x20 32 .ro 0xFFFFFFFF 0x0 0x0,
  rowN "CAL_STRn_RUNS" 0x40101014 0x20 32 .ro 0x0 0x0 0x0,
  rowN "CAL_STRn_PAUSE_US" 0x40101018 0x20 32 .ro 0x0 0x0 0x0,
  rowN "CAL_STRn_FAILS" 0x4010101C 0x20 32 .ro 0x0 0x0 0x0,
  rowN "CAL_DRVc_CFG" 0x40102000 0x20 16 .rw 0xA0003 0xFFFF0003 0x0,
  rowN "CAL_DRVc_OFFSET" 0x40102004 0x20 16 .ro 0x0 0x0 0x0,
  rowN "CAL_DRVc_CORR" 0x40102008 0x20 16 .ro 0x0 0x0 0x0,
  rowN "CAL_DRVc_GAUGE" 0x4010200C 0x20 16 .ro 0x0 0x0 0x0,
  rowN "CAL_DRVc_AGE_MS" 0x40102010 0x20 16 .ro 0xFFFFFFFF 0x0 0x0,
  rowN "CAL_DRVc_RESULT" 0x40102014 0x20 16 .ro 0x0 0x0 0x0,
  rowN "CAL_DRVc_INTERRUPTS" 0x40102018 0x20 16 .ro 0x0 0x0 0x0,
  rowN "CAL_DRVc_UNSETTLED" 0x4010201C 0x20 16 .ro 0x0 0x0 0x0,
  rowN "CAL_TRKp_EYE" 0x40103000 0x10 4 .ro 0x0 0x0 0x0,
  rowN "CAL_TRKp_AGE_MS" 0x40103004 0x10 4 .ro 0xFFFFFFFF 0x0 0x0]

/-- The rows of the block whose 64-KiB page holds address `a` (Table 1-4); MER and TRUNK have two pages each. -/
def regRowsAt (a : Nat) : List RegRow :=
  match a / 0x10000 with
  | 0x4000 => regRows_sys
  | 0x4001 => regRows_rstpwr
  | 0x4002 => regRows_mer
  | 0x4004 => regRows_trunk
  | 0x4005 => regRows_trunk
  | 0x4006 => regRows_canvas
  | 0x4007 => regRows_stitch
  | 0x4009 => regRows_strand
  | 0x400A => regRows_drive
  | 0x400B => regRows_pair
  | 0x400C => regRows_mbx
  | 0x400D => regRows_dma
  | 0x400E => regRows_skein
  | 0x400F => regRows_crc
  | 0x4010 => regRows_cal
  | 0x4011 => regRows_fwu
  | 0x4012 => regRows_host
  | 0x4013 => regRows_diag
  | _ => []

/-- Does row `r` hold the word at address `a`? -/
def RegRow.has (r : RegRow) (a : Nat) : Bool :=
  r.base ≤ a &&
    (let d := a - r.base
     if r.c1 ≤ 1 then
       (if r.c2 ≤ 1 then d == 0 else d % r.s2 == 0 && d / r.s2 < r.c2)
     else
       d / r.s1 < r.c1 &&
         (if r.c2 ≤ 1 then d % r.s1 == 0 else d % r.s1 % r.s2 == 0 && d % r.s1 / r.s2 < r.c2))

/-- The register map's row at bus address `a`, none where the map has no register. -/
def regRow (a : Nat) : Option RegRow := (regRowsAt a).find? (fun r => r.has a)

/-- The reset selection of MSI-X vector `v` (R327): vector 0 takes sources 0 to 16, vectors 1 to 29 one source each from 32 on. -/
def msixReset (v : Nat) (hi : Bool) : Nat :=
  if v == 0 then (if hi then 0 else 0x1FFFF)
  else if v ≤ 29 && hi then 2 ^ (v - 1) else 0

/-- The reset value of the word at bus address `a`: the map's, 0 where the map has no register (R5), and R327's for the
MSI-X selections. -/
def Reg.resetAt (a : Nat) : Word :=
  if 0x40120100 ≤ a && a < 0x40120200 then
    BitVec.ofNat 32 (msixReset ((a - 0x40120100) / 8) ((a - 0x40120100) % 8 == 4))
  else
    match regRow a with
    | some r => BitVec.ofNat 32 r.reset
    | none => 0#32

end Sys2Proof.Machine
end

