-- ==== Sys2Proof/Machine/Tab.lean ====
section
/-!
DEFINITION. Sparse tables: the one form in which State holds a register file, a memory and every table of like units.
A table lists the entries that differ from their default, by strictly rising key, so that equal contents are equal lists.
-/
namespace Sys2Proof.Machine

/-- A sparse table: key and value pairs; a key not listed holds its default. -/
abbrev Tab (α : Type) : Type := List (Nat × α)

/-- The value at key `i`; `d` gives the value of a key that is not listed. -/
def Tab.get {α : Type} (d : Nat → α) (t : Tab α) (i : Nat) : α :=
  match t with
  | [] => d i
  | (k, x) :: r => if k = i then x else Tab.get d r i

/-- The table without an entry for key `i`. -/
def Tab.erase {α : Type} (t : Tab α) (i : Nat) : Tab α :=
  match t with
  | [] => []
  | (k, x) :: r => if k = i then Tab.erase r i else (k, x) :: Tab.erase r i

/-- The table with `(i, x)` put before the first larger key. -/
def Tab.put {α : Type} (t : Tab α) (i : Nat) (x : α) : Tab α :=
  match t with
  | [] => [(i, x)]
  | (k, y) :: r => if i < k then (i, x) :: (k, y) :: r else (k, y) :: Tab.put r i x

/-- The table with `x` at key `i`; writing the default removes the entry. -/
def Tab.set {α : Type} [DecidableEq α] (d : Nat → α) (t : Tab α) (i : Nat) (x : α) : Tab α :=
  if x = d i then t.erase i else (t.erase i).put i x

/-- The canonical form: keys strictly rising from above `lo`, no entry equal to its default. -/
def Tab.wfFrom {α : Type} [DecidableEq α] (d : Nat → α) : Option Nat → Tab α → Bool
  | _, [] => true
  | lo, (k, x) :: r =>
    (match lo with
     | none => true
     | some l => decide (l < k)) && decide (x ≠ d k) && Tab.wfFrom d (some k) r

/-- The canonical form of a whole table. -/
def Tab.wf {α : Type} [DecidableEq α] (d : Nat → α) (t : Tab α) : Bool := Tab.wfFrom d none t

end Sys2Proof.Machine
end

