-- ==== Sys2Proof/Machine/State.lean ====
section
/-!
DEFINITION. The state of the TZ7740 as plain data: the register file, the memory, everything the spec gives the block beside
its registers, what has left the block so far, and the queue of waiting commands; and the state right after reset.
Registers that have an address live in `regs` (see RegMap.lean for their rows); a field below is state that has none.
-/
namespace Sys2Proof.Machine

/-- Bits of a status register that hardware has set in a clock (R7). -/
structure Raised where
  /-- The bits. -/
  bits : Nat := 0
  /-- Those of them that would be set without that: set before, and not cleared since. -/
  was : Nat := 0
  deriving DecidableEq, Repr

/-- An output pin of the device. -/
inductive Pin where
  /-- EVT_OUT pin k (R84). -/
  | evtOut (k : Nat)
  /-- The pulse-per-second output (R86). -/
  | ppsOut
  /-- The partner heartbeat output (R285). -/
  | aliveOut
  /-- The reset-scope and power pins of Table 14-7. -/
  | dormantOut
  | thermShutN
  | resetOutN
  | flResetN
  | pwrEn (k : Nat)
  | intN
  | hqIntN
  /-- GATE and DIM of local drive channel c. -/
  | gate (c : Nat)
  | dim (c : Nat)
  deriving DecidableEq, Repr


/-- What leaves the block: the answers to accesses, edges on pins, frames on the strands and on the trunk, messages to the host.
They stand in the order in which they left. -/
inductive Output where
  /-- The completion of a register read; `err` is the error response of R10. -/
  | readDone (who : Sys2Proof.Requester) (addr : Nat) (value : Word) (err : Bool)
  /-- The completion of a register write; `err` is the error response of R10. -/
  | writeDone (who : Sys2Proof.Requester) (addr : Nat) (err : Bool)
  /-- A pin takes a level. -/
  | pin (p : Pin) (level : Bool)
  /-- A pin takes a level at an instant of time base `tb`, in 250 ps since its epoch (R60, R82, R85). -/
  | pinAt (p : Pin) (level : Bool) (tb : Nat) (slot : Int)
  /-- An Itren frame on strand port `n` (TX of the port). -/
  | strandTx (n : Nat) (bytes : List Byte)
  /-- A DMX or RDM packet on strand port `n`: its break, mark after break and inter-slot mark in microseconds, and its slots. -/
  | dmxTx (n brk mab idt : Nat) (bytes : List Byte)
  /-- A DALI forward frame on strand port `n`, its first byte first. -/
  | daliTx (n : Nat) (bytes : List Byte)
  /-- The DALI forward frame that strand port `n` is sending stops where it is (R218). -/
  | daliStop (n : Nat)
  /-- The levels of TXP, TXN and RXN of strand port `n` under FUNC 1 or 2, outside the bits of a packet or frame (R209); none where the
  pads are Itren's again. -/
  | strandPads (n : Nat) (levels : Option (Bool × Bool × Bool))
  /-- The transmitter of trunk port `p` goes to electrical idle, or leaves it (R255, R371, R373). -/
  | trunkIdle (p : Nat) (idle : Bool)
  /-- The PCIe transmitters go to electrical idle, or leave it (R373). -/
  | pcieIdle (idle : Bool)
  /-- A frame leaves by trunk port `p`, from its destination address to its FCS. -/
  | trunkTx (p : Nat) (bytes : List Byte)
  /-- A frame that leaves a node by Port-1 or Port-2, by strand and place on the chain. -/
  | nodeTx (strand node : Nat) (port2 : Bool) (bytes : List Byte)
  /-- Node `node` of strand `strand` presents these values; none for off. -/
  | nodeShow (strand node : Nat) (bytes : Option (List Byte))
  /-- The light of an E24 element of a node over its pulse period: D, and fragments (start, length) in 0.25 ns (R165). -/
  | nodePulse (strand node element step : Nat) (start : Int) (frags : List (Nat × Nat))
  /-- The light of drive channel `c` over its pulse period: whether only the first pulse of the frame is meant, D (0 for off), and
  fragments (start, length) in 0.25 ns (R232, R247). -/
  | drvLight (c : Nat) (once : Bool) (step : Nat) (frags : List (Nat × Nat))
  /-- The switching cycle of drive channel `c` from its next period on (R230): its period in units of 2^-48 ns, the 12-bit DAC code D, what the
  registers give of the peak command V_pk in microvolts, RIPPLE_K in units of 1/256 s^-1, LEB in nanoseconds, and SLOPE in units of 1/256
  mV/µs. V_pk is `base` plus half of RIPPLE_K times the V_str and t_off of the switching period before, which the regulator itself has. -/
  | drvSwitch (c period dac : Nat) (base : Int) (ripple leb slope : Nat)
  /-- A transaction on sensor bus `bus`: a write of register pointer `reg` to address `addr`, a repeated start and a read of `n` bytes
  (R243). -/
  | i2c (bus addr reg n : Nat)
  /-- A PRBS-7 pattern of `us` microseconds leaves a node (R205, R415). -/
  | nodePattern (strand node : Nat) (port2 : Bool) (us : Nat)
  /-- An MSI-X message (R327). -/
  | msix (vector : Nat)
  /-- The data phase of a QSPI transaction (R318). -/
  | qspi (bytes : List Byte)
  /-- The interrupt that CC0 or CC1 has from the mailboxes and doorbells comes or goes (R323, R327). -/
  | coreIrq (cc1 level : Bool)
  /-- An IGMPv3 join of an IPv4 group that firmware makes, with its source filter, 0 for none (R265, Table 12-8). -/
  | igmpJoin (group source : Nat)
  /-- A write to host memory. -/
  | hostWrite (addr : Nat) (bytes : List Byte)
  deriving DecidableEq, Repr

/-- A staged value of a RWC register (R8). -/
structure StagedWord where
  /-- The word last written. -/
  word : Word := 0#32
  /-- The fabric clock of that write. -/
  clock : Nat := 0
  /-- What an earlier clock had staged, which a commit in `clock` takes. -/
  before : Option Word := none
  deriving DecidableEq, Repr

/-- The state of one Atlas region beside its block number (R19): what a commit would switch. -/
inductive RegionStage where
  /-- No write since the last commit. -/
  | none
  /-- An ATLAS_WRITE waits for its spare block (R139). -/
  | waiting
  /-- An ATLAS_WRITE has landed in spare block `block`. -/
  | staged (block : Nat)
  deriving DecidableEq, Repr

/-- A write to an Atlas region that has not landed (R139): its entries by index in the region. -/
structure AtlasWrite where
  region : Nat
  entries : List (Nat × List Byte)
  /-- A commit named the region before the write landed (R19). -/
  commitWaits : Bool
  deriving DecidableEq, Repr

/-- From fabric clock `clock` on, a time base counts from `time`, by `inc` a clock (R35). -/
structure TbPoint where
  clock : Nat
  time : Nat
  inc : Nat
  deriving DecidableEq, Repr

/-- The state of a time base that has no register (R34 to R47). -/
structure TimeBase where
  /-- The time in units of 2^-48 ns. -/
  time : Nat := 0
  /-- The servo integrator, in units of 2^-40 ppb (log entry 6). -/
  integ : Int := 0
  /-- Samples in a row within LOCK_THRESH. -/
  good : Nat := 0
  /-- Samples in a row beyond LOCK_THRESH. -/
  bad : Nat := 0
  /-- The time base's own reading at the last accepted sample. -/
  lastSample : Option Nat := none
  /-- The fabric clock of the last set or step (R37). -/
  setClock : Option Nat := none
  /-- The fabric clock of the last ACCEPT_JUMP write (R43), and whether JUMP_ARMED was set before that clock. -/
  armClock : Option Nat := none
  armedBefore : Bool := false
  /-- The value that SET loads on the next clock (R37). -/
  setNext : Option Nat := none
  /-- The samples of this clock, in units of 2^-16 ns, oldest first: they act as it ends, for a set or a step of the clock discards them
  (R37). -/
  samples : List Int := []
  /-- The fabric clock of the last sample that was not discarded, and of a SAMPLE_TIMEOUT that has not yet acted (R47). -/
  sampleClock : Option Nat := none
  timeoutClock : Option Nat := none
  /-- The readings from which the time base has counted at one rate, newest first, of the last 10 ms (R48). -/
  hist : List TbPoint := []
  /-- Rising edges of CLK10M_IN since the last sample (R38). -/
  edges10m : Nat := 0
  /-- The first sample of PPS_10M has been taken (Table 2-2). -/
  ppsTaken : Bool := false
  deriving DecidableEq, Repr

/-- An entry of a transmit timestamp queue (Table 2-7). -/
structure TxStamp where
  tb : Nat
  id : Nat
  sec : Nat
  ns : Nat
  subns : Nat
  deriving DecidableEq, Repr

/-- The stamps that a transmit timestamp queue has lost in one clock (R53). -/
structure TsqLost where
  clock : Nat
  /-- The stamps, oldest first: a removal of the same clock keeps the first. -/
  items : List TxStamp
  /-- TRK_Pp_TSQ_LOST and TRK_Pp_TSQ_FIRSTLOST before. -/
  lost : Nat
  first : Nat
  deriving DecidableEq, Repr

/-- A linear model of a Meridian (R60): position (`frame`, `sub`) at instant `t`, one tick every `period`. -/
structure MerModel where
  /-- T_A, in units of 2^-48 ns of the Meridian's time base. -/
  t : Int := 0
  /-- FRAME of P_A. -/
  frame : Nat := 0
  /-- TICK.FRAC of P_A, in units of 2^-16 tick. -/
  sub : Int := 0
  /-- P, in units of 2^-32 ns. -/
  period : Nat := 4294967296000
  deriving DecidableEq, Repr

/-- A queued Bearing model (R76). -/
structure QueuedModel where
  model : MerModel
  locked : Bool
  deriving DecidableEq, Repr

/-- A segment of a publishing Meridian that is not yet in effect (R73). -/
structure Segment where
  frame : Nat
  period : Nat
  deriving DecidableEq, Repr

/-- The state of a Meridian that has no register (R59 to R79). -/
structure Meridian where
  /-- The model in use; not consulted while `byDef` holds. -/
  model : MerModel := {}
  /-- A time-defined Meridian that is not slewing: the position follows Table 3-2. -/
  byDef : Bool := false
  /-- While SLEWING: the model the slew leads to, and whether it is the definition of Table 3-2. -/
  target : Option (MerModel × Bool) := none
  /-- The loop integrator, in units of 2^-40 ppb (log entry 6). -/
  integ : Int := 0
  /-- The loop's frequency word, in 1/4 ppb (R67); MERm_FREQ shows the one in effect. -/
  freq : Int := 0
  /-- The sum and number of edge errors since the last update (R67), in 2^-48 ns. -/
  decimSum : Int := 0
  decimCount : Nat := 0
  /-- The instant of the last update. -/
  lastUpdate : Option Int := none
  /-- Updates in a row within, and beyond, LOCK_THRESH. -/
  good : Nat := 0
  bad : Nat := 0
  /-- Expected edges in a row missing. -/
  missRun : Nat := 0
  /-- The instant of the last accepted reference edge. -/
  lastEdge : Option Int := none
  /-- FSYNC edges in a row that were misplaced (R65). -/
  misplaced : Nat := 0
  /-- After a mode change FRAME continues from the running count (R79). -/
  keepFrame : Bool := false
  /-- The frame number of the last decoded timecode (R65). -/
  ltcLast : Option Nat := none
  /-- Models queued, oldest first (R76). -/
  queue : List QueuedModel := []
  /-- A model has been loaded since the Meridian left OFF (Table 3-4). -/
  modelLoaded : Bool := false
  /-- BEARING_TIMEOUT has passed since the last model; the fabric clock of the last model. -/
  bearingStale : Bool := false
  modelAt : Nat := 0
  /-- The fabric clocks of the COMMITs not yet applied, oldest first (R78). -/
  commits : List Nat := []
  /-- MAINS: the position of the last edge used, from which the multiples of 4,096 ticks count (R65). -/
  edgeRef : Nat × Nat := (0, 0)
  /-- The fabric clock at which the gap began (R79). -/
  gapClock : Option Nat := none
  /-- Published segments not yet in effect (R73). -/
  segments : List Segment := []
  /-- The mode's generation, for Bearings (Table 3-5). -/
  generation : Nat := 0
  /-- A jump since the last Bearing (Table 3-5, FLAGS). -/
  jumpSinceBearing : Bool := false
  /-- GENERATION of the last Bearing accepted (R77). -/
  bearingGen : Option Nat := none
  /-- While the time base is OFF: its last reading and the fabric clock of it (R454). -/
  coast : Option (Int × Nat) := none
  deriving DecidableEq, Repr

/-- A Waypoint entry (Table 3-7) that is valid. -/
structure Waypoint where
  w0 : Nat := 0
  w1 : Nat := 0
  w2 : Nat := 0
  w3 : Nat := 0
  /-- The entry has been armed (R80). -/
  armed : Bool := false
  /-- The last instance of a periodic entry that has been dealt with: it fired, or passed before the entry counted (R72, R80, R83). -/
  done : Option (Nat × Nat) := none
  /-- The entry waits to fire late: a pin edge then lands 3.0 ns after the firing clock (R83). -/
  late : Bool := false
  deriving DecidableEq, Repr

/-- A Waypoint entry that is late or deferred and has not fired (R82, R83): the fabric clock in which it fell due, and whether it has counted
as deferred. -/
structure WptDue where
  clock : Nat
  index : Nat
  deferred : Bool := false
  deriving DecidableEq, Repr

/-- A Waypoint entry that a CANCEL or a WRITE has taken out of the table, which still fires in that clock if it falls due in it (R84). -/
structure WptGone where
  clock : Nat
  index : Nat
  entry : Waypoint
  deriving DecidableEq, Repr

/-- A pin action of a Waypoint on its way to the pin (R82, R85). -/
structure PinAction where
  /-- EVT_OUTk. -/
  pin : Nat
  /-- 0 pulse, 1 set, 2 clear, 3 toggle (Table 3-8). -/
  kind : Nat
  /-- The Waypoint entry. -/
  index : Nat
  /-- The time base of its Meridian, and the instant in it, in 250 ps since the epoch. -/
  tb : Nat
  slot : Int
  deriving DecidableEq, Repr

/-- An entry of an EVT_IN queue (Table 3-9), words F0 to F5. -/
structure EvtCapture where
  words : List Nat
  deriving DecidableEq, Repr

/-- The captures that an EVT_IN queue has lost in one clock (R86). -/
structure EvtLost where
  clock : Nat
  /-- The captures, oldest first: a removal of the same clock keeps the first. -/
  items : List EvtCapture
  /-- EVT_INj_LOST before. -/
  lost : Nat
  deriving DecidableEq, Repr


/-- A source frame under reception (R101 to R104). -/
structure CnvFrame where
  /-- The source frame number: the RTP timestamp, or FRAME of the Sheet stream. -/
  id : Nat
  /-- The distinct sequence numbers received. -/
  seqs : List Nat := []
  /-- The sequence number its first packet must have, where the last packet of the frame before is known (R101). -/
  first : Option Nat := none
  /-- The sequence number of the packet with the marker bit (R101), and the fabric clock at which the marker was first seen. -/
  last : Option Nat := none
  markedAt : Nat := 0
  /-- The frame is discarded and has been counted in CNV_SKIP_COUNT (R106). -/
  skipped : Bool := false
  /-- An explicit commit has taken the buffer in the middle of the frame (R107). -/
  taken : Bool := false
  /-- SOURCE and EMITTER the frame is received from (R104). -/
  source : Nat := 0
  emitter : Nat := 0
  deriving DecidableEq, Repr

/-- A packet of a region emitter that waits for the pace (R116). -/
structure RePacket where
  emitter : Nat
  /-- The source frame, and the buffer that it is read from. -/
  id : Nat
  buf : Nat
  frame : List Byte
  deriving DecidableEq, Repr

/-- Samples `x` to `x + n` - 1 of line `line` of a plane, in the raster coordinates of the plane's own grid. -/
structure CnvSpan where
  plane : Nat
  line : Nat
  x : Nat
  n : Nat
  deriving DecidableEq, Repr

/-- The state of the canvas block that has no register (R91 to R116). -/
structure Canvas where
  /-- The latch cycle of the FRAME value the position is in has passed (R108). -/
  latchDone : Bool := false
  /-- The frame under reception. -/
  frame : Option CnvFrame := none
  /-- Merged frames that are skipped and have not ended, newest first, beside the frame under reception (R102, R106). -/
  skipping : List CnvFrame := []
  /-- A frame has begun, skipped, after the one under reception. -/
  passed : Bool := false
  /-- The fabric clocks of the APPLYs not yet in effect, oldest first (R93, R117). -/
  applies : List Nat := []
  /-- Frames that have ended, latest first, at most 64 (log entry 15). -/
  ended : List Nat := []
  /-- The extended sequence number of the last packet of the ST 2110 frame that began last, where its marker is known. -/
  lastSeq : Option Nat := none
  /-- An automatic commit is due (R107). -/
  autoDue : Bool := false
  /-- The fabric clock of the last commit (R108). -/
  commitAt : Nat := 0
  /-- The source frame number of what the back buffer holds. -/
  backFrame : Nat := 0
  /-- Sequence numbers of the merge window and the paths that delivered them: 1 A, 2 B, 3 both (R102). -/
  window : List (Nat × Nat) := []
  /-- The newest sequence number of the merge window. -/
  newest : Option Nat := none
  /-- Meridian frames in a row without a packet, per path (R102). -/
  idleA : Nat := 0
  idleB : Nat := 0
  /-- The running frame has a packet of path A, of path B. -/
  busyA : Bool := false
  busyB : Bool := false
  /-- Meridian frames in a row without a commit while ingest is enabled (R112). -/
  lossFrames : Nat := 0
  /-- The running frame does not count: it has a commit, or ingest was not enabled through all of it. -/
  lossPart : Bool := true
  /-- A requested host fetch has not started (R105). -/
  hostWaiting : Bool := false
  /-- The back buffer receives, or holds, a frame that is neither committed nor given up (R115). -/
  reOpen : Bool := false
  /-- The source frame that the region emitters are sending (R115). -/
  reFrame : Option Nat := none
  /-- Per emitter: the next band and the next SEQ. -/
  reBand : Tab Nat := []
  reSeq : Tab Nat := []
  /-- What the frame that the back buffer receives has written (R115). -/
  written : List CnvSpan := []
  /-- Packets that wait for the pace, oldest first, and the fabric clock from which the next may leave (R116). -/
  reOut : List RePacket := []
  reNext : Nat := 0
  deriving DecidableEq, Repr


/-- The live state of a Motif engine (R166, R167). -/
structure MotifLive where
  t : Nat := 0
  step : Nat := 0
  running : Bool := false
  /-- The page selected at the last snapshot. -/
  page : Nat := 0
  deriving DecidableEq, Repr

/-- What the batches of a frame use (R156, R157, R167): LIMIT scales by set, Motif snapshots (T, STEP, page) by engine, and the
trims of the groups in SENSOR mode. -/
structure FrameSnap where
  scales : Tab Nat := []
  motifs : Tab (Nat × Nat × Nat) := []
  trims : Tab (List Nat) := []
  /-- The bank presented of each E1.31 receive universe (R222). -/
  banks : Tab Nat := []
  deriving DecidableEq, Repr

/-- A deadline of a batch (R120): a position of its Meridian (FRAME, TICK.FRAC), or an instant in units of 2^-48 ns. -/
inductive Deadline where
  | pos (frame sub : Nat)
  | inst (t : Int)
  deriving DecidableEq, Repr

/-- The states of Table 5-5; a batch that has left its context leaves the list. `due` is a BLOCKED batch whose clock
of becoming READY stands (R119, R126). -/
inductive BatchState where
  | blocked | due | ready | active | cancelled
  deriving DecidableEq, Repr

/-- A node of an ACTIVE batch; `failed` is in flight with an uncorrectable read (Table 1-13), `ringWait` an EMIT in flight without ring
space (R125). -/
inductive NodeState where
  | waiting | inFlight | failed | ringWait | retired
  deriving DecidableEq, Repr

/-- A batch of Stitches (R119, R126). -/
structure Batch where
  /-- Its number in release order. -/
  id : Nat
  run : Nat
  idx : Nat
  flow : Nat
  sub : Nat
  prio : Nat
  mer : Nat
  frame : Nat
  row : Nat
  first : Nat
  count : Nat
  /-- k of its first Stitch (R124). -/
  base : Nat
  deadline : Deadline
  state : BatchState
  /-- The order in which it became ACTIVE. -/
  seq : Nat := 0
  lane : Nat := 0
  ctx : Nat := 0
  /-- The program buffer and Contour bank it uses, and its PROGRAM_ID. -/
  buf : Nat
  bank : Nat
  prog : Nat
  /-- The fabric clock of its Row's release. -/
  released : Nat
  /-- The region table at its release (R139). -/
  regions : Tab Nat := []
  snap : FrameSnap := {}
  /-- Its nodes that have dispatched, by index; and their values per Stitch. -/
  nodes : Tab NodeState := []
  values : Tab (List (List Nat)) := []
  /-- The fabric clock in which it becomes, or became, READY (R126, R132). -/
  readyAt : Nat := 0
  deriving DecidableEq, Repr

/-- An entry of the delay store (R134): its list, due position, and item (Table 5-6). -/
structure DelayEntry where
  slot : Nat
  mer : Nat
  frame : Nat
  sub : Nat
  kind : Nat
  flags : Nat
  target : Nat
  value : Nat
  period : Nat
  deriving DecidableEq, Repr

/-- A batch that its START_ROW releases and the scheduler has not entered yet (R119). -/
structure Release where
  mer : Nat
  frame : Nat
  row : Nat
  run : Nat
  idx : Nat
  /-- k of its first Stitch (R124). -/
  base : Nat
  /-- The program buffer, the Contour bank and the PROGRAM_ID of its START_ROW, and the fabric clock of the release. -/
  buf : Nat
  bank : Nat
  prog : Nat
  clock : Nat
  deriving DecidableEq, Repr

/-- A staged parameter write (R133, R8): APPLY_AT 1 or 2, the value, the fabric clock of the write, and what an earlier clock had staged
there, which a boundary of this clock takes. -/
structure ParamStage where
  mode : Nat
  value : Nat
  clock : Nat
  before : Option (Nat × Nat) := none
  deriving DecidableEq, Repr

/-- The parameter writes of one clock (R133). -/
structure ParamClock where
  clock : Nat := 0
  /-- Of the parameters that a NOW write has set: the values before, which nodes of the clock still see. -/
  was : Tab (Option Nat) := []
  /-- What the register has written: index, and whether with NOW; it wins over delay expiries of the clock. -/
  reg : List (Nat × Bool) := []
  deriving DecidableEq, Repr

/-- An event source of the Stitch engine that a full trace buffer holds (R141): the release of a Row, a cancel, the swap. -/
inductive StcAct where
  | release (mer frame row : Nat)
  | deadline (id : Nat)
  | flow (flow : Nat)
  | halt
  | swap
  deriving DecidableEq, Repr

/-- The Stitch engine beside its registers. -/
structure Stitch where
  batches : List Batch := []
  /-- Numbers of the next batch and of the next ACTIVE event. -/
  nextId : Nat := 0
  nextSeq : Nat := 0
  /-- The Contour bank in effect, and the slots by 4 times the bank plus the slot (R137). -/
  bank : Nat := 0
  contours : Tab (Option (List Nat)) := []
  /-- A program is in effect; the buffer that LOAD named. -/
  loaded : Bool := false
  stagedBuf : Nat := 0
  /-- The fabric clock in which STAGED was set (R137). -/
  stagedAt : Nat := 0
  /-- Staged parameter writes, and the writes of the last clock that had any (R133). -/
  staged : Tab (Option ParamStage) := []
  params : ParamClock := {}
  /-- The delay lists, in order of insertion. -/
  delays : List DelayEntry := []
  /-- LIMIT demand by budget set (R157). -/
  demand : Tab Nat := []
  /-- What frames released from now on use. -/
  snap : FrameSnap := {}
  motifs : Tab MotifLive := []
  /-- Trace records not yet in the ring (R141), and those an event source is held by. -/
  trcBuf : List (List Byte) := []
  trcHeld : List (List Byte) := []
  /-- What waits while an event source is held (R141). -/
  acts : List StcAct := []
  /-- The fabric clock in which a lane began its last node (R128), and that of the last context assigned with the number assigned in it
  (R127). -/
  began : Tab (Option Nat) := []
  given : Nat × Nat := (0, 0)
  /-- Batches to be released, in order, and the fabric clock of the last release with the number released in it (R119). -/
  releasing : List Release := []
  entered : Nat × Nat := (0, 0)
  /-- The fabric clock of the last flow cancel, and its flows: whether one had, or has since had, a batch READY or ACTIVE (R132). -/
  cancelAt : Nat := 0
  cancelFlows : List (Nat × Bool) := []
  /-- The fabric clock of the last delay expiry and the number of expiries in it (R134). -/
  expired : Nat × Nat := (0, 0)
  trcSeq : Nat := 0
  /-- Records still to be stored after the trigger. -/
  trcPost : Nat := 0
  /-- TICKS_PER_FRAME of each Meridian's frame processed last (R167). -/
  frameTpf : Tab Nat := []
  /-- The position of the last START_FRAME of each Meridian, and START_ROWs (Meridian, FRAME, Row) that wait for the one of their
  position (R119). -/
  frameAt : Tab (Option (Nat × Nat)) := []
  relWait : List (Nat × Nat × Nat) := []
  deriving DecidableEq, Repr


/-- A line of a Row plan (R181, R182): its span in the Row stream, its planned launch and deadline (instants of the Meridian in
units of 2^-48 ns), and how far it has come: 0 in the ring, 1 content fixed and waiting for the port buffer, 2 moved. -/
structure LinePlan where
  ofs : Nat
  n : Nat
  launch : Int
  deadline : Int
  skipped : Bool
  stage : Nat := 0
  deriving DecidableEq, Repr

/-- The plan of a Row's lines (R181), and the spans of its Row stream that EMIT has delivered (R125). -/
structure RowPlan where
  frame : Nat
  row : Nat
  lines : List LinePlan
  spans : List (Nat × Nat) := []
  /-- Under FUNC 1: the spans of the batches released for the Row (R212). -/
  want : List (Nat × Nat) := []
  deriving DecidableEq, Repr

/-- An Itren frame that waits for the wire (Tables 7-3 and 7-5): a clone keeps its source's SEQ (R171). -/
structure TxFrame where
  type : Nat
  flags : Nat := 0
  addr : Nat := 0xFFFF
  seq : Option Nat := none
  payload : List Byte
  /-- The instant, in quarter nanoseconds of the fabric clock, before which a clone does not start (R172). -/
  after : Int := 0
  /-- The CRC of a DATA frame's line, computed when the line moved (R186). -/
  lineCrc : Option Nat := none
  deriving DecidableEq, Repr

/-- The reply-soliciting frame that is outstanding (R190): a SURVEY, or a QUERY of firmware. -/
structure Ask where
  survey : Bool
  addr : Nat
  seq : Nat
  /-- Its stamp (R48), and when it left, in quarter nanoseconds of the fabric clock. -/
  stamp : Nat
  sent : Int
  deriving DecidableEq, Repr

/-- A Survey in progress (R190): the C_k so far, in 0.25 ns, first node first. -/
structure Survey where
  cks : List Nat := []
  abort : Bool := false
  deriving DecidableEq, Repr

/-- The state of a strand port that has no register (R179 to R207). -/
structure StrPort where
  /-- Row plans whose lines have not all left the ring, oldest first. -/
  plans : List RowPlan := []
  /-- Frames in the port buffer, and lines whose content is fixed and wait for it, in stream order. -/
  queue : List TxFrame := []
  fixed : List TxFrame := []
  /-- Reserved Row-start frames, hardware control frames and the firmware control frame (R183). -/
  resv : List TxFrame := []
  hw : List TxFrame := []
  fw : Option TxFrame := none
  seq : Nat := 0
  /-- When the wire is free, and an instant of the symbol grid, in quarter nanoseconds of the fabric clock. -/
  wireFree : Int := 0
  grid : Int := 0
  /-- The latest frame whose last Row was planned; the FRAME of the last LATCH without REPEAT; the latest frame whose LATCH
  instant has come (R192). -/
  lastFull : Option Nat := none
  /-- When that Row was planned, in quarter nanoseconds of the fabric clock, and the frame before it (R192). -/
  fullAt : Int := 0
  fullWas : Option Nat := none
  lastLatch : Option Nat := none
  latchF : Option Nat := none
  /-- Positions of STRAND_LATCH instances launched, and late ones that wait (R191). -/
  launched : List (Nat × Nat) := []
  late : Nat := 0
  /-- Frames planned lately (R182). -/
  planned : List Nat := []
  /-- Per line, by 8,192 times the Row plus the line: FRAME, CRC of its bytes and FILL, this frame's and the one before (R187, R299). -/
  crcs : Tab (List (Nat × Nat × Bool)) := []
  ask : Option Ask := none
  survey : Option Survey := none
  /-- ASSIGN frames of a Survey not yet sent, and the lead that takes effect after them: C of the last node, nodes, epoch. -/
  assigns : Nat := 0
  leadDue : Option (Nat × Nat × Nat) := none
  /-- C of the last node and the nodes of the lead in force; the newest epoch. -/
  leadIn : Option (Nat × Nat) := none
  epoch : Nat := 0
  /-- EN has been set and the frame boundary has not come (R189). -/
  startDue : Bool := false
  /-- EN has been cleared and the frame on the wire has not ended (R189). -/
  stopDue : Bool := false
  /-- A ring's secondary has become active and sends from the next Row start (R199, R297). -/
  joinDue : Bool := false
  /-- PARK frames to queue, and sent; the port is PARKED until EN is cleared and set (R204). -/
  parkLeft : Nat := 0
  parkSent : Nat := 0
  /-- A rate for which a RATE frame has yet to be queued, and one whose RATE frame has left (R196). -/
  rateDue : Option Nat := none
  rateSent : Option Nat := none
  /-- RATE_AUTO (R197): symbols sent in the frame, a line skipped, every line fits at the next lower rate, frames in a row. -/
  airSyms : Nat := 0
  autoSkip : Bool := false
  autoFit : Bool := true
  autoRun : Nat := 0
  /-- Rows since the primary's CLAIM, whether it came in this Row, Rows in a row with it, and a heal that is due (R199). -/
  claimGap : Nat := 0
  claimSeen : Bool := false
  healRows : Nat := 0
  healDue : Bool := false
  /-- A SHUTTER frame waits for its slot. -/
  shutter : Bool := false
  /-- CRCs of originated frames that read-back has yet to check, oldest first (R201). -/
  rbExpect : List Nat := []
  deriving DecidableEq, Repr

/-- A node of a strand (R200 to R205): its stored part, and what it holds while powered. -/
structure Node where
  addr : Nat := 0x7FFF
  /-- ASSIGN page 1 (Table 7-5). -/
  enc : Nat := 0
  row : Nat := 0
  pulse : Nat := 0
  ofs : Nat := 0
  bytes : Nat := 0
  hold : Nat := 0
  phase : Nat := 0
  /-- The fail-safe scene. -/
  scene : Option (List Byte) := none
  /-- ASSIGN page 0 per side: the pending set, then the current one, as (EPOCH, LOFS_SYM, LOFS_NS). -/
  lofs1 : List (Nat × Nat × Nat) := []
  lofs2 : List (Nat × Nat × Nat) := []
  /-- The pending buffers of even and odd FRAMEs: marked bytes by index (R202). -/
  buf0 : Tab (Option Byte) := []
  buf1 : Tab (Option Byte) := []
  /-- The presented values; none while the node is off. -/
  shown : Option (List Byte) := none
  /-- 0 NORMAL, 1 HOLD, 2 FAILSAFE, 3 PARKED, 4 UNASSIGNED. -/
  state : Nat := 4
  /-- The selected side is Port-2. -/
  side2 : Bool := false
  /-- The switch to the other side waits for the next latch (R200). -/
  switchDue : Bool := false
  /-- The last claim at each port, the fabric clock at which it was heard, and its TIMEOUT in nanoseconds (R200). -/
  claim1 : Option Nat := none
  claim2 : Option Nat := none
  claimAt1 : Nat := 0
  claimAt2 : Nat := 0
  claimTo1 : Nat := 0
  claimTo2 : Nat := 0
  /-- Accepted LATCH frames whose latch has not come: FRAME, REPEAT, and the latch instant in quarter nanoseconds. -/
  latches : List (Nat × Bool × Int) := []
  /-- PERIOD of the latest LATCH, the frame start that its NEXT_FS names in quarter nanoseconds of the fabric clock, ROWS, and the windows
  of the latest SHUTTER, in force and to come. -/
  period : Nat := 0
  frameStart : Int := 0
  rows : Nat := 1
  windows : List (Nat × Nat) := []
  windowsNext : Option (List (Nat × Nat)) := none
  /-- The fabric clock of the last restart of the hold timer, and of entering PARKED with its limit in minutes. -/
  holdFrom : Nat := 0
  park : Option (Nat × Nat) := none
  /-- The rate of its TX pairs, none for the rate of its strand's port, and one to switch to. -/
  rate : Option Nat := none
  rateNext : Option Nat := none
  /-- A CALIB waiting for its pattern: the requester's port is Port-2, LENGTH_US, and the fabric clock of its K29.7; the port and end of a
  pattern running. -/
  calib : Option (Bool × Nat × Nat) := none
  pattern : Option (Bool × Nat) := none
  /-- Counters of page 1 in its order, and frames dropped during a pattern. -/
  crc1 : Nat := 0
  crc2 : Nat := 0
  los1 : Nat := 0
  los2 : Nat := 0
  holds : Nat := 0
  fails : Nat := 0
  switches : Nat := 0
  powerUps : Nat := 0
  delayed : Nat := 0
  noEpoch : Nat := 0
  dropped : Nat := 0
  /-- Window clips (R164). -/
  windowClips : Nat := 0
  deriving DecidableEq, Repr


/-- The part of an alternate-function record that the hardware reads when EN is set, each value inside its range (Table 8-2). -/
structure AltRec where
  brk : Nat := 176
  mab : Nat := 12
  idt : Nat := 0
  rowdiv : Nat := 1
  keep : Nat := 800
  flags : Nat := 0
  retry : Nat := 3
  rdmBrk : Nat := 176
  rdmMab : Nat := 12
  respWait : Nat := 2800
  rdmWait : Nat := 50
  deriving DecidableEq, Repr

/-- What a DMX line carries: nothing, a null start code packet, an RDM request, or the time in which a response may come. -/
inductive DmxLine where
  | idle | packet | request | response
  deriving DecidableEq, Repr

/-- An RDM request (Table 8-4), taken in fabric clock `asked`; `take` once no gap has come within RDM_WAIT_MS. -/
structure RdmReq where
  tag : Nat
  kind : Nat
  addr : Nat
  msg : List Byte
  asked : Nat := 0
  take : Bool := false
  deriving DecidableEq, Repr

/-- A DALI transaction (Table 8-6): collisions so far, the start of the first of two frames, which of the two, and its phase: 0 waits
to start, 1 sending, 2 in the answer window. -/
structure DaliReq where
  tag : Nat
  flags : Nat
  frame : Nat
  tries : Nat := 0
  first : Nat := 0
  second : Bool := false
  phase : Nat := 0
  deriving DecidableEq, Repr

/-- A strand port as DMX512-A or DALI-2 controller (R208 to R219). -/
structure AltPort where
  /-- FUNC in effect. -/
  func : Nat := 0
  cfg : AltRec := {}
  /-- The slot buffer by slot less 1. -/
  slots : Tab Nat := []
  /-- Row starts since EN. -/
  rows : Nat := 0
  line : DmxLine := .idle
  /-- The fabric clock of the last break, or of EN; and the one before which no break starts. -/
  lastBreak : Nat := 0
  notBefore : Nat := 0
  /-- A due packet waits for that clock; packets fell due while a response could come, at these clocks; one starts late. -/
  held : Bool := false
  /-- What waits for it is the request that takes the packet's place (R214). -/
  heldRdm : Bool := false
  dues : List Nat := []
  late : Bool := false
  /-- The fabric clock in which the last slot of what is being sent ends, and the one from which a request may use the gap (R214). -/
  lineEnd : Nat := 0
  gapFrom : Nat := 0
  /-- The transaction under way, and one that GO has given while that awaits its answer (R211). -/
  rdm : Option RdmReq := none
  rdmNext : Option RdmReq := none
  /-- The fabric clock of the end of the last request or forward frame. -/
  reqEnd : Nat := 0
  dali : Option DaliReq := none
  daliNext : Option DaliReq := none
  busDown : Bool := false
  /-- The fabric clock of the end of the last frame on the DALI bus, none for no frame yet, and whether it was a forward frame (R217). -/
  busEnd : Option (Nat × Bool) := none
  /-- After a collision the bus is held active up to this fabric clock (R218). -/
  holdTo : Option Nat := none
  /-- The levels of TXP, TXN and RXN under FUNC 1 or 2, outside the bits of a packet or frame (R209); none where the pads are Itren's. -/
  pads : Option (Bool × Bool × Bool) := none
  deriving DecidableEq, Repr



/-- The receive state of a universe index (R221 to R223). -/
structure E131Rx where
  cid : Option (List Byte) := none
  prio : Nat := 0
  seq : Nat := 0
  /-- The source has sent Stream_Terminated. -/
  done : Bool := false
  /-- Fabric clocks of the source's last packet, and of the last accepted one. -/
  heard : Nat := 0
  taken : Nat := 0
  /-- The fabric clock at which the other bank became READY. -/
  ready : Option Nat := none
  /-- The synchronization address and Force_Synchronization of the latest accepted packet; its sync packet has come. -/
  sync : Nat := 0
  force : Bool := false
  synced : Bool := false
  deriving DecidableEq, Repr

/-- A synchronization address on receive (R223): the last sequence number, the fabric clock since which a sync is awaited, and
whether E131_SYNC_TIMEOUT has passed. -/
structure E131Sync where
  seq : Option Nat := none
  since : Option Nat := none
  lost : Bool := false
  deriving DecidableEq, Repr



/-- The period (in units of 2^-48 ns), windows and PHASE that a channel's pulses follow (R232, R239). -/
structure DrvPlan where
  per : Nat := 0
  windows : List (Nat × Nat) := []
  phase : Nat := 0
  deriving DecidableEq, Repr

/-- The light that a channel emits from the pulse period at position `pos` on: D, 0 for off, the period and the fragments (R238). -/
structure DrvNext where
  pos : Nat × Nat
  step : Nat
  per : Nat
  frags : List (Nat × Nat)
  deriving DecidableEq, Repr

/-- The state of a drive channel that has no register (R235 to R253). -/
structure DrvChan where
  /-- The level before the cap of R244. -/
  level : Nat := 0
  /-- A FAULT or TCRIT channel restarts at its group's next latch; after DRV_c_RETRY. -/
  restart : Bool := false
  auto : Bool := false
  /-- In TCRIT: FAULT_CLR has been written; a reading below T_CRIT - HYST has arrived. -/
  clr : Bool := false
  cool : Bool := false
  /-- Overcurrent cycles, and periods with PARTIAL's condition, in a row. -/
  ocRun : Nat := 0
  partialRun : Nat := 0
  /-- VSTR_REF being learned at this step: the sum and number of its periods. -/
  refStep : Nat := 0
  refSum : Nat := 0
  refN : Nat := 0
  /-- A diagnostic pulse replaces the first pulse of the next frame. -/
  diagDue : Bool := false
  /-- The diagnostic pulse has been inserted and not been sampled (R247, Table 9-2). -/
  diagNow : Bool := false
  /-- The last pulse period, in 0.25 ns, and its light; what the pulses follow; and what starts with a later pulse period (R238). -/
  per : Nat := 0
  frags : List (Nat × Nat) := []
  plan : DrvPlan := {}
  next : Option DrvNext := none
  /-- The step of the dimming law for the level, before a stretch (R247); and in HOLD the fragments that give its light its places (R252). -/
  law : Nat := 0
  hold : List (Nat × Nat) := []
  /-- GATE switched up to the fault of clock `faultClock`: the step then, and DIAG (R249). -/
  faultWas : Option (Nat × Nat) := none
  /-- The fabric clocks of the last valid reading, of the fault and of the last step of D_th. -/
  readClock : Nat := 0
  faultClock : Option Nat := none
  slewAt : Option Nat := none
  deriving DecidableEq, Repr

/-- The drive block beside its registers. -/
structure Drive where
  chans : Tab DrvChan := []
  /-- The frame a group has latched last. -/
  grpLast : Tab (Option Nat) := []
  /-- The fabric clock at which conversions were last started: AIN inputs 0 to 7, buses 8 to 11; and those in progress. -/
  started : Tab Nat := []
  busy : List Nat := []
  /-- The sensor-list entries that the conversion of each bus still reads, in list order (R243). -/
  queues : Tab (List Nat) := []
  /-- The AIN inputs whose last ratio was outside their table (R242, R245). -/
  ainOut : List Nat := []
  /-- Per sensor-list entry: failed transactions in a row, and the fabric clock of the last good reading. -/
  snsFail : Tab Nat := []
  snsGood : Tab (Option Nat) := []
  /-- Sums of the reference Stitch's untrimmed emitter values and their number, by trim group (R156). -/
  refs : Tab (List Nat × Nat) := []
  /-- The fabric clock at which a hold ends, and RECLAIM written. -/
  holdEnd : Option Nat := none
  reclaim : Bool := false
  deriving DecidableEq, Repr



/-- A frame in the switch buffer (R260, R261). -/
structure TrkFrame where
  /-- From the destination address to the FCS. -/
  bytes : List Byte
  cells : Nat
  /-- Its cells in this queue come from the shared pool, not from the queue's reserve. -/
  pooled : Bool := false
  /-- 0 to 3, and 4 for a frame of the device itself. -/
  inPort : Nat := 4
  /-- Its receive stamp: time base and reading in units of 2^-48 ns; and its ingress stamp for the transparent clock. -/
  stamp : Nat × Nat := (0, 0)
  tc : Option Nat := none
  /-- May be sent in any state of its port (R263, Table 10-2). -/
  directed : Bool := false
  /-- The transmit stamp identifier, where stamps are wanted (R275). -/
  ts : Option Nat := none
  /-- The transmit ring it came from, or the mailbox 14 or 15 (R322), and its number, from 1; 0 for none. -/
  tx : Nat × Nat := (0, 0)
  deriving DecidableEq, Repr

/-- A forwarding table entry (R264); `time` is the fabric clock of its last refresh. -/
structure FdbEntry where
  mac : Nat
  vid : Nat
  port : Nat
  static : Bool
  time : Nat
  deriving DecidableEq, Repr

/-- A multicast table entry (R265). -/
structure McEntry where
  mac : Nat
  vid : Nat
  any : Bool
  mask : Nat
  deriving DecidableEq, Repr

/-- A frame fetched from a transmit ring whose descriptors are not written back (R275): its descriptors' indices and FLAGS. -/
structure TxRec where
  id : Nat
  descs : List (Nat × Nat)
  err : Nat
  deriving DecidableEq, Repr

/-- A ring of R276 to R278 beside its registers. -/
structure RingState where
  /-- The count of ring frames sent, and the BEACONs still to be sent with FLUSH. -/
  seq : Nat := 0
  flushes : Nat := 0
  /-- SEQs of the BEACONs with FLUSH that have been seen. -/
  seen : List Nat := []
  /-- Fabric clocks of the last timer, of the last own BEACON on port B, and of the last LINK_DOWN. -/
  timer : Nat := 0
  own : Nat := 0
  down : Option Nat := none
  deriving DecidableEq, Repr

/-- The tables before a fabric clock's changes, which that clock's lookups see (R265). -/
structure TrkSeen where
  clock : Nat
  fdb : Tab (List FdbEntry)
  mct : Tab (Option McEntry)
  deriving DecidableEq, Repr

/-- The switch and its rings beside their registers. -/
structure Trunk where
  /-- INT_EN has been set since reset. -/
  intSeen : Bool := false
  /-- The egress queues, by 8 times the port plus the queue, head first. -/
  queues : Tab (List TrkFrame) := []
  /-- Cells missing from each port's ingress reserve (R261). -/
  ingress : Tab Nat := []
  /-- Per port: storm tokens used up, in thousandths of a bit, and when that was so (R266). -/
  storm : Tab (Nat × Nat) := []
  /-- The forwarding table by set, and the multicast table by index. -/
  fdb : Tab (List FdbEntry) := []
  mct : Tab (Option McEntry) := []
  /-- The fewest free shared cells since CLR_COUNTS. -/
  minFree : Option Nat := none
  /-- Per receive ring: frames since the last DONE, and the fabric clock of the first of them (R274). -/
  rxCount : Tab Nat := []
  rxFirst : Tab Nat := []
  /-- Per transmit ring: descriptors fetched beyond HEAD, and the frames they make, oldest first; the number of the next frame. -/
  txAhead : Tab Nat := []
  txRecs : Tab (List TxRec) := []
  txNext : Nat := 0
  rings : Tab RingState := []
  /-- Per receive ring: the fabric clock of the last TAIL write, and TAIL before that clock (R273). -/
  rxTails : Tab (Option (Nat × Nat)) := []
  /-- The fabric clock of the last change of the tables, and the tables before that clock, which its lookups see (R265). -/
  tables : Option TrkSeen := none
  /-- The fabric clock of the last write to the forwarding table, and the addresses and VIDs written in it (R265). -/
  wrote : Option (Nat × List (Nat × Nat)) := none
  /-- The fabric clock from which a port's wire is free. -/
  wireFree : Tab Nat := []
  /-- Frames for the pair logic and the reset recogniser, and under SUBTYPE 0 for the ROM (R400): SUBTYPE, port, fabric clock of arrival, frame (Table 10-5). -/
  inbox : List (Nat × Nat × Nat × List Byte) := []
  deriving DecidableEq, Repr



/-- A DATA frame of the active unit that waits for the standby's own move of its line (R300): port, FRAME, Row, line offset, CRC of its
bytes, and the pair frame count at its arrival. -/
structure ShadowWait where
  port : Nat
  frame : Nat
  row : Nat
  ofs : Nat
  crc : Nat
  since : Nat
  deriving DecidableEq, Repr

/-- The PAIR block beside its registers (R284 to R302). -/
structure Pair where
  /-- Fabric clocks of the latest claim of the partner by beacon and by ring while it counts, and of the latest by either. -/
  byBeacon : Option Nat := none
  byRing : Option Nat := none
  lastClaim : Option Nat := none
  /-- Frame boundaries of the pair Meridian. -/
  frames : Nat := 0
  /-- Beacons sent since EN; the fabric clock of the last one; and the level of PAIR_ALIVE_OUT. -/
  seq : Nat := 0
  timer : Nat := 0
  aliveOut : Bool := false
  /-- The fabric clocks of the last edge of PAIR_ALIVE_IN, and of the last toggle of PAIR_ALIVE_OUT. -/
  aliveAt : Nat := 0
  toggledAt : Nat := 0
  /-- Own beacons that still carry RESET_REQ; beacons in a row that carried it. -/
  reqLeft : Nat := 0
  reqRun : Nat := 0
  /-- Region emitters and E1.31 transmit are enabled (R293). -/
  txOn : Bool := false
  /-- The unit's entry to YIELDING; the start of the uninterrupted time of R292. -/
  yieldFrom : Nat := 0
  holdFrom : Option Nat := none
  healthLow : Bool := false
  /-- Per port: the frame counts, plus 1, of the last increase of STR_n_RB_MISMATCH and of the last shadow mismatch (Table 11-2). -/
  rbFrame : Tab Nat := []
  shFrame : Tab Nat := []
  waits : List ShadowWait := []
  /-- Per source of the worker arbiter: the frame count of its last claim while it counts (R298). -/
  wkr : Tab (Option Nat) := []
  deriving DecidableEq, Repr




/-- The host interface beside its registers (R318, R319, R325, R327). -/
structure HostIf where
  /-- Vectors that are unmasked with a source pending, one bit each, as last seen. -/
  vectors : Nat := 0
  /-- The words of the MSI-X table, by index (log entry 50). -/
  msix : Tab Nat := []
  /-- INT_N and HQ_INT_N are low. -/
  intLow : Bool := false
  /-- CC0 and CC1 have an interrupt of the mailboxes or doorbells (R323). -/
  cc0Irq : Bool := false
  cc1Irq : Bool := false
  hqLow : Bool := false
  /-- The QSPI write buffer: address and bytes; the read request: address and count; the read buffer. -/
  wbuf : Option (Nat × List Byte) := none
  rreq : Option (Nat × Nat) := none
  rbuf : List Byte := []
  /-- The address of the read buffer's first word, and how many outputs had left the block when it was filled (R324). -/
  rbufAt : Nat × Nat := (0, 0)
  deriving DecidableEq, Repr

/-- A post that a full mailbox has refused: its fabric clock, mailbox and tag, whether OVERRUN stood before, the error count before it, and
what host memory returned for it (R321). -/
structure LatePost where
  clock : Nat
  mbx : Nat
  tag : Nat
  was : Bool
  errs : Nat
  host : List Byte
  deriving DecidableEq, Repr

/-- A lock that a requester has taken: the fabric clock, the lock, its owner, and how many outputs had left the block before its answer (R324). -/
structure LockWin where
  clock : Nat
  lock : Nat
  owner : Nat
  before : Nat
  deriving DecidableEq, Repr


/-- Where the reply to a command goes (Table 12-3): mailbox `m` with RSP_ADDR, RSP_MAX and the request's tag; or the UDP source, its MAC address,
and the trunk port that the request came in by. -/
inductive ReplyTo where
  | mailbox (m addr max tag : Nat)
  | udp (inPort mac ip port : Nat)
  deriving DecidableEq, Repr

/-- The request that a reply answers (R304, R311): its transport, OPCODE and SEQ, the key slot of an authenticated one, whether it is
never replied to, and whether it was a broadcast (R305). -/
structure Asker where
  back : ReplyTo
  opcode : Nat
  seq : Nat
  slot : Option Nat
  silent : Bool
  broadcast : Bool := false
  deriving DecidableEq, Repr

/-- What a command that has started waits for before it replies. -/
inductive Await where
  /-- A reply-ring entry of this port: of a QUERY, or of an RDM or DALI request with this TAG (Table 7-13). -/
  | query (port : Nat)
  | ring (port tag : Nat)
  /-- The end of a port's Survey. -/
  | survey (port : Nat)
  /-- CTL_DONE of a port. -/
  | sent (port : Nat)
  /-- The end of the program check (R137). -/
  | load
  /-- The end of the token check for a life-cycle state (R403, R404). -/
  | token (target : Nat)
  /-- The handover (R391): 0 the copy runs, 1 it waits for another Row than this one of the primary Meridian, 2 the new image has been
  started. -/
  | handover (step row : Nat)
  /-- The copy of the old body before a revert, and then another Row (R397). -/
  | revert (step row : Nat)
  /-- The reply of a worker to a relayed packet (R317), accepted up to a fabric clock. -/
  | relayed (device till : Nat)
  /-- The workers of a RELAY, the STATUS of each that has replied, the inner OPCODE and SEQ, and the clock up to which replies are accepted. -/
  | relay (opcode seq till : Nat) (devs : List (Nat × Option Nat))
  /-- The standby's reply to a command relayed over the pair link, accepted up to a clock: its STATUS and the active's own, as far as each
  is known (R316). -/
  | standby (till : Nat) (own peer : Option Nat)
  /-- The answers to a ROLL_CALL with this SEQ, accepted up to a clock; entry FIRST is asked for. -/
  | rollCall (seq first till : Nat)
  deriving DecidableEq, Repr

/-- What firmware does at a later clock: a register write, a write of one field of a register, a reply; or what a command states of it, the
warm reset that COMMAND_RESET then raises. -/
inductive Later where
  | write (addr value : Nat)
  | field (addr hi lo value : Nat)
  /-- The write of a field that waits until every reply of firmware's has left (R377, R403). -/
  | parting (addr hi lo value : Nat)
  | reset
  | reply (who : Asker) (status : Nat) (payload : List Byte)
  deriving DecidableEq, Repr

/-- A worker in the hierarchy table (Table 12-17). -/
structure Worker where
  role : Nat
  state : Nat
  ip : Nat
  deriving DecidableEq, Repr

/-- What SET_ROLE sets and SETTINGS_SAVE saves: role, device ID, hierarchy group. -/
structure Identity where
  role : Nat := 0
  id : Nat := 0
  group : Nat := 0
  deriving DecidableEq, Repr

/-- Firmware's own state (R304 to R320, R379, R390). -/
structure Firm where
  /-- 0 STANDALONE, 1 MANAGER, 2 WORKER; and the IPv4 multicast group of the hierarchy's commands, 0 none (Table 12-6). -/
  role : Nat := 0
  group : Nat := 0
  /-- The command error count of GET_STATUS. -/
  errors : Nat := 0
  /-- The replay table (R311): SOURCE, KEY_SLOT and last accepted NONCE, in retained memory; and as last saved to the settings area. -/
  replay : List (Nat × Nat × Nat) := []
  replaySaved : List (Nat × Nat × Nat) := []
  /-- Retained memory has been wiped since firmware last reached configured. -/
  wiped : Bool := false
  /-- Commands that have started and not replied, oldest first. -/
  waits : List (Asker × Await) := []
  /-- Notices of written replies that wait for their mailbox to be free: mailbox, address and tag. -/
  notices : List (Nat × Nat × Nat) := []
  /-- Firmware's rings are set up; its place in the receive ring; frames that wait for its transmit ring, and for mailbox 14 (R315, R316). -/
  netUp : Bool := false
  rxAt : Nat := 0
  txOut : List (List Byte) := []
  linkOut : List (List Byte) := []
  /-- The fabric clock of the last save of the replay table (R311). -/
  replayAt : Nat := 0
  /-- What is due at a fabric clock. -/
  later : List (Nat × Later) := []
  /-- The hierarchy table by device ID, and the workers that answered the last ROLL_CALL (R306, R317). -/
  table : Tab (Option Worker) := []
  heard : List Nat := []
  /-- What each settings area holds of SET_ROLE (R390). -/
  saved : Tab Identity := []
  /-- The settings area in force at the handover; written areas during probation are the other (R395). -/
  inForce : Nat := 0
  /-- Bind-off (R379): the step it is at, the clock or Row it waits from, the channels it has stopped, and whether Dormant follows. -/
  bind : Option (Nat × List Nat × Bool) := none
  deriving DecidableEq, Repr





/-- What an EN clear takes back of the first completion or error of its clock (R340): the clock, words of the channel's registers, its two
bits of DMA_INT_STATUS, the four bytes of STATUS in memory, and a completion entry with its queue. -/
structure DmaUndo where
  clock : Nat
  regs : List (Nat × Word)
  done : Bool
  error : Bool
  status : List Host.Cell
  wrote : List (Nat × Nat)
  pushed : Option (Nat × Nat) := none
  deriving DecidableEq, Repr

/-- A DMA channel beside its registers (R333 to R341): the fields of the descriptor it is on, and what its last clock has ended; the regions
that descriptor writes, once written, and all that the chain has written since its GO, STATUS words among it; that a REFETCH has read NEXT in
IDLE; and TRIG_MISS before the last pulse that counted. -/
structure DmaChan where
  list : Nat := 0
  dest : Nat := 0
  count : Nat := 0
  ctrl : Nat := 0
  undo : Option DmaUndo := none
  dests : List (Nat × Nat) := []
  wrote : List (Nat × Nat) := []
  asked : Bool := false
  missWas : Nat := 0
  deriving DecidableEq, Repr

/-- A check-value unit that an END command or a cycle line has ended (R357): in which clock, the register before the end, the counters
UNITS and MISMATCHES before it, and whether MISMATCH stood. -/
structure CrcUndo where
  clock : Nat
  value : Nat
  units : Word
  mismatches : Word
  mismatch : Bool
  deriving DecidableEq, Repr

/-- A Skein queue (R345, R346): its head stage; the middle, as addresses of blocks of 4 entries and how many entries of the first
block have been removed; its tail stage, each oldest first; and the next block of its ring. For the order of one clock (R348): the clock of
the last push, how many were pushed in it, the entries of the head stage that those pushes removed, how many they lost, and SKN_Qn_LOST before
them; LEVEL without those pushes, and whether the queue's event bit and EVENT stood before (R352); and the clock of the last QUOTA write with QUOTA before that
clock. -/
structure SknQueue where
  head : List Nat := []
  mid : List Nat := []
  skip : Nat := 0
  tail : List Nat := []
  ring : Nat := 0
  pushAt : Nat := 0
  pushed : Nat := 0
  gone : List Nat := []
  lostIn : Nat := 0
  lostWas : Nat := 0
  base : Nat := 0
  eventWas : Bool := false
  intWas : Bool := false
  quotaWas : Option (Nat × Nat) := none
  deriving DecidableEq, Repr



/-- Where Cast-on stands (Table 14-6) and the Dormant states (R377, R378): in reset, S0 over and the release due, the stages, recovery
mode, running, the fabric PLL not locked, entering Dormant, Dormant, raising the rails, and waiting to try them again. -/
inductive Stage where
  | inReset | released | s1 | s2 | s3 | s4 | s5 | recovery | s6 | configured | pllFail | entry | dormant | exit | retry
  deriving DecidableEq, Repr

/-- The OTP (R374, R384, R385, R402, R407): what no reset changes. Unprogrammed words read 0. -/
structure Otp where
  pciIds : Nat := 0
  trunkDef : Nat := 0
  flags : Nat := 0
  recIp : Nat := 0
  /-- Root keys programmed, and revoked, one bit each. -/
  rootKeys : Nat := 0
  /-- The root public keys, P-384 uncompressed, 96 bytes each. -/
  rootPub : Tab (List Byte) := []
  revoked : Nat := 0
  rollback : Nat := 0
  lifeCycle : Nat := 0
  deriving DecidableEq, Repr

/-- The AON domain beside its registers (R360 to R379). -/
structure Power where
  stage : Stage := .s5
  /-- The rails that the monitors find valid, one bit each in the order of Table 14-1; PWR_RAIL shows them once S0 is over. -/
  rails : Nat := 0x3FF
  /-- The rails that have dipped below their thresholds and are not valid again, one bit each (R408). -/
  dipped : Nat := 0
  /-- The reset in progress: its source codes, whether it is full, the fabric clock of the last source, and that from whose RCLK cycle the
  sources of LAST and MASK are (R363). -/
  srcs : List Nat := []
  full : Bool := false
  since : Nat := 0
  srcAt : Nat := 0
  /-- A full reset, or the reset of a life-cycle change, has not been through S1 yet (R371). -/
  s1Due : Bool := false
  /-- The warm reset completes a life-cycle change (R366). -/
  lcChange : Bool := false
  /-- The life-cycle state sensed in S1. -/
  lifeCycle : Nat := 0
  /-- RST_N is low; a thermal shutdown is latched; PERST_N is low. -/
  rstLow : Bool := false
  thermal : Bool := false
  perstLow : Bool := false
  /-- The straps sampled at reset release (R371). -/
  bootMode : Nat := 0
  hostSel : Bool := false
  pairSide : Bool := false
  /-- Failed locks of the fabric PLL in this Cast-on; failed exits from Dormant; the exit in progress began with RST_N. -/
  pllTries : Nat := 0
  exitTries : Nat := 0
  /-- The fabric clock at which each PWR_EN pin rose, and that of the last failed exit from Dormant (R361, R378). -/
  pinAt : Tab Nat := []
  failAt : Nat := 0
  /-- The fabric clock of DORMANT_OUT's rise, then of the last PWR_EN that fell (R377). -/
  stepAt : Nat := 0
  /-- RST_RFRAME_COUNT as firmware has saved it in the settings area (R369). -/
  rframeSaved : Nat := 0
  exitRst : Bool := false
  /-- A wake event is held during entry (R377): whether it is RST_N. -/
  held : Option Bool := none
  /-- Who gave the hardware watchdog its last counted kick (R368). -/
  kicker : Option Sys2Proof.Requester := none
  /-- The fabric clock until which the reset recogniser is busy (R369). -/
  frameBusy : Nat := 0
  /-- Domains without an array that a domain reset holds, and until which fabric clock (R364, R367). -/
  holding : List (Nat × Nat) := []
  /-- The highest junction reading of the second that runs (R408). -/
  tjMax : Option Int := none
  deriving DecidableEq, Repr



/-- A firmware transfer (R388, R389): its target slot, its size and kind, how many bytes have come, and the fabric clock of the last
chunk. Of a Darn patch: its bytes, how many have been taken, how many bytes of an INSERT are to come, the target body bytes built, and
END seen. -/
structure Transfer where
  slot : Nat
  total : Nat
  darn : Bool
  next : Nat := 0
  last : Nat
  got : List Byte := []
  taken : Nat := 0
  left : Nat := 0
  out : Nat := 0
  ended : Bool := false
  deriving DecidableEq, Repr

/-- A recovery session over T0 (R401): its source (MAC, IPv4, port), START's TOTAL and SLOT, the block expected, the image so far, and
the RESULT already given. -/
structure RecSession where
  src : Nat × Nat × Nat
  total : Nat
  slot : Nat
  next : Nat := 0
  bytes : List Byte := []
  heard : Nat
  result : Option (Nat × Nat) := none
  deriving DecidableEq, Repr

/-- Firmware update, life cycle and recovery beside their registers (R381 to R406). -/
structure Fwu where
  /-- The half that is write-protected (R394). -/
  protect : Option Nat := none
  /-- The fabric clock of SWITCH; PROBATION_S of the handover under way; the status it has come to, for its reply. -/
  hoFrom : Nat := 0
  probation : Nat := 600
  hoStatus : Option Nat := none
  transfer : Option Transfer := none
  /-- The slot for which FW_VERIFY has returned OK since the last FW_BEGIN. -/
  verified : Option Nat := none
  /-- The slots of the image that runs and of the one before it, since the last boot. -/
  running : Nat := 0
  before : Nat := 0
  /-- The header of the image that runs, and of the one before it, where the ROM took it from the Pool under HOST_DIRECT: no slot holds
  it (R386). -/
  direct : Option (List Byte) := none
  directBefore : Option (List Byte) := none
  /-- The ROM waits in S5 for the host's image (R386). -/
  awaitsHost : Bool := false
  /-- Where both cores were last started, and the entry addresses of those two images (R387, R391, R393, R397). -/
  startedAt : Nat := 0
  entry : Nat := 0
  entryBefore : Nat := 0
  /-- The life-cycle state in which a slot's store entry was made, and the key in it (R403, R406). -/
  keyMade : Tab (Option (Nat × BitVec 128)) := []
  session : Option RecSession := none
  /-- A recovery has succeeded: the fabric clock of its RESULT. -/
  recOk : Option Nat := none
  /-- The fabric clock of the last HELLO (R400). -/
  helloAt : Option Nat := none
  deriving DecidableEq, Repr

/-- What the flash holds of the Lifelog beside its bytes (R409, R410): totals by the order of Table 15-14 (ports from 100 and 200,
banks from 300, uncorrectable errors 500), counters as last added, the next SEQ, sector and offset, events (SEC, CODE, ARG), and the
addresses and lengths of the records of each type, the newest first. -/
structure LifeLog where
  totals : Tab Nat := []
  seen : Tab Nat := []
  seq : Nat := 0
  sector : Nat := 0
  offset : Nat := 0
  events : List (Nat × Nat × Nat) := []
  records : Tab (List (Nat × Nat)) := []
  /-- The fabric clock of the last FLUSH_DUE. -/
  due : Nat := 0
  deriving DecidableEq, Repr


/-- A strand receive Swatch under way (R414 to R418): APPLY, C_0, Rows in a row without room, the interval planned or run in quarter
nanoseconds of the fabric clock, CALIB sent, and the histograms so far: 64 bins for each of the three candidates. -/
structure SwJob where
  apply : Bool
  hop : Nat := 0
  rows : Nat := 0
  placed : Option (Int × Int) := none
  sent : Bool := false
  bins : List Nat := []
  deriving DecidableEq, Repr

/-- The CAL block beside its registers (R413 to R428). -/
structure Cal where
  /-- The job that runs on a strand port; APPLY of the one on a drive channel. -/
  strs : Tab (Option SwJob) := []
  drvs : Tab (Option Bool) := []
  /-- The targets that movement is under way to, by port: sampling phase, EQ, PREEMPH (R419). -/
  phase : Tab (Option Nat) := []
  eq : Tab (Option Nat) := []
  pe : Tab (Option Nat) := []
  /-- By drive channel: CORR in effect and its target, in 1/4,096 µV (R424). -/
  corr : Tab Int := []
  goal : Tab (Option Int) := []
  /-- The fabric clock, plus 1, of a Gauge's last update: ports 0 to 31, channels from 32, trunk ports from 48. -/
  ages : Tab Nat := []
  /-- Swatch interval time of a port, in quarter nanoseconds. -/
  pause : Tab Nat := []
  /-- Channels in a forced interruption, and the fabric clock at which a channel's last one began (R422). -/
  broken : List Nat := []
  brokeAt : Tab Nat := []
  /-- The fabric clock of a trunk port's last periodic eye refresh, and of a strand port's last autonomous start (R425, R428). -/
  eyeAt : Tab (Option Nat) := []
  autoAt : Tab (Option Nat) := []
  /-- The fabric clock, plus 1, of the last Waypoint job, by KIND and UNIT of its number (R413). -/
  wptAt : Tab Nat := []
  deriving DecidableEq, Repr


/-- Everything the block holds but its addressed memory and its queue. -/
structure Blk where
  /-- The register file, by bus address; a word not listed holds its reset value. -/
  regs : Tab Word := []
  /-- Latches and staging words held per requester (R36), by 8 times the bus address plus the requester's number. -/
  latches : Tab Word := []
  /-- Fabric clocks since reset. -/
  now : Nat := 0
  /-- The bits that hardware has set in clock `raisedAt`, by register: a W1C write of that clock leaves them set (R7). -/
  raised : Tab Raised := []
  raisedAt : Nat := 0
  /-- MODEL'S OWN: how many free values have been drawn (log entry 3); nothing rests on its value. -/
  freeCount : Nat := 0
  /-- What has left the block, oldest first. -/
  out : List Output := []
  /-- Arrays whose wipe is running, Table 1-5 order: canvas store, Pool, firmware SRAM, switch buffer, retained (R375). -/
  wiping : List Sys2Proof.SramArray := []
  /-- The region table (R19): the block each Atlas region is in; region k starts in block k. -/
  regionBlock : Tab Nat := []
  /-- The spare Atlas blocks that are free. -/
  spareBlocks : List Nat := [64, 65]
  /-- What each region has staged (R19). -/
  regionStage : Tab RegionStage := []
  /-- ATLAS_WRITEs that wait for a spare block (R139), oldest first. -/
  atlasWaiting : List AtlasWrite := []
  /-- Regions named by an ATLAS_COMMIT whose commit is due at the next frame boundary. -/
  atlasCommit : List Nat := []
  /-- The time bases, by number. -/
  tbs : Tab TimeBase := []
  /-- Transmit timestamp queues of trunk ports T0 to T3, oldest first (R52). -/
  tsq : Tab (List TxStamp) := []
  /-- The stamps that each queue lost in the last clock in which it lost any (R53). -/
  tsqLost : Tab (Option TsqLost) := []
  /-- The SyncE DPLL's active reference is the secondary one (R44). -/
  synceOnSec : Bool := false
  /-- The signal of the primary, and of the secondary, SyncE reference is lost, as last reported (R44). -/
  syncePriLost : Bool := false
  synceSecLost : Bool := false
  /-- The DPLL's frequency estimates of the last second, newest first, each with its fabric clock (Table 2-5). -/
  synceHist : List (Nat × Int) := []
  /-- Staged values of RWC registers, by bus address; an entry stands from its write to its commit (R8). -/
  staged : Tab StagedWord := []
  /-- The Meridians, by number. -/
  mers : Tab Meridian := []
  /-- Valid Waypoint entries by index (R80). -/
  wpts : Tab (Option Waypoint) := []
  /-- Waypoint entries that are late or deferred and fire in the next clocks (R82, R83). -/
  wptDue : List WptDue := []
  /-- The entries that a WRITE has left to be armed (R80), and those that a CANCEL or a WRITE has taken out (R84). -/
  wptBusy : List Nat := []
  wptGone : List WptGone := []
  /-- The fabric clock, plus 1, in which entries last fired, and how many did (R82). -/
  wptFired : Nat × Nat := (0, 0)
  /-- Pin actions of Waypoints converted and not yet at the pin (R82), by instant and then entry index (R85). -/
  evtQueue : List PinAction := []
  /-- Levels of EVT_OUT0 to EVT_OUT7 in WAYPOINT mode, before POL (R85). -/
  evtLevel : Tab Bool := []
  /-- Levels of the pins EVT_OUT0 to EVT_OUT7. -/
  evtPin : Tab Bool := []
  /-- The fabric clock at which the pulse of an EVT_OUT pin ends; none where no pulse runs (R85). -/
  evtPulse : Tab (Option Nat) := []
  /-- The level of the pin EVT_IN0, as its last edge left it (R85). -/
  evtIn0 : Bool := false
  /-- The fabric clock at which the pulse of PPS_OUT ends (R85). -/
  ppsEnd : Option Nat := none
  /-- Level of PPS_OUT. -/
  ppsLevel : Bool := false
  /-- The EVT_IN queues, oldest first (R86). -/
  evtIn : Tab (List EvtCapture) := []
  /-- The captures that each queue lost in the last clock in which it lost any (R86). -/
  evtLost : Tab (Option EvtLost) := []
  /-- AES-128 user keys by slot; none where the slot is empty (R406). -/
  keys : Tab (Option (BitVec 128)) := []
  /-- The sender's nonce counter per key slot, in retained memory (R309). -/
  nonces : Tab Nat := []
  /-- The last value of each nonce counter saved to the settings area (R309). -/
  noncesSaved : Tab Nat := []
  /-- SEQ of the next Bearing sent (Table 3-5). -/
  bearingSeq : Nat := 0
  /-- The canvas block beside its registers. -/
  cnv : Canvas := {}
  /-- The Stitch engine beside its registers. -/
  stc : Stitch := {}
  /-- Universe banks presented to E131IN, 0 or 1 by universe index (R222). -/
  e131Bank : Tab Nat := []
  /-- Channels and frames whose setpoint entries the Stitch engine has delivered (R236). -/
  drvGot : List (Nat × Nat) := []
  /-- The strand ports by number. -/
  strs : Tab StrPort := []
  /-- The frame G from which a unit that took over sends LATCH without REPEAT, by pair-ring port (R293). -/
  pairG : Tab (Option Nat) := []
  /-- The nodes, by 2,048 times the strand plus the place on the chain (R169). -/
  nodes : Tab Node := []
  /-- The strand ports' alternate functions, by port (R208). -/
  alts : Tab AltPort := []
  /-- E1.31 receive, by universe index and by synchronization address; sequence numbers of the next data packet by transmit table entry
  and of the next sync packet by address, and packets sent with Stream_Terminated by entry (R221 to R226). -/
  e131Rx : Tab E131Rx := []
  e131Syncs : Tab E131Sync := []
  e131TxSeq : Tab Nat := []
  e131SyncSeq : Tab Nat := []
  e131Term : Tab Nat := []
  /-- The drive block beside its registers. -/
  drv : Drive := {}
  /-- The switch and its rings beside their registers. -/
  trk : Trunk := {}
  /-- The PAIR block beside its registers. -/
  pair : Pair := {}
  /-- The device ID in effect, 12 bits (R306). -/
  deviceId : Nat := 0
  /-- The host interface beside its registers. -/
  host : HostIf := {}
  /-- Posts of the clock that mailboxes have refused (R321). -/
  mbxLate : List LatePost := []
  /-- Locks taken in the clock, the newest first (R324). -/
  lockWon : List LockWin := []
  /-- Firmware's own state. -/
  firm : Firm := {}
  /-- The DMA channels and the Skein queues beside their registers. -/
  dma : Tab DmaChan := []
  skn : Tab SknQueue := []
  /-- Bytes of the unit in progress, by check-value unit (R356). -/
  crcCount : Tab Nat := []
  /-- A unit whose VALUE has been written or initialised: in which fabric clock, and the register as the bytes of that clock see it (R357). -/
  crcSet : Tab (Option (Nat × Nat)) := []
  /-- The last end of a check-value unit by an END command or a cycle line (R357). -/
  crcEnded : Tab (Option CrcUndo) := []
  /-- The fabric clock, plus 1, of the last pulse of a cycle line (R87, R337). -/
  cycAt : Tab Nat := []
  /-- The OTP. -/
  otp : Otp := {}
  /-- The AON domain beside its registers. -/
  pwr : Power := {}
  /-- The Lifelog accumulators (R408), by the bus address of their snapshot registers. -/
  life : Tab Nat := []
  /-- Firmware update, life cycle and recovery beside their registers. -/
  fwu : Fwu := {}
  /-- What the flash holds of the Lifelog beside its bytes. -/
  log : LifeLog := {}
  /-- What the accumulators have added in the fabric clock named: an increment in the clock of SNAP counts in the new interval (R409). -/
  lifeNow : Nat × Tab Nat := (0, [])
  /-- The CAL block beside its registers. -/
  cal : Cal := {}
  deriving DecidableEq, Repr

/-- The machine: the block, its addressed memory and the commands that wait, first in first out. -/
structure State where
  /-- Registers and all state that has no fabric address. -/
  blk : Blk
  /-- The addressed memory of Table 1-3, by bus address; a byte not listed reads as `Mem.dflt` of Ops.lean says (log entry 2). -/
  mem : List Host.Cell
  /-- The commands that wait, front first. -/
  pending : List Sys2Proof.Instr
  deriving DecidableEq, Repr

/-- Why the machine stops. A fault is safe: the block takes no next state. -/
inductive Fault where
  /-- Raised by a meaning whose operands `WellFormed` refuses: no such command can reach the block. Safe. -/
  | illFormed (mnemonic : String)
  deriving DecidableEq, Repr

/-- Why a command is turned away. A refusal is safe: the block takes no next state. -/
inductive Refusal where
  /-- Raised by an arm of `exec` whose command has no meaning yet. Safe. -/
  | notModelled (mnemonic : String)
  deriving DecidableEq, Repr

/-- The block right after a full reset: every register at its reset value, every domain on, no command taken. -/
def Blk.reset : Blk := {}

/-- The machine right after a full reset: memory lists nothing and no command waits. -/
def State.reset : State := { blk := Blk.reset, mem := [], pending := [] }

end Sys2Proof.Machine
end

