-- ==== Sys2Proof/Machine/Ops.lean ====
section
/-!
DEFINITION. The named operations every meaning is built from: the register file, the requesters' latches, the memory, the
outputs, the free values, and the three shapes a command's effect can have (`onBlk`, `onView`, `onMem`).
-/
namespace Sys2Proof.Machine

/-- The addressed memory (Table 1-3). -/
abbrev Mem := List Host.Cell

/-- The answer of a meaning. -/
abbrev Result := Host.Outcome State Fault Refusal

/-! ### The register file -/

/-- The word in register `a`. -/
def Blk.rd (b : Blk) (a : Nat) : Word := Tab.get Reg.resetAt b.regs a

/-- Register `a` takes the word `v`. -/
def Blk.wr (b : Blk) (a : Nat) (v : Word) : Blk := { b with regs := Tab.set Reg.resetAt b.regs a v }

/-- Register `a` as a number. -/
def Blk.rdN (b : Blk) (a : Nat) : Nat := (b.rd a).toNat

/-- Register `a` as a two's complement number. -/
def Blk.rdI (b : Blk) (a : Nat) : Int := (b.rd a).toInt

/-- Register `a` takes `n` modulo 2^32. -/
def Blk.wrN (b : Blk) (a n : Nat) : Blk := b.wr a (BitVec.ofNat 32 n)

/-- Register `a` takes `i` in two's complement. -/
def Blk.wrI (b : Blk) (a : Nat) (i : Int) : Blk := b.wr a (BitVec.ofInt 32 i)

/-- Field [hi:lo] of register `a`. -/
def Blk.fld (b : Blk) (a hi lo : Nat) : Nat := bits (b.rdN a) hi lo

/-- Field [hi:lo] of register `a` takes `v`. -/
def Blk.setFld (b : Blk) (a hi lo v : Nat) : Blk := b.wrN a (putBits (b.rdN a) hi lo v)

/-- Bit `i` of register `a`. -/
def Blk.flag (b : Blk) (a i : Nat) : Bool := bit (b.rdN a) i

/-- Bit `i` of register `a` takes `v`. -/
def Blk.setFlag (b : Blk) (a i : Nat) (v : Bool) : Blk := b.setFld a i i (b2n v)

/-- The value at `i` of a table whose default is `d` for every key. -/
def Tab.at {α : Type} (d : α) (t : Tab α) (i : Nat) : α := Tab.get (fun _ => d) t i

/-- The table with `x` at `i`, its default being `d` for every key. -/
def Tab.upd {α : Type} [DecidableEq α] (d : α) (t : Tab α) (i : Nat) (x : α) : Tab α :=
  Tab.set (fun _ => d) t i x

/-- The bits of register `a` that hardware has set in this clock (R7). -/
def Blk.raisedNow (b : Blk) (a : Nat) : Nat := if b.raisedAt = b.now then (Tab.at {} b.raised a).bits else 0

/-- Those of them that would be set without that (R7). -/
def Blk.raisedWas (b : Blk) (a : Nat) : Nat := if b.raisedAt = b.now then (Tab.at {} b.raised a).was else 0

/-- What hardware has set in this clock in register `a` (R7). -/
def Blk.setRaised (b : Blk) (a bits was : Nat) : Blk :=
  { b with raised := Tab.upd {} (if b.raisedAt = b.now then b.raised else []) a { bits := bits, was := was }, raisedAt := b.now }

/-- The bits `m` of register `a` are noted as set by hardware in this clock (R7). -/
def Blk.noteRaised (b : Blk) (a m : Nat) : Blk :=
  b.setRaised a (b.raisedNow a ||| m) (b.raisedWas a ||| (b.rdN a &&& (m ^^^ (m &&& b.raisedNow a))))

/-- Bit `i` of register `a` is set: an event reaches an interrupt status (R6, W1C), and is remembered for this clock (R7). -/
def Blk.irq (b : Blk) (a i : Nat) : Blk := (b.noteRaised a (2 ^ i)).setFlag a i true

/-- The event that set bit `i` of register `a` in this clock turns out not to have happened: the bit is as it would be without it. -/
def Blk.unirq (b : Blk) (a i : Nat) : Blk :=
  if bit (b.raisedNow a) i then
    (b.setRaised a (putBits (b.raisedNow a) i i 0) (putBits (b.raisedWas a) i i 0)).setFlag a i (bit (b.raisedWas a) i)
  else b

/-- Software writes 1 to the bits `v` of status register `a`: of those set in this clock, none would be set without that (R7). -/
def Blk.lowered (b : Blk) (a v : Nat) : Blk :=
  if b.raisedNow a = 0 then b else b.setRaised a (b.raisedNow a) (b.raisedWas a ^^^ (b.raisedWas a &&& v))

/-- The bits of `v` are set in status register `a`, as events set them: a clear of the same clock leaves them set (R7). -/
def Blk.raise (b : Blk) (a : Nat) (v : Word) : Blk :=
  (b.noteRaised a v.toNat).wr a (b.rd a ||| v)

/-- The bits of `mask` are cleared in register `a`. -/
def Blk.clearN (b : Blk) (a mask : Nat) : Blk := b.wr a (b.rd a &&& ~~~(BitVec.ofNat 32 mask))

/-- An operation `f` acts where `c` holds. -/
def onSet (c : Bool) (f : Blk → Blk) (b : Blk) : Blk := if c then f b else b

/-- A counter adds `n` and stays at 0xFFFF_FFFF when it gets there (R25, R57, R89, R206 and the other register rules). -/
def Blk.count (b : Blk) (a : Nat) (n : Nat := 1) : Blk := b.wrN a (sat32 (b.rdN a + n))

/-- One of the `k` counts that counter `a` took over `was` is taken back; a counter that software has written since stays. -/
def Blk.uncount (b : Blk) (a was k : Nat) : Blk := if b.rdN a = sat32 (was + k) then b.wrN a (sat32 (was + (k - 1))) else b

/-- The 64-bit value of a register pair. -/
def Blk.rd64 (b : Blk) (lo hi : Nat) : Nat := b.rdN lo + 2 ^ 32 * b.rdN hi

/-- A register pair takes `n`. -/
def Blk.wr64 (b : Blk) (lo hi n : Nat) : Blk := (b.wrN lo n).wrN hi (n / 2 ^ 32)

/-- Each of the registers `as` takes 0. -/
def Blk.zero (b : Blk) (as : List Nat) : Blk := as.foldl (fun b a => b.wr a 0#32) b

/-- Field limits of R453: a value outside a range acts as the nearest limit. -/
def limit (lo hi v : Nat) : Nat := if v < lo then lo else if hi < v then hi else v

/-! ### Staged values of RWC registers (R8) -/

/-- The entry of register `a`, where one is staged. -/
def Blk.stagedAt (b : Blk) (a : Nat) : Option StagedWord := (b.staged.find? (fun e => e.1 == a)).map (·.2)

/-- The word a commit in clock `now` takes: the last one written before that clock (R8). -/
def StagedWord.ripe (x : StagedWord) (now : Nat) : Option Word := if x.clock < now then some x.word else x.before

/-- A write to a RWC register is staged; what an earlier clock staged stays for a commit in this one (R8). -/
def Blk.stage (b : Blk) (a v : Nat) : Blk :=
  let x : StagedWord := { word := BitVec.ofNat 32 v, clock := b.now, before := (b.stagedAt a).bind (·.ripe b.now) }
  { b with staged := Tab.put (Tab.erase b.staged a) a x }

/-- What a commit in this clock takes for register `a`. -/
def Blk.ripe (b : Blk) (a : Nat) : Option Word := (b.stagedAt a).bind (·.ripe b.now)

/-- The value register `a` has after a commit in this clock: the staged one, or the one in effect. -/
def Blk.stagedOr (b : Blk) (a : Nat) : Nat := ((b.ripe a).getD (b.rd a)).toNat

/-- The value last staged for register `a`, or the one in effect. -/
def Blk.stagedLast (b : Blk) (a : Nat) : Nat := (((b.stagedAt a).map (·.word)).getD (b.rd a)).toNat

/-- The staged values of the registers `p` are gone, but for those written in this clock, which wait for the following commit (R8). -/
def Blk.unstage (b : Blk) (p : Nat → Bool) : Blk :=
  { b with staged := b.staged.filterMap (fun e =>
      if !p e.1 then some e else if e.2.clock < b.now then none else some (e.1, { e.2 with before := none })) }

/-- The staged value of register `a` takes effect at a commit in this clock. -/
def commitStaged (b : Blk) (a : Nat) : Blk :=
  match b.ripe a with
  | some v => (b.unstage (· == a)).wr a v
  | none => b

/-! ### Latches per requester (R36) -/

/-- The number of a requester among the five sets of latches. -/
def reqNo : Requester → Nat
  | .cc0 => 0 | .cc1 => 1 | .pcie => 2 | .qspi => 3 | .debug => 4

/-- The word requester `who` holds for address `a`. -/
def Blk.latch (b : Blk) (who : Requester) (a : Nat) : Word :=
  Tab.get (fun _ => 0#32) b.latches (8 * a + reqNo who)

/-- Requester `who` holds word `v` for address `a`. -/
def Blk.setLatch (b : Blk) (who : Requester) (a : Nat) (v : Word) : Blk :=
  { b with latches := Tab.set (fun _ => 0#32) b.latches (8 * a + reqNo who) v }

/-- Requester `who` captures the words `vs` at `a`, `a + 4`, and so on. -/
def Blk.capture (b : Blk) (who : Requester) (a : Nat) : List Nat → Blk
  | [] => b
  | v :: vs => Blk.capture (b.setLatch who a (BitVec.ofNat 32 v)) who (a + 4) vs

/-! ### Outputs and free values -/

/-- `o` leaves the block. -/
def Blk.emit (b : Blk) (o : Output) : Blk := { b with out := b.out ++ [o] }

/-- The number of the next free value is used up (log entry 3). -/
def Blk.drawn (b : Blk) : Blk := { b with freeCount := b.freeCount + 1 }

/-! ### Memory -/

/-- What a byte of memory that nothing has written reads as (log entry 2): the ROM holds what its maker put there, erased flash
reads 0xFF, all else 0. -/
def Mem.dflt (a : Nat) : Byte :=
  if a < 0x10000 then Config.romByte a else if 0x60000000 ≤ a && a < 0x70000000 then 0xFF#8 else 0#8

/-- The addresses of the ROM: read and execute, never written (Table 1-3, R14). -/
def inRom (a : Nat) : Bool := decide (a < 0x10000)

/-- The addresses that hold memory that can be written (Table 1-3): firmware SRAM, Pool, canvas store, retained memory with the backup
registers, and the flash behind its window. A write elsewhere has no effect (R14). -/
def memHas (a : Nat) : Bool :=
  (0x08000000 ≤ a && a < 0x08800000) || (0x10000000 ≤ a && a < 0x11000000) || (0x20000000 ≤ a && a < 0x23000000)
    || (0x50000000 ≤ a && a < 0x50004040) || (0x60000000 ≤ a && a < 0x70000000)

/-- The byte at address `a`. -/
def Mem.byte (m : Mem) (a : Nat) : Byte := Tab.get Mem.dflt m a

/-- The `k` bytes from address `a` on. -/
def Mem.bytes (m : Mem) (a k : Nat) : List Byte := (List.range k).map (fun i => m.byte (a + i))

/-- The little-endian value of `k` bytes at `a` (R4). -/
def Mem.le (m : Mem) (a k : Nat) : Nat := leNat (m.bytes a k)

/-- One byte is written, where there is memory (R14). -/
def Mem.set (m : Mem) (a : Nat) (v : Byte) : Mem := if memHas a then Tab.set Mem.dflt m a v else m

/-- Bytes are written in order, a later one over an earlier one. -/
def Mem.write (m : Mem) (ws : List Host.Cell) : Mem := ws.foldl (fun m w => m.set w.1 w.2) m

/-- The cells of `bs` laid from address `a` on. -/
def cellsAt (a : Nat) : List Byte → List Host.Cell
  | [] => []
  | x :: xs => (a, x) :: cellsAt (a + 1) xs

/-- The `k` little-endian bytes of `n` at `a` (R4). -/
def leCells (a k n : Nat) : List Host.Cell := cellsAt a (toLE k n)

/-- The canonical form of the memory. -/
def Mem.wf (m : Mem) : Bool := Tab.wf Mem.dflt m

/-- The memory with no byte listed from `lo` up to but not including `hi`: a wiped range (R375). -/
def Mem.wipe (m : Mem) (lo hi : Nat) : Mem := m.filter (fun c => decide (c.1 < lo) || decide (hi ≤ c.1))

/-- Domain `d` is on and neither in reset nor being wiped: 0 AON, 1 CORE, 2 MER, 3 TRUNK, 4 CANVAS, 5 STITCH, 6 STRAND_A,
7 STRAND_B, 8 DRIVE, 9 HOST (R10, R28, R364, R367). -/
def domOn (b : Blk) (d : Nat) : Bool := b.flag Reg.PWR_STATUS d && !b.flag Reg.RST_STATUS d

/-- Firmware runs on CC0: the ROM has started it (Table 14-6). -/
def fwRuns (b : Blk) : Bool := domOn b 1 && (b.pwr.stage = .s6 || b.pwr.stage = .configured)

/-- Firmware's control tasks run: not from SWITCH until the handover is decided, while what arrives waits in mailboxes and rings (R391). -/
def fwTasks (b : Blk) : Bool := fwRuns b && !b.flag Reg.FWU_STATUS 3

/-- The domain that register address `a` answers in, none where no block of Table 1-4 is (R14, R16). -/
def regDomain (a : Nat) : Option Nat :=
  if a < 0x40000000 || 0x40140000 ≤ a then none
  else match (a - 0x40000000) / 0x10000 with
    | 1 => some 0
    | 2 => some 2
    | 3 => some 2
    | 4 => some 3
    | 5 => some 3
    | 6 => some 4
    | 7 => some 5
    | 8 => none
    | 9 => some (if a < 0x40091000 || 0x40095000 ≤ a then 1 else if a < 0x40093000 then 6 else 7)
    | 10 => some 8
    | 18 => some 9
    | _ => some 1

/-! ### The Lifelog accumulators (R408) -/

/-- The accumulator behind snapshot register `a` adds `n`, where LOG_CTRL.EN lets it (log entry 39). -/
def lifeAdd (b : Blk) (a n : Nat) : Blk :=
  if b.flag Reg.LOG_CTRL 0 then
    let add (t : Tab Nat) : Tab Nat := Tab.set (fun _ => 0) t a (sat32 (Tab.get (fun _ => 0) t a + n))
    { b with life := add b.life, lifeNow := (b.now, add (if b.lifeNow.1 = b.now then b.lifeNow.2 else [])) }
  else b

/-! ### The shapes of a command's effect -/

/-- An effect on the block alone: memory and queue stay. -/
def onBlk (f : Blk → Blk) (s : State) : Result := .next { s with blk := f s.blk }

/-- An effect on the block that reads memory: memory and queue stay. -/
def onView (f : Mem → Blk → Blk) (s : State) : Result := .next { s with blk := f s.mem s.blk }

/-- An effect on the block that also writes cells of memory: the queue stays. -/
def onMem (f : Mem → Blk → Blk × List Host.Cell) (s : State) : Result :=
  .next { s with blk := (f s.mem s.blk).1, mem := Mem.write s.mem (f s.mem s.blk).2 }

/-- An effect that wipes ranges of memory (each from its first to before its second address): the queue stays. -/
def onWipe (f : Mem → Blk → Blk × List (Nat × Nat)) (s : State) : Result :=
  .next { s with blk := (f s.mem s.blk).1,
                 mem := (f s.mem s.blk).2.foldl (fun m r => Mem.wipe m r.1 r.2) s.mem }

/-- The effect in domain `d`: a domain that is off, in reset or being wiped does nothing (R10, R28, R364; log entry 53). -/
def inDom (d : Nat) (act : State → Result) (s : State) : Result := if domOn s.blk d then act s else .next s

/-- The debug port is open (R402, R405). -/
def debugOpen (b : Blk) : Bool := b.fld Reg.FWU_LC 2 0 != 2 || b.flag Reg.FWU_LC 8

/-- Requester `who` is the debug port while it is locked: it reaches the challenge and token registers alone (R405). -/
def shutOut (b : Blk) (who : Requester) : Bool := who == .debug && !debugOpen b

/-- Requester `who` reaches what lies in domain `d`. -/
def domFor (b : Blk) (d : Nat) (who : Requester) : Bool := domOn b d && !shutOut b who

/-- The effect that requester `who` has in domain `d`: where it does not reach it, it does nothing (R10, R405). -/
def inDomBy (d : Nat) (who : Requester) (act : State → Result) (s : State) : Result := if domFor s.blk d who then act s else .next s

/-- The same of a read that requester `who` makes at `a`: elsewhere it completes with an error response and 0 (R10). -/
def inDomRead (d : Nat) (who : Requester) (a : Nat) (act : State → Result) (s : State) : Result :=
  if domFor s.blk d who then act s else .next { s with blk := s.blk.emit (.readDone who a 0#32 true) }

/-- The same of a write: elsewhere it completes with an error response (R10). -/
def inDomWrite (d : Nat) (who : Requester) (a : Nat) (act : State → Result) (s : State) : Result :=
  if domFor s.blk d who then act s else .next { s with blk := s.blk.emit (.writeDone who a true) }

/-- The domain of strand port `n`: STRAND_A for ports 0 to 15, else STRAND_B. -/
def strDom (n : Nat) : Nat := if n < 16 then 6 else 7

/-- Dormant, or on the way into or out of it. -/
def isDormant (b : Blk) : Bool :=
  match b.pwr.stage with
  | .entry => true
  | .dormant => true
  | .exit => true
  | .retry => true
  | _ => false

/-! ### Tables of like units -/

/-- Time base `n`. -/
def Blk.tb (b : Blk) (n : Nat) : TimeBase := Tab.at {} b.tbs n

/-- Time base `n` takes `x`. -/
def Blk.setTb (b : Blk) (n : Nat) (x : TimeBase) : Blk := { b with tbs := Tab.upd {} b.tbs n x }

end Sys2Proof.Machine
end

