-- ==== Sys2Proof/Machine/CalBase.lean ====
section
/-!
DEFINITION. Swatch jobs as the other blocks see them (R413, R415, R417): which runs, its interval, and how one ends.
-/
namespace Sys2Proof.Machine

/-- The CAL block beside its registers takes `x`. -/
def Blk.setCal (b : Blk) (x : Cal) : Blk := { b with cal := x }

/-- The job of strand port `n`. -/
def swJob (b : Blk) (n : Nat) : Option SwJob := Tab.at none b.cal.strs n
/-- Port `n` has the job `j`, shown in CAL_STATUS. -/
def setSwJob (b : Blk) (n : Nat) (j : Option SwJob) : Blk :=
  (b.setCal { b.cal with strs := Tab.upd none b.cal.strs n j }).setFlag Reg.CAL_STATUS n j.isSome

/-- The interval planned or run of port `n`. -/
def swInterval (b : Blk) (n : Nat) : Option (Int × Int) := (swJob b n).bind (·.placed)

/-- A job ends with result `code` (R415): CAL_LAST_JOB, DONE, and FAIL on a code other than 0. -/
def calEnded (b : Blk) (job code : Nat) : Blk :=
  let b := (b.wrN Reg.CAL_LAST_JOB (job + 65536 * code)).irq Reg.CAL_INT_STATUS 0
  if code = 0 then b else b.irq Reg.CAL_INT_STATUS 1

/-- The job of strand port `n` ends with `code`, where one runs or is refused at its start. -/
def swEnd (b : Blk) (n code : Nat) (apply : Bool) : Blk :=
  let b := (setSwJob b n none).wrN (Reg.CAL_STRn_RESULT n) code
  let b := if code = 0 then b else b.count (Reg.CAL_STRn_FAILS n)
  calEnded b (n + 1024 * b2n apply) code

/-- EN cleared, a rate change, a FUNC change or a reset of the domain ends the port's job (R415). -/
def swAbort (b : Blk) (n : Nat) : Blk :=
  match swJob b n with
  | some j => swEnd b n 4 j.apply
  | none => b

/-- The job of drive channel `c` ends with `code`. -/
def drvJobEnd (b : Blk) (c code : Nat) (apply : Bool) : Blk :=
  let b := b.setCal { b.cal with drvs := Tab.upd none b.cal.drvs c none }
  calEnded ((b.setFlag Reg.CAL_STATUS_DRV c false).wrN (Reg.CAL_DRVc_RESULT c) code) (c + 256 + 1024 * b2n apply) code

/-- EN cleared, or a reset of DRIVE, ends the job of drive channel `c` (R415). -/
def drvJobAbort (b : Blk) (c : Nat) : Blk :=
  match Tab.at none b.cal.drvs c with
  | some a => drvJobEnd b c 4 a
  | none => b

/-- EQ and PREEMPH of port `n`. -/
def phyEq (b : Blk) (n : Nat) : Nat := b.fld (Reg.STR_n_PHY n) 11 8
def phyPe (b : Blk) (n : Nat) : Nat := b.fld (Reg.STR_n_PHY n) 6 4

/-- What is in effect is shown in CAL_STRn_GAUGE (R426). -/
def swShow (b : Blk) (n : Nat) : Blk :=
  (b.setFld (Reg.CAL_STRn_GAUGE n) 3 0 (phyEq b n)).setFld (Reg.CAL_STRn_GAUGE n) 26 24 (phyPe b n)

/-- A write of STR_n_PHY, or its reset, takes effect at once and ends the movement of what it writes (R419). -/
def phyWritten (b : Blk) (n : Nat) : Blk :=
  let b := if (Tab.at none b.cal.eq n).isSome then b.setFld (Reg.CAL_STRn_GAUGE n) 7 4 (phyEq b n) else b
  swShow (b.setCal { b.cal with eq := Tab.upd none b.cal.eq n none, pe := Tab.upd none b.cal.pe n none }) n

/-- STANDBY is set: the port's job ends with code 6 (R415). -/
def swStandby (b : Blk) (n : Nat) : Blk :=
  match swJob b n with
  | some j => if b.flag (Reg.STR_n_CTRL n) 7 then swEnd b n 6 j.apply else b
  | none => b

/-- A START_ROW goes by without room for the interval of port `n`'s job: after 64 of them the job ends with NO_GAP (R417; log entry 54). -/
def swNoGap (b : Blk) (n : Nat) : Blk :=
  match swJob b n with
  | some j =>
    if j.placed.isSome then b
    else if j.rows + 1 < 64 then setSwJob b n (some { j with rows := j.rows + 1 })
    else swEnd b n 2 j.apply
  | none => b

/-- The registers of domain `d` are at their reset values: the links of its ports show that in the Gauges (R426). -/
def calShow (b : Blk) (d : Nat) : Blk :=
  match d with
  | 6 => (List.range 16).foldl phyWritten b
  | 7 => ((List.range 16).map (· + 16)).foldl phyWritten b
  | _ => b

/-- The jobs of domain `d`'s units end with a reset of it (R415); interruptions in progress end with the channels. -/
def calDomainReset (b : Blk) (d : Nat) : Blk :=
  match d with
  | 6 => (List.range 16).foldl swAbort b
  | 7 => ((List.range 16).map (· + 16)).foldl swAbort b
  | 8 =>
    let b := b.setCal { b.cal with broken := [] }
    (List.range 16).foldl drvJobAbort b
  | _ => b

/-- Unit `u` (ports, channels from 32, trunk ports from 48) has updated its Gauge now. -/
def calAge (b : Blk) (u : Nat) : Blk := b.setCal { b.cal with ages := Tab.upd 0 b.cal.ages u (b.now + 1) }

/-- AGE_MS of unit `u` (R426). -/
def calAgeMs (b : Blk) (u : Nat) : Nat :=
  match Tab.at 0 b.cal.ages u with
  | 0 => max32
  | t + 1 => min max32 ((b.now - t) / 1000000)

end Sys2Proof.Machine
end

