-- ==== Sys2Proof/Machine/Crc.lean ====
section
/-!
DEFINITION. The check-value units (R354 to R359).
-/
namespace Sys2Proof.Machine

/-- WIDTH of unit `n`: 0 and values above 64 act as 64 (Table 13-9). -/
def crcWidth (b : Blk) (n : Nat) : Nat :=
  let w := b.fld (Reg.CRC_n_CFG n) 6 0
  if w = 0 || 64 < w then 64 else w

/-- One bit enters a register of width `w` at the top. -/
def crcBit (w poly v : Nat) (x : Bool) : Nat :=
  let out := bit v (w - 1) != x
  let v := 2 * v % 2 ^ w
  if out then v ^^^ (poly % 2 ^ w) else v

/-- One byte enters, least significant bit first under REFIN. -/
def crcByte (w poly : Nat) (refin : Bool) (v : Nat) (x : Byte) : Nat :=
  (List.range 8).foldl (fun v i => crcBit w poly v (bit x.toNat (if refin then i else 7 - i))) v

/-- The low `w` bits of `v`, reversed. -/
def reflect (w v : Nat) : Nat := ((List.range w).map (fun i => if bit v i then 2 ^ (w - 1 - i) else 0)).sum

/-- VALUE of unit `n`. -/
def crcValue (b : Blk) (n : Nat) : Nat := b.rd64 (Reg.CRC_n_VALUE_LO n) (Reg.CRC_n_VALUE_HI n)
/-- VALUE takes `v`. -/
def crcPut (b : Blk) (n v : Nat) : Blk := b.wr64 (Reg.CRC_n_VALUE_LO n) (Reg.CRC_n_VALUE_HI n) v
/-- The register as the bytes of this clock enter it: a write of VALUE or an INIT of the clock comes after them (R357). -/
def crcRunning (b : Blk) (n : Nat) : Nat :=
  match Tab.at none b.crcSet n with
  | some (c, v) => if c = b.now then v else crcValue b n
  | none => crcValue b n
/-- The bytes of this clock leave the register at `v`. -/
def crcRun (b : Blk) (n v : Nat) : Blk :=
  match Tab.at none b.crcSet n with
  | some (c, _) => if c = b.now then { b with crcSet := Tab.upd none b.crcSet n (some (c, v)) } else crcPut b n v
  | none => crcPut b n v
/-- VALUE is written: `v`. -/
def crcWritten (b : Blk) (n v : Nat) : Blk := crcPut { b with crcSet := Tab.upd none b.crcSet n (some (b.now, crcRunning b n)) } n v
/-- INIT over W bits. -/
def crcInitial (b : Blk) (n : Nat) : Nat := b.rd64 (Reg.CRC_n_INIT_LO n) (Reg.CRC_n_INIT_HI n) % 2 ^ crcWidth b n

/-- RESULT of VALUE `v` (R354). -/
def crcResult (b : Blk) (n v : Nat) : Nat :=
  let w := crcWidth b n
  ((if b.flag (Reg.CRC_n_CFG n) 9 then reflect w v else v % 2 ^ w)
    ^^^ (b.rd64 (Reg.CRC_n_XOROUT_LO n) (Reg.CRC_n_XOROUT_HI n) % 2 ^ w))

/-- A unit ends (R356). -/
def crcEnd (b : Blk) (n : Nat) : Blk :=
  let r := crcResult b n (crcRunning b n)
  let b := (b.wr64 (Reg.CRC_n_RESULT_LO n) (Reg.CRC_n_RESULT_HI n) r).count (Reg.CRC_n_UNITS n)
  let b := b.irq Reg.CRC_INT_STATUS (8 + n)
  let same := r == b.rd64 (Reg.CRC_n_EXPECT_LO n) (Reg.CRC_n_EXPECT_HI n) % 2 ^ crcWidth b n
  let b := if !b.flag (Reg.CRC_n_CFG n) 10 then b.setFld (Reg.CRC_n_STATUS n) 1 0 0
    else
      let b := b.setFld (Reg.CRC_n_STATUS n) 1 0 (2 + b2n same)
      if same then b else (b.count (Reg.CRC_n_MISMATCHES n)).irq Reg.CRC_INT_STATUS n
  let b := if b.flag (Reg.CRC_n_CFG n) 11 then crcRun b n (crcInitial b n) else b
  { b with crcCount := Tab.upd 0 b.crcCount n 0 }

/-- An END command or a cycle pulse ends unit `n`; a second end in one clock is the same end (R357). -/
def crcEndOnce (b : Blk) (n : Nat) : Blk :=
  if bit (b.raisedNow Reg.CRC_INT_STATUS) (8 + n) then b
  else
    let u : CrcUndo := { clock := b.now, value := crcRunning b n, units := b.rd (Reg.CRC_n_UNITS n),
                         mismatches := b.rd (Reg.CRC_n_MISMATCHES n), mismatch := b.flag Reg.CRC_INT_STATUS n }
    crcEnd { b with crcEnded := Tab.upd none b.crcEnded n (some u) } n

/-- The unit that such an end has closed in this clock, as it was before the end: the bytes of the clock belong to it (R357). -/
def crcReopen (b : Blk) (n : Nat) : Option Blk :=
  match Tab.at none b.crcEnded n with
  | some u =>
    if u.clock = b.now then
      some (((crcRun b n u.value).wr (Reg.CRC_n_UNITS n) u.units).wr (Reg.CRC_n_MISMATCHES n) u.mismatches |>.setFlag
        Reg.CRC_INT_STATUS n u.mismatch)
    else none
  | none => none

/-- A byte enters unit `n`. -/
def crcFeed (n : Nat) (b : Blk) (x : Byte) : Blk :=
  let poly := b.rd64 (Reg.CRC_n_POLY_LO n) (Reg.CRC_n_POLY_HI n)
  let b := crcRun b n (crcByte (crcWidth b n) poly (b.flag (Reg.CRC_n_CFG n) 8) (crcRunning b n) x)
  { b with crcCount := Tab.upd 0 b.crcCount n (Tab.at 0 b.crcCount n + 1) }.count (Reg.CRC_n_BYTES n)

/-- A byte is processed; under UNIT 1 the CRC_n_COUNT-th ends the unit. A unit that the clock has ended takes it and ends again (R357). -/
def crcTake (n : Nat) (b : Blk) (x : Byte) : Blk :=
  match crcReopen b n with
  | some b' =>
    let b' := crcFeed n b' x
    let u := (Tab.at none b'.crcEnded n).map (fun u => { u with value := crcRunning b' n })
    crcEnd { b' with crcEnded := Tab.upd none b'.crcEnded n u } n
  | none =>
    let b := crcFeed n b x
    if b.fld (Reg.CRC_n_CFG n) 17 16 = 1 && max 1 (b.rdN (Reg.CRC_n_COUNT n)) ≤ Tab.at 0 b.crcCount n then crcEnd b n else b

/-- Unit `n` snoops `kind` and `index`, an INDEX above the kind's last acting as that (R453); a trunk frame passes its filter (R355). -/
def crcSnoops (b : Blk) (n kind index etype : Nat) : Bool :=
  let src := b.rdN (Reg.CRC_n_SRC n)
  b.flag (Reg.CRC_n_CFG n) 12 && bits src 3 0 == kind && (kind == 3 || kind == 6 || min (bits src 12 8) (if kind = 4 then 15 else if kind = 5 then 3 else 31) == index)
    && !(kind == 5 && b.flag (Reg.CRC_n_FILTER n) 16 && b.fld (Reg.CRC_n_FILTER n) 15 0 != etype)

/-- A frame unit of a snoop source passes the units (R355, R356). -/
def crcSnoop (b : Blk) (kind index etype : Nat) (bs : List Byte) : Blk :=
  (List.range 8).foldl (fun b n =>
    if crcSnoops b n kind index etype then
      let b := bs.foldl (crcTake n) b
      if b.fld (Reg.CRC_n_CFG n) 17 16 = 0 then crcEnd b n else b
    else b) b

/-- The flash controller returns the bytes `bs` of a read at `a` (R355). -/
def flashSeen (b : Blk) (a : Nat) (bs : List Byte) : Blk := if 0x60000000 ≤ a && a < 0x70000000 then crcSnoop b 6 0 0 bs else b

/-- A cycle line pulses: it ends the units of UNIT 2 that name it (R356). -/
def crcCycle (b : Blk) (line : Nat) : Blk :=
  (List.range 8).foldl (fun b n =>
    if b.fld (Reg.CRC_n_CFG n) 17 16 = 2 && b.fld (Reg.CRC_n_CFG n) 23 20 = line then crcEndOnce b n else b) b

/-- CMD.END: it ends a unit of UNIT 3 (R356). -/
def crcEndCmd (n : Nat) (b : Blk) : Blk := if b.fld (Reg.CRC_n_CFG n) 17 16 = 3 then crcEndOnce b n else b

/-- CRC_END (R356). -/
def execCrcEnd (n : Fin 8) (s : State) : Result := inDom 1 (onBlk (crcEndCmd n)) s

/-- CMD.INIT: VALUE takes INIT (R357). -/
def crcInitCmd (n : Nat) (b : Blk) : Blk := crcWritten b n (crcInitial b n)

/-- CRC_INIT (R357). -/
def execCrcInit (n : Fin 8) (s : State) : Result := inDom 1 (onBlk (crcInitCmd n)) s

/-- CLR_COUNTS (R359). -/
def crcClrCounts (b : Blk) : Blk :=
  b.zero ((List.range 8).flatMap (fun n => [Reg.CRC_n_UNITS n, Reg.CRC_n_MISMATCHES n, Reg.CRC_n_BYTES n]))

/-- CRC_CLR_COUNTS (R359). -/
def execCrcClrCounts (s : State) : Result := inDom 1 (onBlk crcClrCounts) s

end Sys2Proof.Machine
end

