-- ==== Sys2Proof/Machine/Ecc.lean ====
section
/-!
DEFINITION. The fabric's memory errors and its monitoring (R17, R24 to R27).
-/
namespace Sys2Proof.Machine

/-- The bank of a fabric SRAM address, numbered in the order canvas store, Pool, firmware SRAM (Table 1-5, R412). -/
def sramBank (a : Nat) : Nat :=
  if 0x20000000 ≤ a then 32 * ((a - 0x20000000) / 2 ^ 24 % 3) + a / 256 % 32
  else if 0x10000000 ≤ a then 96 + (a - 0x10000000) / 4096 % 64
  else 160 + 8 * ((a - 0x08000000) / 2 ^ 22 % 2) + a / 4096 % 8

/-- What the check bits of a read at `a` by requester code `src` of class `cls` say (R26): a corrected error is counted for the
fabric and for its bank, an uncorrectable one is counted and the first one's address and requester are latched. -/
def eccFound (b : Blk) (found : EccResult) (a src cls : Nat) : Blk :=
  match found with
  | .clean => b
  | .corrected => lifeAdd (b.count Reg.SYS_ECC_CE_COUNT) (Reg.LOG_ECC_m (sramBank a)) 1
  | .uncorrectable =>
    let b := b.count Reg.SYS_ECC_UE_COUNT
    if b.rd Reg.SYS_ECC_UE_ADDR = 0#32 then
      ((b.wrN Reg.SYS_ECC_UE_ADDR a).wrN Reg.SYS_ECC_UE_SRC (256 * src + cls)).irq Reg.SYS_INT_STATUS 1
    else b

/-- A request of class `c` has waited 32 µs (R24): the firing is counted, and the longest wait of its class is 32,000 ns at least
(Table 1-10). -/
def fabGuard (c : Nat) (b : Blk) : Blk :=
  let a := Reg.SYS_FAB_MAXWAIT0 + 4 * c
  ((b.count Reg.SYS_FAB_GUARD_COUNT).irq Reg.SYS_INT_STATUS 0).wrN a (max (b.rdN a) 32000)

/-- FAB_GUARD (R24). -/
def execFabGuard (c : Fin 4) (s : State) : Result := inDom 1 (onBlk (fabGuard (c + 1))) s

/-- What the check bits of a read of the switch buffer say: bank `bank` of Table 1-5 has no fabric address, so nothing is latched, and
an uncorrectable word is the switch's own affair (R26, R262). -/
def bufferEcc (b : Blk) (found : EccResult) (bank : Nat) : Blk :=
  match found with
  | .corrected => lifeAdd (b.count Reg.SYS_ECC_CE_COUNT) (Reg.LOG_ECC_m (176 + bank % 16)) 1
  | _ => b

/-- An address of the 72 MiB that the patrol scrubber covers, in a domain that is on (R27, Table 1-5). -/
def scrubbed (b : Blk) (a : Nat) : Bool :=
  (0x08000000 ≤ a && a < 0x08800000) || (0x10000000 ≤ a && a < 0x11000000) || (0x20000000 ≤ a && a < 0x23000000 && domOn b 4)

/-- What the check bits of words of fabric SRAM said as requester code `src` of class `cls` read them, by address (R26). -/
def eccAll (b : Blk) (found : List (BitVec 32 × EccResult)) (src cls : Nat) : Blk :=
  found.foldl (fun b x => if scrubbed b x.1.toNat then eccFound b x.2 x.1.toNat src cls else b) b

/-- One of the `k` bytes at `a` lies in a word that could not be corrected: the read completes with an error and returns 0 (R26). -/
def eccHit (b : Blk) (found : List (BitVec 32 × EccResult)) (a k : Nat) : Bool :=
  found.any (fun x => x.2 == .uncorrectable && scrubbed b x.1.toNat && decide (x.1.toNat / 4 * 4 < a + k) && decide (a < x.1.toNat / 4 * 4 + 4))

/-- A burst is scrubbed: a corrected word is rewritten as it reads, an uncorrectable one is left as it is (R26). The patrol scrubber
reads the fabric SRAM with SCRUB_EN set; TRK scrubs bank `buffer` of the switch buffer itself (R27). -/
def patrolScrub (a : Nat) (buffer : Option Nat) (found : EccResult) (b : Blk) : Blk :=
  match buffer with
  | some bank => if domOn b 3 then bufferEcc b found bank else b
  | none => if b.flag Reg.SYS_FAB_CTRL 2 && scrubbed b a then eccFound b found a 0x64 4 else b

/-- PATROL_SCRUB (R27). -/
def execPatrolScrub (a : BitVec 32) (buffer : Option (Fin 16)) (found : EccResult) (s : State) : Result :=
  inDom 1 (onBlk (patrolScrub a.toNat (buffer.map (·.val)) found)) s

/-- A write of SYS_FAB_CTRL: ECC_CLR and MAXWAIT_CLR (Table 1-11). -/
def fabCtrlWritten (b : Blk) (v : Nat) : Blk :=
  let b := if bit v 1 then
      b.zero [Reg.SYS_ECC_CE_COUNT, Reg.SYS_ECC_UE_COUNT, Reg.SYS_ECC_UE_ADDR, Reg.SYS_ECC_UE_SRC]
    else b
  if bit v 0 then b.zero ((List.range 5).map (fun c => Reg.SYS_FAB_MAXWAIT0 + 4 * c)) else b

end Sys2Proof.Machine
end

