-- ==== Sys2Proof/Machine/CanvasBase.lean ====
section
/-!
DEFINITION. The Sheet's geometry and storage (R91 to R95, R111) and what a new FRAME value of the canvas Meridian does to the two
buffers (R106, R108 to R110). The ingest is in Canvas.lean.
-/
namespace Sys2Proof.Machine

/-- A Sheet: its raster, rectangle, sampling, depth, layout and source (R91, R93). -/
structure Sheet where
  src : Nat
  semi : Bool
  ten : Bool
  /-- 0 4:2:0, 1 4:2:2. -/
  samp : Nat
  rw : Nat
  rh : Nat
  x : Nat
  y : Nat
  w : Nat
  h : Nat
  deriving DecidableEq, Repr

/-- The Sheet that four words in the layout of CNV_STAGE_FORMAT, RASTER, ORIGIN and SIZE give (Tables 4-6 and 4-10). -/
def sheetOf (fmt raster origin size : Nat) : Sheet :=
  { src := bits fmt 6 4, semi := bit fmt 3, ten := bit fmt 2, samp := bits fmt 1 0
    rw := bits raster 12 0, rh := bits raster 28 16, x := bits origin 12 0, y := bits origin 28 16
    w := bits size 12 0, h := bits size 28 16 }

/-- The Sheet in effect. -/
def cnvSheet (b : Blk) : Sheet :=
  sheetOf (b.rdN Reg.CNV_FORMAT) (b.rdN Reg.CNV_RASTER) (b.rdN Reg.CNV_ORIGIN) (b.rdN Reg.CNV_SIZE)

/-- The pitch of a plane line of `n` samples (R94). -/
def pitchOf (ten : Bool) (n : Nat) : Nat := if ten then (n + 47) / 48 * 64 else (n + 63) / 64 * 64

/-- The Y pitch. -/
def Sheet.pitchY (g : Sheet) : Nat := pitchOf g.ten g.w
/-- The chroma pitch: W / 2 samples planar, W semi-planar. -/
def Sheet.pitchC (g : Sheet) : Nat := pitchOf g.ten (if g.semi then g.w else g.w / 2)
/-- The lines of a chroma plane. -/
def Sheet.linesC (g : Sheet) : Nat := if g.samp = 0 then g.h / 2 else g.h
/-- CNV_FRAME_BYTES (R94). -/
def Sheet.frameBytes (g : Sheet) : Nat := g.pitchY * g.h + (if g.semi then 1 else 2) * (g.pitchC * g.linesC)

/-- The conditions of R93 on an apply, with SRC and SAMPLING below the refused codes of Table 4-10. -/
def Sheet.ok (g : Sheet) : Bool :=
  g.src ≤ 4 && g.samp ≤ 1
    && 16 ≤ g.rw && g.rw ≤ 7680 && g.rw % 2 == 0 && 8 ≤ g.rh && g.rh ≤ 4320
    && g.x % 2 == 0 && g.w % 2 == 0 && 2 ≤ g.w && 1 ≤ g.h
    && (g.samp == 1 || (g.y % 2 == 0 && g.h % 2 == 0 && g.rh % 2 == 0))
    && g.x + g.w ≤ g.rw && g.y + g.h ≤ g.rh
    && g.frameBytes ≤ 25165824

/-- The base of buffer 0 or 1 (R95). -/
def bufBase (i : Nat) : Nat := if i = 0 then 0x20000000 else 0x21800000

/-- The base of plane `p` (0 Y, 1 Cb or CbCr, 2 Cr) in buffer `i` (R95). -/
def Sheet.plane (g : Sheet) (i p : Nat) : Nat :=
  bufBase i + (if p = 0 then 0 else g.pitchY * g.h) + (if p = 2 then g.pitchC * g.linesC else 0)

/-- The line address and the sample index in it of a sample of plane `p` (0 Y, 1 Cb, 2 Cr) at Sheet position (`x`, `y`) of the
plane's own grid (R94, R95). -/
def Sheet.loc (g : Sheet) (i p x y : Nat) : Nat × Nat :=
  if p = 0 then (g.plane i 0 + y * g.pitchY, x)
  else if g.semi then (g.plane i 1 + y * g.pitchC, 2 * x + (p - 1))
  else (g.plane i p + y * g.pitchC, x)

/-- The stored sample number `k` of the line at `a` (R94, Table 4-1). -/
def storedSample (m : Mem) (ten : Bool) (a k : Nat) : Nat :=
  if ten then bits (Mem.le m (a + 4 * (k / 3)) 4) (10 * (k % 3) + 9) (10 * (k % 3)) else (Mem.byte m (a + k)).toNat

/-- The stored sample of plane `p` at Sheet position (`x`, `y`). -/
def Sheet.sample (g : Sheet) (m : Mem) (i p x y : Nat) : Nat :=
  let l := g.loc i p x y
  storedSample m g.ten l.1 l.2

/-! ### CNV_STATUS (Table 4-8) -/

/-- The back buffer's state: 0 FREE, 1 FILLING, 2 PENDING, 3 LATCHED. -/
def cnvBack (b : Blk) : Nat := b.fld Reg.CNV_STATUS 5 4
/-- The front buffer's index. -/
def cnvFront (b : Blk) : Nat := b.fld Reg.CNV_STATUS 3 3
/-- The back buffer's index. -/
def cnvBackIdx (b : Blk) : Nat := 1 - cnvFront b
/-- The canvas Meridian. -/
def cnvMer (b : Blk) : Nat := b.fld Reg.CNV_CTRL 4 4
/-- The back buffer's state becomes `st` and FLIP_PENDING `fp`. -/
def cnvSetBack (b : Blk) (st fp : Nat) : Blk := (b.setFld Reg.CNV_STATUS 5 4 st).setFld Reg.CNV_STATUS 1 0 fp
/-- The canvas record takes `c`. -/
def Blk.setCnv (b : Blk) (c : Canvas) : Blk := { b with cnv := c }

/-- Ingest is enabled: EN, and a source other than none in effect (R112). -/
def cnvIngest (b : Blk) : Bool := b.flag Reg.CNV_CTRL 0 && b.fld Reg.CNV_FORMAT 6 4 != 0

/-- The switch of R108: a LATCHED buffer becomes the front, the old front a FREE back buffer. -/
def cnvSwitch (b : Blk) : Blk :=
  if cnvBack b = 3 then
    let b := (cnvSetBack b 0 0).setFld Reg.CNV_STATUS 3 3 (cnvBackIdx b)
    let old := b.rdN Reg.CNV_SRC_FRAME
    let b := (b.setFlag Reg.CNV_STATUS 2 true).wrN Reg.CNV_SRC_FRAME b.cnv.backFrame
    let b := b.setCnv { b.cnv with backFrame := old }
    (b.irq Reg.CNV_INT_STATUS 1).count Reg.CNV_FLIP_COUNT
  else b

/-- FLIP_PENDING and CNV_FLIP_FRAME of a commit that waits in PENDING, at FRAME `frame` (R109); `running` is false while the canvas
Meridian is OFF (R110). -/
def cnvPlan (b : Blk) (running : Bool) (frame : Nat) : Blk :=
  if cnvBack b != 2 then b
  else if !running then (b.setFld Reg.CNV_STATUS 1 0 2).wrN Reg.CNV_FLIP_FRAME 0
  else if b.cnv.latchDone then (b.setFld Reg.CNV_STATUS 1 0 2).wrN Reg.CNV_FLIP_FRAME (frame + 2)
  else (b.setFld Reg.CNV_STATUS 1 0 1).wrN Reg.CNV_FLIP_FRAME (frame + 1)

/-- Meridian `m` enters FRAME value `frame` (R108): a latch cycle is to come; where the value is a new one, a LATCHED buffer
becomes the front. -/
def cnvEntry (b : Blk) (m frame : Nat) (isNew : Bool) : Blk :=
  if cnvMer b != m then b
  else
    let b := if isNew then cnvSwitch b else b
    cnvPlan (b.setCnv { b.cnv with latchDone := false }) true frame

/-- Meridian `m` goes OFF: a commit that waits reads NEXT_FLIP and frame 0 (R110). -/
def cnvOff (b : Blk) (m : Nat) : Blk :=
  if cnvMer b != m then b else cnvPlan (b.setCnv { b.cnv with latchDone := false }) false 0

/-! ### The pair's hold on what sends (R285, R293) -/

/-- Region emitters and the E1.31 transmit path send: the unit is in no pair, or ACTIVE or YIELDING and enabled by a START_FRAME. -/
def pairSends (b : Blk) : Bool :=
  b.fld Reg.PAIR_STATUS 1 0 == 0 || (2 ≤ b.fld Reg.PAIR_STATUS 1 0 && b.pair.txOn)

end Sys2Proof.Machine
end

