-- ==== Sys2Proof/Machine/MerModel.lean ====
section
/-!
DEFINITION. Meridian positions: the mode in effect, the model that gives the position (R59, R60, R64, R66), the resolution of a
discontinuity (R71, R72) and the lock states that follow the time base (R69, R454). Instants are in units of 2^-48 ns.
-/
namespace Sys2Proof.Machine

/-- One nanosecond in the unit of a time base's internal fraction (R34). -/
def nsUnit : Nat := 2 ^ 48

/-- A second in the unit of a time base. -/
def secUnit : Nat := 10 ^ 9 * nsUnit

/-- The modulus of a time base: SEC wraps after 2^48 - 1 (R34). -/
def tbModulus : Nat := 2 ^ 48 * secUnit

/-- The parts of a time base's reading: SEC, NS, SUBNS (Table 2-1). -/
def tbParts (t : Nat) : Nat × Nat × Nat := (t / secUnit, t % secUnit / nsUnit, t % nsUnit / 2 ^ 32)

/-- Meridian `m`. -/
def Blk.mer (b : Blk) (m : Nat) : Meridian := Tab.at {} b.mers m

/-- Meridian `m` takes `x`. -/
def Blk.setMer (b : Blk) (m : Nat) (x : Meridian) : Blk := { b with mers := Tab.upd {} b.mers m x }

/-! ### The mode in effect (Tables 3-11 and 3-15) -/

/-- SRC in effect: 0 FREE, 1 VIDEO, 2 LTC, 3 AUDIO, 4 MAINS, 5 REMOTE. -/
def merSrc (b : Blk) (m : Nat) : Nat := b.fld (Reg.MERm_STAGE_SRC m) 2 0
/-- TB_SEL in effect. -/
def merTbSel (b : Blk) (m : Nat) : Nat := b.fld (Reg.MERm_STAGE_SRC m) 5 4
/-- FROM_TB in effect. -/
def merFromTb (b : Blk) (m : Nat) : Bool := b.flag (Reg.MERm_STAGE_SRC m) 6
/-- POL in effect: true for falling edges. -/
def merPol (b : Blk) (m : Nat) : Bool := b.flag (Reg.MERm_STAGE_SRC m) 7
/-- TICKS_PER_FRAME in effect (R61). -/
def merTpf (b : Blk) (m : Nat) : Nat := limit 1 65535 (b.fld (Reg.MERm_STAGE_LAYOUT m) 15 0)
/-- ROWS_PER_FRAME in effect (R61). -/
def merRows (b : Blk) (m : Nat) : Nat := limit 1 64 (b.fld (Reg.MERm_STAGE_LAYOUT m) 22 16)
/-- L of R61: the ticks of a Row. -/
def merRowLen (b : Blk) (m : Nat) : Nat := max 1 (merTpf b m / merRows b m)
/-- SAMPLES_PER_TICK, or FSYNC_TICK. -/
def merParam (b : Blk) (m : Nat) : Nat := b.fld (Reg.MERm_STAGE_PARAM m) 15 0
/-- RATE_NUM. -/
def merRateNum (b : Blk) (m : Nat) : Nat := max 1 (b.rdN (Reg.MERm_STAGE_RATE_NUM m))
/-- RATE_DEN. -/
def merRateDen (b : Blk) (m : Nat) : Nat := max 1 (b.fld (Reg.MERm_STAGE_RATE_DEN m) 15 0)

/-- A nominal tick period in units of 2^-32 ns, exactly: numerator and denominator. -/
structure TickFrac where
  num : Nat
  den : Nat

/-- The exact nominal tick period for a source, its rate and its staged period (R61, Table 3-2): a mains tick is 1/4,096 of a cycle. -/
def nominalFrac (src : Nat) (fromTb mains60 : Bool) (tpf param num den staged : Nat) : TickFrac :=
  if src = 4 then { num := 10 ^ 9 * 2 ^ 32, den := (if mains60 then 60 else 50) * 4096 }
  else if fromTb && src = 1 then { num := den * 10 ^ 9 * 2 ^ 32, den := num * tpf }
  else if fromTb && src = 3 then { num := max 1 param * den * 10 ^ 9 * 2 ^ 32, den := num }
  else { num := staged, den := 1 }

/-- The tick period to the nearest 2^-32 ns, the unit of P (R60). -/
def TickFrac.period (x : TickFrac) : Nat := max 1 ((2 * x.num + x.den) / (2 * x.den))

/-- The nominal tick period lies within 100 ns to 1 s (R61). -/
def TickFrac.tickOk (x : TickFrac) : Bool := decide (100 * 2 ^ 32 * x.den ≤ x.num) && decide (x.num ≤ 10 ^ 9 * 2 ^ 32 * x.den)

/-- The nominal frame rate lies within 10 Hz to 480 Hz (R62). -/
def TickFrac.rateOk (x : TickFrac) (tpf : Nat) : Bool :=
  decide (10 ^ 9 * 2 ^ 32 * x.den ≤ 480 * tpf * x.num) && decide (tpf * x.num ≤ 10 ^ 8 * 2 ^ 32 * x.den)

/-- The nominal tick period of Meridian `m` where register `a` holds `look a` (values out of range acting as R453 says). -/
def merFracAt (m : Nat) (look : Nat → Nat) : TickFrac :=
  let src := look (Reg.MERm_STAGE_SRC m)
  nominalFrac (bits src 2 0) (bit src 6) (bit src 11) (max 1 (bits (look (Reg.MERm_STAGE_LAYOUT m)) 15 0))
    (bits (look (Reg.MERm_STAGE_PARAM m)) 15 0) (max 1 (look (Reg.MERm_STAGE_RATE_NUM m)))
    (max 1 (bits (look (Reg.MERm_STAGE_RATE_DEN m)) 15 0))
    (look (Reg.MERm_STAGE_PERIOD_LO m) + 2 ^ 32 * look (Reg.MERm_STAGE_PERIOD_HI m))

/-- The exact nominal tick period of the mode in effect. -/
def merFrac (b : Blk) (m : Nat) : TickFrac := merFracAt m b.rdN

/-- The nominal tick period of the mode in effect, in units of 2^-32 ns. -/
def merNominal (b : Blk) (m : Nat) : Nat := (merFrac b m).period

/-- A source that derives its position directly from the time base (R64). -/
def merTimeDefined (b : Blk) (m : Nat) : Bool :=
  merSrc b m == 0 || ((merSrc b m == 1 || merSrc b m == 3) && merFromTb b m)

/-- A source steered by reference edges (R64). -/
def merEdgeTracked (b : Blk) (m : Nat) : Bool := !merTimeDefined b m && merSrc b m != 5

/-- STATE of MERm_STATUS: 0 OFF, 1 FREE, 2 ACQUIRE, 3 LOCKED, 4 HOLDOVER. -/
def merState (b : Blk) (m : Nat) : Nat := b.fld (Reg.MERm_STATUS m) 2 0

/-- The Meridian runs: MERm_CTRL.EN. -/
def merOn (b : Blk) (m : Nat) : Bool := b.flag (Reg.MERm_CTRL m) 0

/-- STATE of TBn_STATUS: 0 OFF, 1 FREE, 2 ACQUIRE, 3 LOCKED, 4 HOLDOVER, 5 REFUSED. -/
def tbState (b : Blk) (n : Nat) : Nat := b.fld (Reg.TBn_STATUS n) 2 0

/-- The instant the Meridian runs on: its time base, or the fabric clock alone while that is OFF (R454). -/
def merTime (b : Blk) (m : Nat) : Int :=
  match (b.mer m).coast with
  | some (t, clock) => t + ((b.now - clock : Nat) : Int) * nsUnit
  | none => ((b.tb (merTbSel b m)).time : Nat)

/-! ### Positions -/

/-- Ticks of a frame in units of 2^-16 tick. -/
def merTpf16 (b : Blk) (m : Nat) : Nat := merTpf b m * 65536

/-- FRAME and TICK.FRAC with the carry of R59 taken. -/
def normPos (tpf16 : Nat) (frame : Nat) (sub : Int) : Nat × Nat :=
  ((((frame : Int) + sub / tpf16) % (2 ^ 32 : Nat)).toNat, (sub % tpf16).toNat)

/-- The position of a time-defined source at instant `t` since frame 0 (R66, Table 3-2), in units of 2^-16 tick divided by `k`. -/
def merDefined (b : Blk) (m k : Nat) (t : Int) : Int :=
  let num := merRateNum b m
  let den := merRateDen b m
  if merSrc b m = 0 then
    let anchor : Nat := (b.rd64 (Reg.MERm_STAGE_ANCHOR_SEC_LO m) (Reg.MERm_STAGE_ANCHOR_SEC_HI m) * 10 ^ 9
      + b.rdN (Reg.MERm_STAGE_ANCHOR_NS m)) * nsUnit
    (t - anchor) * k / merNominal b m
  else if merSrc b m = 1 then
    t * (num * merTpf b m * 65536 * k : Nat) / (den * 10 ^ 9 * nsUnit : Nat)
  else
    t * (num * 65536 * k : Nat) / (den * max 1 (merParam b m) * 10 ^ 9 * nsUnit : Nat)

/-- The position that a model, or the definition of Table 3-2, gives at instant `t`, in units of 2^-16 tick divided by `k`. -/
def merFine (b : Blk) (m k : Nat) (x : MerModel) (byDef : Bool) (t : Int) : Nat × Nat :=
  if byDef then normPos (merTpf16 b m * k) 0 (merDefined b m k t)
  else normPos (merTpf16 b m * k) x.frame (x.sub * k + (t - x.t) * k / max 1 x.period)

/-- The position that a model, or the definition of Table 3-2, gives at instant `t`. -/
def merEval (b : Blk) (m : Nat) (x : MerModel) (byDef : Bool) (t : Int) : Nat × Nat := merFine b m 1 x byDef t

/-- The running position: FRAME, and TICK.FRAC in units of 2^-16 tick; position 0 while OFF (Table 3-3). -/
def merPos (b : Blk) (m : Nat) : Nat × Nat :=
  if merState b m = 0 then (0, 0)
  else merEval b m (b.mer m).model (b.mer m).byDef (merTime b m)

/-- TICK of the running position. -/
def merTick (b : Blk) (m : Nat) : Nat := (merPos b m).2 / 65536

/-- The Row of the running position (R61). -/
def merRow (b : Blk) (m : Nat) : Nat := merTick b m / merRowLen b m

/-- FRAME `f` less FRAME `g` as R59 takes it: modulo 2^32, signed. -/
def frameDiff (f g : Nat) : Int := sx 32 (f + 2 ^ 32 - g % 2 ^ 32)

/-- Position `p` less position `q` in units of 2^-16 tick (R59). -/
def posDiff (tpf16 : Nat) (p q : Nat × Nat) : Int := frameDiff p.1 q.1 * tpf16 + ((p.2 : Int) - q.2)

/-- The tick period of the model in use. -/
def merPeriod (b : Blk) (m : Nat) : Nat :=
  if (b.mer m).byDef then merNominal b m else max 1 (b.mer m).model.period

/-- The model moved to an anchor at `t` or less than 2^-16 tick before it, without a change of any position it gives. -/
def MerModel.rebase (x : MerModel) (tpf16 : Nat) (t : Int) : MerModel :=
  let p : Int := max 1 x.period
  let pos := normPos tpf16 x.frame (x.sub + (t - x.t) / p)
  { x with t := t - (t - x.t) % p, frame := pos.1, sub := pos.2 }

/-- The position that the definition of Table 3-2 gives at instant `t`, as a linear model with tick period `period`. -/
def merDefLine (b : Blk) (m : Nat) (t : Int) (period : Nat) : MerModel :=
  let p := merFine b m (2 ^ 32) {} true t
  { t := t - (p.2 % 2 ^ 32 * period / 2 ^ 32 : Nat), frame := p.1, sub := (p.2 / 2 ^ 32 : Nat), period }

/-- A model, or the definition, as a linear model that gives the same position now and goes on at tick period `period`. -/
def merLine (b : Blk) (m : Nat) (x : MerModel) (byDef : Bool) (period : Nat) : MerModel :=
  if byDef then merDefLine b m (merTime b m) period
  else
    let r := x.rebase (merTpf16 b m) (merTime b m)
    { r with t := merTime b m - (merTime b m - r.t) * period / max 1 x.period, period }

/-- The running position as a linear model that goes on from now at tick period `period`. -/
def merAnchored (b : Blk) (m : Nat) (period : Nat) : MerModel := merLine b m (b.mer m).model (b.mer m).byDef period

/-- The model that the position follows, or slews to while a slew runs (log entry 8), and whether it is the definition. -/
def merGoal (b : Blk) (m : Nat) : MerModel × Bool := (b.mer m).target.getD ((b.mer m).model, (b.mer m).byDef)

/-- The tick period of a model, or the nominal one of the definition. -/
def goalPeriod (b : Blk) (m : Nat) (g : MerModel × Bool) : Nat := if g.2 then merNominal b m else max 1 g.1.period

/-- The instant at which the definition of Table 3-2 reaches `pos`, in 2^-16 ticks since its frame 0, to the nearest 2^-48 ns. -/
def merDefInstant (b : Blk) (m : Nat) (pos : Int) : Int :=
  let num := merRateNum b m
  let den := merRateDen b m
  if merSrc b m = 0 then
    let anchor : Nat := (b.rd64 (Reg.MERm_STAGE_ANCHOR_SEC_LO m) (Reg.MERm_STAGE_ANCHOR_SEC_HI m) * 10 ^ 9
      + b.rdN (Reg.MERm_STAGE_ANCHOR_NS m)) * nsUnit
    anchor + pos * merNominal b m
  else if merSrc b m = 1 then roundDiv (pos * (den * 10 ^ 9 * nsUnit : Nat)) (num * merTpf b m * 65536)
  else roundDiv (pos * (den * max 1 (merParam b m) * 10 ^ 9 * nsUnit : Nat)) (num * 65536)

/-- The instant at which the model, or the definition, reaches position `p`: T_A + (p - P_A) x P (R60), unrounded. -/
def merExact (b : Blk) (m : Nat) (p : Nat × Nat) : Int :=
  let x := b.mer m
  if x.byDef then merDefInstant b m (merDefined b m 1 (merTime b m) + posDiff (merTpf16 b m) p (merPos b m))
  else
    let run := x.model.rebase (merTpf16 b m) (merTime b m)
    run.t + posDiff (merTpf16 b m) p (run.frame, run.sub.toNat) * (max 1 run.period : Nat)

/-- The instant of position `p` as the hardware gives it: computed to 2^-16 ns and rounded to the nearest 250 ps (R60). -/
def merInstant (b : Blk) (m : Nat) (p : Nat × Nat) : Int :=
  roundDiv (roundDiv (merExact b m p) (2 ^ 32)) (2 ^ 14) * 2 ^ 46

/-! ### Waypoints skipped by a jump (R72, R83) -/

/-- Waypoint entry `i`. -/
def Blk.wpt (b : Blk) (i : Nat) : Option Waypoint := Tab.at none b.wpts i

/-- Waypoint entry `i` takes `x`, and WPT_STATUS counts the valid entries (R80). -/
def Blk.setWpt (b : Blk) (i : Nat) (x : Option Waypoint) : Blk :=
  let b := { b with wpts := Tab.upd none b.wpts i x }
  b.setFld Reg.WPT_STATUS 10 0 b.wpts.length

/-- Fields of an entry (Table 3-7). -/
def Waypoint.frac (w : Waypoint) : Nat := bits w.w1 15 0
/-- TICK. -/
def Waypoint.tick (w : Waypoint) : Nat := bits w.w1 31 16
/-- PERIOD, 0 for a one-shot entry. -/
def Waypoint.period (w : Waypoint) : Nat := bits w.w2 15 0
/-- ACTION. -/
def Waypoint.action (w : Waypoint) : Nat := bits w.w2 23 16
/-- MERIDIAN. -/
def Waypoint.mer (w : Waypoint) : Nat := bits w.w2 25 25
/-- LATE_OK. -/
def Waypoint.lateOk (w : Waypoint) : Bool := bit w.w2 26
/-- FDIV of a periodic entry, 0 acting as 1. -/
def Waypoint.fdiv (w : Waypoint) : Nat := max 1 (bits w.w0 15 0)
/-- FPHASE of a periodic entry. -/
def Waypoint.fphase (w : Waypoint) : Nat := bits w.w0 31 16
/-- The position within a frame, in units of 2^-16 tick. -/
def Waypoint.sub (w : Waypoint) : Nat := w.tick * 65536 + w.frac

/-- The repeat of a periodic entry, in units of 2^-16 tick. -/
def Waypoint.per16 (w : Waypoint) : Nat := max 1 (w.period * 65536)

/-- Entry `i` is late or deferred. -/
def wptWaits (b : Blk) (i : Nat) : Bool := b.wptDue.any (fun d => d.index == i)

/-- The next position at or after the running one at which a periodic entry fires (R81). -/
def wptNext (b : Blk) (w : Waypoint) : Nat × Nat :=
  let p := merPos b w.mer
  let k := if p.2 ≤ w.sub then 0 else (p.2 - w.sub + w.per16 - 1) / w.per16
  let c := w.sub + k * w.per16
  if p.1 % w.fdiv = w.fphase && c < merTpf16 b w.mer then (p.1, c)
  else
    let f := p.1 + 1
    let g := f + (w.fphase + w.fdiv - f % w.fdiv) % w.fdiv
    (if g < 2 ^ 32 then g else w.fphase, w.sub)

/-- The last position before the running one, or with `here` at it, at which a periodic entry fires (R81). -/
def wptLast (b : Blk) (w : Waypoint) (here : Bool) : Nat × Nat :=
  let p := merPos b w.mer
  let q := p.2 + b2n here
  if p.1 % w.fdiv = w.fphase && w.sub < q then (p.1, w.sub + (q - 1 - w.sub) / w.per16 * w.per16)
  else
    let back (f : Nat) : Nat := f - (f + w.fdiv - w.fphase) % w.fdiv
    let f := if w.fphase < p.1 then back (p.1 - 1) else back (2 ^ 32 - 1)
    (f, w.sub + (merTpf16 b w.mer - 1 - w.sub) / w.per16 * w.per16)

/-- A periodic entry goes on from its next instance at or after the running position (R72, R80, R83). -/
def wptFrom (b : Blk) (w : Waypoint) : Waypoint := if w.period = 0 then w else { w with done := some (wptLast b w false) }

/-- The periodic entries of Meridian `m` go on from its new position. -/
def wptRebase (b : Blk) (m : Nat) : Blk :=
  { b with wpts := b.wpts.map (fun e => (e.1, e.2.map (fun w => if w.armed && w.mer = m then wptFrom b w else w))) }

/-- The late case of R83: a late entry fires at once with LATE_OK, and is dropped and counted without it. -/
def wptLate (b : Blk) (i : Nat) (w : Waypoint) : Blk :=
  if w.lateOk then
    let b := ((b.count Reg.WPT_LATE_COUNT).irq Reg.WPT_INT_STATUS 1).setWpt i (some { w with late := true })
    { b with wptDue := b.wptDue ++ [{ clock := b.now, index := i }] }
  else
    let b := ((b.count Reg.WPT_MISSED_COUNT).irq Reg.WPT_INT_STATUS 0).wrN Reg.WPT_LAST_MISSED i
    b.setWpt i (if w.period = 0 then none else some w)

/-- One-shot entries of Meridian `m` whose positions a jump from `p` to `q` skipped (R72). -/
def wptSkipped (b : Blk) (m : Nat) (p q : Nat × Nat) : List (Nat × Waypoint) :=
  b.wpts.filterMap (fun e =>
    match e.2 with
    | some w =>
      if w.armed && w.period = 0 && w.mer = m && !wptWaits b e.1
          && decide (0 < posDiff (merTpf16 b m) (w.w0, w.sub) p)
          && decide (posDiff (merTpf16 b m) (w.w0, w.sub) q < 0)
      then some (e.1, w) else none
    | none => none)

/-! ### Discontinuities (R71) -/

/-- SLEWING ends. -/
def merSlewOff (b : Blk) (m : Nat) : Blk := (b.setMer m { b.mer m with target := none }).setFlag (Reg.MERm_STATUS m) 5 false

/-- The frequency of a tick period against the nominal one, in 1/4 ppb (R67). -/
def merFreqOf (nominal period : Nat) : Int :=
  clampI (-2147483648) 2147483647 (roundDiv (((nominal : Int) - period) * (4 * 10 ^ 9 : Nat)) (max 1 period))

/-- MERm_FREQ shows the f in effect, that of tick period `period`. -/
def merShowFreq (b : Blk) (m period : Nat) : Blk := b.wrI (Reg.MERm_FREQ m) (merFreqOf (merNominal b m) period)

/-- The model, or the definition, takes effect at once. -/
def merTake (b : Blk) (m : Nat) (x : MerModel) (byDef : Bool) : Blk :=
  merShowFreq (merSlewOff (b.setMer m { b.mer m with model := x, byDef }) m) m (goalPeriod b m (x, byDef))

/-- The words of a model block (Table 3-6). -/
def modelWords (t : Int) (pos : Nat × Nat) (period : Nat) : List Nat :=
  let p := tbParts (t % tbModulus).toNat
  [p.2.2, p.2.1, p.1 % 2 ^ 32, p.1 / 2 ^ 32, pos.2, pos.1, period % 2 ^ 32, period / 2 ^ 32]

/-- Words go to `a`, `a + 4`, and so on. -/
def Blk.wrWords (b : Blk) (a : Nat) : List Nat → Blk
  | [] => b
  | w :: ws => Blk.wrWords (b.wrN a w) (a + 4) ws

/-- MERm_SEG takes a segment: SEG_READY (R73). -/
def merSegment (b : Blk) (m : Nat) (t : Int) (pos : Nat × Nat) (period : Nat) : Blk :=
  (b.wrWords (Reg.MERm_SEG_x m 0) (modelWords t pos period)).irq (Reg.MERm_INT_STATUS m) 11

/-- A discontinuity of a publishing Meridian starts a segment at once, with the discontinuity as its anchor (R73). -/
def merSegNow (b : Blk) (m : Nat) (x : MerModel) (byDef : Bool) : Blk :=
  if b.flag (Reg.MERm_CTRL m) 2 then
    merSegment b m (merTime b m) (merEval b m x byDef (merTime b m)) (goalPeriod b m (x, byDef))
  else b

/-- Meridian `m` enters its position anew: a START_FRAME that it passed before is due again (R119). -/
def frameAnew (b : Blk) (m : Nat) : Blk := { b with stc := { b.stc with frameAt := Tab.upd none b.stc.frameAt m none } }

/-- A jump (R71, R72): the position is replaced, JUMP and SUPPRESS are set, the segments of the old numbering are gone (R73), periodic entries
go on from the new position, and skipped one-shot entries are late, at once or, where WPT_CTRL.EN is clear, when it is set (R80). -/
def merJump (b : Blk) (m : Nat) (x : MerModel) (byDef : Bool) : Blk :=
  let p := merPos b m
  let b := merTake b m x byDef
  let q := merPos b m
  let b := ((b.irq (Reg.MERm_INT_STATUS m) 5).count (Reg.MERm_JUMP_COUNT m)).setFlag (Reg.MERm_STATUS m) 6 true
  let b := b.setMer m { b.mer m with jumpSinceBearing := true, segments := [] }
  let b := frameAnew (wptRebase (cnvEntry (merSegNow b m x byDef) m q.1 (q.1 != p.1)) m) m
  if b.flag Reg.WPT_CTRL 0 then (wptSkipped b m p q).foldl (fun b e => wptLate b e.1 e.2) b else b

/-- JUMP_THRESH in units of 2^-16 tick, 0 meaning half a frame (R71). -/
def merJumpThresh (b : Blk) (m : Nat) : Nat :=
  let v := b.fld (Reg.MERm_JUMP_THRESH m) 15 0
  if v = 0 then merTpf16 b m / 2 else v * 65536

/-- Δ of R71, a model's position less the running one now, in units of 2^-48 tick. -/
def merAhead (b : Blk) (m : Nat) (x : MerModel) (byDef : Bool) : Int :=
  let k := 2 ^ 32
  let run := if merState b m = 0 then (0, 0) else merFine b m k (b.mer m).model (b.mer m).byDef (merTime b m)
  posDiff (merTpf16 b m * k) (merFine b m k x byDef (merTime b m)) run

/-- Δ of R71 in units of 2^-48 ns, through the tick period of the new model. -/
def merAheadNs (b : Blk) (m : Nat) (x : MerModel) (byDef : Bool) : Int :=
  merAhead b m x byDef * goalPeriod b m (x, byDef) / (2 ^ 32 : Nat)

/-- A slew to a model: the position runs faster or slower than it by SLEW_RATE until the difference is absorbed (R71). -/
def merSlew (b : Blk) (m : Nat) (x : MerModel) (byDef : Bool) : Blk :=
  let rate := limit 1 100000 (b.rdN (Reg.MERm_SLEW_RATE m))
  let p := goalPeriod b m (x, byDef)
  let p' := if 0 ≤ merAhead b m x byDef then p * 10 ^ 6 / (10 ^ 6 + rate) else p * 10 ^ 6 / (10 ^ 6 - rate)
  let run := merAnchored b m (max 1 p')
  let b := b.setMer m { b.mer m with model := run, byDef := false, target := some (x, byDef) }
  (merShowFreq b m p).setFlag (Reg.MERm_STATUS m) 5 true

/-- MERm_SLEW_REMAIN: Δ still to absorb, in 0.25 ns. -/
def merSlewRemain (b : Blk) (m : Nat) : Int :=
  match (b.mer m).target with
  | some (x, byDef) => roundDiv (merAheadNs b m x byDef * 4) nsUnit
  | none => 0

/-- The resolution of R71 of the difference between a new model and the running position: step, slew or jump. -/
def merResolve (b : Blk) (m : Nat) (x : MerModel) (byDef : Bool) : Blk :=
  if (merAheadNs b m x byDef).natAbs ≤ b.rdN (Reg.MERm_STEP_LIMIT m) * nsUnit then merSegNow (merTake b m x byDef) m x byDef
  else if (merAhead b m x byDef).natAbs < merJumpThresh b m * 2 ^ 32 then merSegNow (merSlew b m x byDef) m x byDef
  else merJump b m x byDef

/-- The slew is complete: the model it led to takes over (R71). -/
def merSlewDone (b : Blk) (m : Nat) : Blk :=
  match (b.mer m).target with
  | some (x, byDef) => merTake b m x byDef
  | none => b

/-! ### The rate of a model (R67, R73) -/

/-- The tick period at frequency word `f` in 1/4 ppb against `nom` (R67), to the nearest 2^-32 ns. -/
def merPeriodAt (nom : Nat) (f : Int) : Nat :=
  let d : Int := 4 * 10 ^ 9 + f
  if d ≤ 0 then nom else max 1 (roundDiv ((nom : Int) * (4 * 10 ^ 9)) d).toNat

/-- The loop's frequency word in 1/4 ppb: f in effect, but for PUBLISH (R73). -/
def merFreq (b : Blk) (m : Nat) : Int := (b.mer m).freq

/-- The model goes on from now at another tick period; a slew goes on to it. -/
def merSetPeriod (b : Blk) (m period : Nat) : Blk :=
  match (b.mer m).target with
  | some (x, byDef) => merSlew b m (merLine b m x byDef period) false
  | none => merShowFreq (b.setMer m { b.mer m with model := merAnchored b m period, byDef := false }) m period

/-- A new frequency word takes effect: on the model at once, or with PUBLISH set from boundary F + PUBLISH_LEAD (R73). -/
def merSetFreq (b : Blk) (m : Nat) (f : Int) : Blk :=
  let b := b.setMer m { b.mer m with freq := f }
  if b.flag (Reg.MERm_CTRL m) 2 then b else merSetPeriod b m (merPeriodAt (merNominal b m) f)

/-! ### Lock states that follow the time base (R69, R454) -/

/-- The state changes: LOCK on entering LOCKED, UNLOCK on leaving it, HOLDOVER on entering HOLDOVER (Table 3-14). -/
def merEnter (b : Blk) (m : Nat) (st : Nat) : Blk :=
  let old := merState b m
  if old = st then b else
  let b := b.setFld (Reg.MERm_STATUS m) 2 0 st
  let b := if st = 3 then b.irq (Reg.MERm_INT_STATUS m) 0 else b
  let b := if old = 3 then b.irq (Reg.MERm_INT_STATUS m) 1 else b
  let b := if st = 4 then (b.irq (Reg.MERm_INT_STATUS m) 2).wr (Reg.MERm_HOLDOVER_MS m) 0#32 else b
  if old = 4 then b.wr (Reg.MERm_HOLDOVER_MS m) 0#32 else b

/-- The state Table 3-4 gives a time-defined or REMOTE Meridian. -/
def merTableState (b : Blk) (m : Nat) : Nat :=
  let t := tbState b (merTbSel b m)
  let x := b.mer m
  if merSrc b m = 5 then
    if !x.modelLoaded then 1
    else if t = 2 then 2
    else if t = 3 && b.flag (Reg.MERm_STATUS m) 11 && !x.bearingStale then 3
    else 4
  else if t = 1 then (if merSrc b m = 0 then 3 else 1)
  else if t = 2 then 2
  else if t = 3 then 3
  else 4

/-- The mains slew limit on a frequency word in 1/4 ppb: MAINS_SLEW mHz per second over `t48` (R65). -/
def mainsSlewed (b : Blk) (m : Nat) (f : Int) (t48 : Nat) : Int :=
  if merSrc b m = 4 then
    let nom : Nat := if b.flag (Reg.MERm_STAGE_SRC m) 11 then 60 else 50
    -- mHz per second x seconds / 1000 / nominal, in 1/4 ppb
    let d : Int := (b.rdN (Reg.MERm_MAINS_SLEW m) * t48 * 4 * 10 ^ 6 / (nom * secUnit) : Nat)
    clampI (merFreq b m - d) (merFreq b m + d) f
  else f

/-- The integrator as a frequency word, to the nearest 1/4 ppb. -/
def merHeld (b : Blk) (m : Nat) : Int := ((b.mer m).integ + 2 ^ 37) / 2 ^ 38

/-- In HOLDOVER f is held at the integrator (Table 3-3, R70); a MAINS Meridian moves there by MAINS_SLEW (R65). -/
def merHoldover (b : Blk) (m : Nat) : Blk :=
  let b := merEnter b m 4
  if merSrc b m = 4 then b else merSetFreq b m (merHeld b m)

/-- A millisecond of HOLDOVER on MAINS: f moves towards the integrator by at most MAINS_SLEW (R65). -/
def merMainsHold (b : Blk) (m : Nat) : Blk :=
  if merSrc b m = 4 && merOn b m && merFreq b m != merHeld b m then
    merSetFreq b m (mainsSlewed b m (merHeld b m) (10 ^ 6 * nsUnit))
  else b

/-- MERm_CTRL.HOLD forces HOLDOVER (Table 3-12); otherwise a time-defined or REMOTE Meridian takes the state of Table 3-4, and
an edge-tracked one whose time base is OFF is in HOLDOVER (R454). -/
def merSync (b : Blk) (m : Nat) : Blk :=
  if !merOn b m then b
  else if merEdgeTracked b m then
    if (merState b m = 2 || merState b m = 3)
        && (b.flag (Reg.MERm_CTRL m) 1 || tbState b (merTbSel b m) = 0) then merHoldover b m
    else if merState b m = 1 && tbState b (merTbSel b m) = 0 then merHoldover b m
    else b
  else
    let st := if b.flag (Reg.MERm_CTRL m) 1 && !(merSrc b m == 5 && !(b.mer m).modelLoaded) then 4 else merTableState b m
    let b := merEnter b m st
    if merSrc b m = 5 then b.setFlag (Reg.MERm_STATUS m) 7 (b.mer m).modelLoaded
    else if st = 3 then b.setFlag (Reg.MERm_STATUS m) 7 true else b

/-- Both Meridians follow their time bases' states. -/
def merSyncAll (b : Blk) : Blk := merSync (merSync b 0) 1

/-- A time base was set or stepped by `d` (R66): an edge-tracked Meridian's anchor moves with it; a time-defined or REMOTE one
resolves the difference under R71. -/
def merTbMoved (b : Blk) (m n : Nat) (d : Int) : Blk :=
  if merOn b m && merTbSel b m = n && (b.mer m).coast.isNone then
    let x := b.mer m
    if merEdgeTracked b m then
      b.setMer m { x with model := { x.model with t := x.model.t + d }
                          target := x.target.map (fun g => ({ g.1 with t := g.1.t + d }, g.2))
                          lastUpdate := x.lastUpdate.map (· + d), lastEdge := x.lastEdge.map (· + d) }
    else
      -- the running position is the one before the move: evaluated at the old reading
      let run : MerModel :=
        if x.byDef then { merDefLine b m (merTime b m - d) (merPeriod b m) with t := (merDefLine b m (merTime b m - d) (merPeriod b m)).t + d }
        else { x.model with t := x.model.t + d }
      let new := merGoal b m
      merResolve (b.setMer m { x with model := run, byDef := false }) m new.1 new.2
  else b

end Sys2Proof.Machine
end

