-- ==== Sys2Proof/Machine/TimeBase.lean ====
section
/-!
DEFINITION. Time bases: set and step (R37), the offset samples (R38, R39), the servo and its states (R40 to R43), the domain
pair (R46, R47), SyncE (R44, R45), and the transmit timestamp queues (R52, R53).
-/
namespace Sys2Proof.Machine

/-- The words a read of TBn_TIME captures: SUBNS, NS, SEC_LO, SEC_HI (Table 2-11). -/
def tbTimeWords (t : Nat) : List Nat :=
  let p := tbParts t
  [p.2.2, p.2.1, p.1 % 2 ^ 32, p.1 / 2 ^ 32]

/-- The amount a time base advances in one fabric clock: 1 ns x (1 + f x 10^-9), f in 1/256 ppb, to the nearest 2^-48 ns, a value
exactly halfway going up (R35). -/
def tbIncrement (f : Int) : Nat :=
  ((2 * nsUnit * (256 * 10 ^ 9 + f) + 256 * 10 ^ 9) / (2 * 256 * 10 ^ 9)).toNat

/-- The time base counts from its present reading at the frequency word in effect: the start of a stretch at one rate. -/
def tbMark (b : Blk) (n : Nat) : Blk :=
  let x := b.tb n
  let old := x.hist.filter (fun h => h.clock != b.now)
  let recent := old.takeWhile (fun h => decide (b.now ≤ h.clock + 10 ^ 7))
  b.setTb n { x with hist := { clock := b.now, time := x.time, inc := tbIncrement (b.rdI (Reg.TBn_FREQ n)) }
                       :: recent ++ (old.drop recent.length).take 1 }

/-- The reading of time base `n` at fabric clock `c`, now or up to 10 ms ago; before its record, the oldest rate carries back. -/
def tbAt (b : Blk) (n c : Nat) : Nat :=
  let x := b.tb n
  match x.hist.find? (fun h => decide (h.clock ≤ c)) with
  | some h => (h.time + (c - h.clock) * h.inc) % tbModulus
  | none =>
    let h := x.hist.getLast?.getD { clock := b.now, time := x.time, inc := tbIncrement (b.rdI (Reg.TBn_FREQ n)) }
    h.time - (h.clock - c) * h.inc

/-- The time base's reading changes to `t`: the Meridians that use it follow R66, and the last sample moves with it, so that T_k stays
the interval since that sample (R40; log entry 62). -/
def tbPut (b : Blk) (n : Nat) (t : Int) : Blk :=
  let t' := (t % tbModulus).toNat
  let d : Int := (t' : Int) - (b.tb n).time
  let b := tbMark (b.setTb n { b.tb n with time := t', lastSample := (b.tb n).lastSample.map (fun s => ((s + d) % tbModulus).toNat) }) n
  merTbMoved (merTbMoved b 0 n d) 1 n d

/-- A set or a step is counted, sets STEPPED, and is remembered for the samples of its clock (R37). -/
def tbStepped (b : Blk) (n : Nat) : Blk :=
  let b := b.setTb n { b.tb n with setClock := some b.now }
  (b.count (Reg.TBn_STEP_COUNT n)).irq (Reg.TBn_INT_STATUS n) 4

/-- A step: at once (R37). -/
def tbApply (b : Blk) (n : Nat) (t : Int) : Blk := tbStepped (tbPut b n t) n

/-- The frequency word in effect, in 1/256 ppb (Table 2-11); only the servo's clamps act on one, so FREQ_CLAMPED clears (Table 2-13). -/
def tbSetFreq (b : Blk) (n : Nat) (f : Int) : Blk := tbMark ((b.wrI (Reg.TBn_FREQ n) f).setFlag (Reg.TBn_STATUS n) 5 false) n

/-- The integrator, or the DPLL's estimate in its place (R45), in units of 2^-40 ppb. -/
def tbIntegrator (b : Blk) (n : Nat) : Int :=
  if b.flag (Reg.TBn_CTRL n) 4 then b.rdI Reg.TRK_SYNCE_FREQ * 2 ^ 32 else (b.tb n).integ

/-- A value in units of 2^-40 ppb as a frequency word, to the nearest 1/256 ppb. -/
def toFreqWord (i : Int) : Int := (i + 2 ^ 31) / 2 ^ 32

/-- The state changes: LOCK on entering LOCKED, UNLOCK on leaving it, HOLDOVER on entering HOLDOVER (Table 2-14); the runs
restart, TBn_HOLDOVER_MS restarts outside a holdover or refusal, and the Meridians follow (R69). From HOLDOVER to REFUSED the count goes
on (log entry 62). -/
def tbEnter (b : Blk) (n st : Nat) : Blk :=
  let old := tbState b n
  let b := b.setTb n { b.tb n with good := 0, bad := 0 }
  let b := b.setFld (Reg.TBn_STATUS n) 2 0 st
  let b := if st = 3 && old != 3 then b.irq (Reg.TBn_INT_STATUS n) 0 else b
  let b := if old = 3 && st != 3 then b.irq (Reg.TBn_INT_STATUS n) 1 else b
  let b := if st = 4 && old != 4 then b.irq (Reg.TBn_INT_STATUS n) 2 else b
  let b := if st < 4 || old < 4 then b.wr (Reg.TBn_HOLDOVER_MS n) 0#32 else b
  if n = 1 then merSyncAll (b.setFlag Reg.TB0_PAIR_STATUS 1 (st == 3)) else merSyncAll b

/-- D = TB1 - TB0 in units of 2^-16 ns (R46). -/
def pairDiff (b : Blk) : Int := (((b.tb 1).time : Int) - (b.tb 0).time) / 2 ^ 32

/-- JUMP_ARMED as the sample of this clock sees it (R43). -/
def tbArmed (b : Blk) (n : Nat) : Bool :=
  b.flag (Reg.TBn_STATUS n) 4 && ((b.tb n).armClock != some b.now || (b.tb n).armedBefore)

/-- A discarded sample: SAMPLE_DROP and nothing else; TB0's own samples under domain B also count (R39, R47). -/
def tbDrop (b : Blk) (n : Nat) (own : Bool) : Blk :=
  let b := b.irq (Reg.TBn_INT_STATUS n) 5
  if own && n = 0 && b.flag Reg.TB0_PAIR_STATUS 0 then b.count Reg.TB0_PAIR_DISCARD_COUNT else b

/-- An accepted sample: counted, remembered, and JUMP_ARMED clears if it was armed for this sample, but not what an ACCEPT_JUMP of this
clock arms for the next (R43). -/
def tbAccept (b : Blk) (n : Nat) (theta : Int) : Blk :=
  let armed := tbArmed b n
  let b := (b.count (Reg.TBn_SAMPLE_COUNT n)).wr64 (Reg.TBn_LAST_OFS_LO n) (Reg.TBn_LAST_OFS_HI n) (ux 64 theta)
  let b := b.setTb n { b.tb n with lastSample := some (b.tb n).time }
  let b := b.setTb n { b.tb n with armedBefore := false }
  if armed && (b.tb n).armClock != some b.now then b.setFlag (Reg.TBn_STATUS n) 4 false else b

/-- The servo of R40: `theta` in 2^-16 ns, `t48` the interval in 2^-48 ns. -/
def tbServo (b : Blk) (n : Nat) (theta : Int) (t48 : Nat) : Blk :=
  let locked := tbState b n = 3
  let synce := b.flag (Reg.TBn_CTRL n) 4
  let kp := b.rdN (if locked then Reg.TBn_KP_LOCK n else Reg.TBn_KP_ACQ n)
  let ki := if synce then 0 else b.rdN (if locked then Reg.TBn_KI_LOCK n else Reg.TBn_KI_ACQ n)
  let lim : Int := b.rdN (Reg.TBn_FREQ_LIMIT n) * 2 ^ 32
  -- gain x theta / T in units of 2^-40 ppb: theta / 2^16 ns over t48 / 2^48 / 10^9 s, gain / 2^16
  let term (k : Nat) : Int := roundDiv (k * theta * (10 ^ 9 * 2 ^ 56 : Nat)) t48
  let i0 := tbIntegrator b n - term ki
  let i := clampI (-lim) lim i0
  let f0 := i - term kp
  let f := clampI (-lim) lim f0
  let acting := i != i0 || f != f0
  let b := if synce then b else b.setTb n { b.tb n with integ := i }
  let b := tbSetFreq b n (toFreqWord f)
  let b := b.setFlag (Reg.TBn_STATUS n) 5 acting
  if acting then b.irq (Reg.TBn_INT_STATUS n) 6 else b

/-- The lock test of Table 2-4 after a servo update. -/
def tbLockTest (b : Blk) (n : Nat) (theta : Int) : Blk :=
  let within := theta.natAbs ≤ b.rdN (Reg.TBn_LOCK_THRESH n) * 2 ^ 16
  let want := limit 1 255 (b.fld (Reg.TBn_LOCK_COUNT n) 7 0)
  let x := b.tb n
  if tbState b n = 2 then
    let good := if within then x.good + 1 else 0
    let b := b.setTb n { x with good, bad := 0 }
    if want ≤ good then tbEnter b n 3 else b
  else if tbState b n = 3 then
    let bad := if within then 0 else x.bad + 1
    let b := b.setTb n { x with bad, good := 0 }
    if want ≤ bad then tbEnter b n 2 else b
  else b

/-- T_k of R40: measured on the time base, 1 ms to 16 s; the longest where no sample was accepted before (log entry 7). -/
def tbInterval (b : Blk) (n : Nat) : Nat :=
  match (b.tb n).lastSample with
  | some t => limit (10 ^ 6 * nsUnit) (16 * secUnit) (((b.tb n).time + tbModulus - t) % tbModulus)
  | none => 16 * secUnit

/-- A sample that is not discarded, as Table 2-4 and R43 say. The one that takes HOLDOVER or REFUSED back to ACQUIRE is the first of the
LOCK_COUNT samples in a row (DESIGN CHOICE, log entry 62); under PPS_10M the first after INIT is the PPS capture (Table 2-2). -/
def tbSample (b : Blk) (n : Nat) (theta : Int) : Blk :=
  let b := b.setTb n { b.tb n with sampleClock := some b.now }
  let b := if b.fld (Reg.TBn_CTRL n) 3 2 = 3 && !(b.tb n).ppsTaken then
      b.setTb n { b.tb n with ppsTaken := true, edges10m := 0 } else b
  let big := decide (b.rdN (Reg.TBn_JUMP_LIMIT n) * 2 ^ 16 < theta.natAbs)
  if b.flag (Reg.TBn_STATUS n) 3 then
    -- INIT: applied as a step of -theta
    let b := (tbAccept b n theta).setFlag (Reg.TBn_STATUS n) 3 false
    tbApply b n ((b.tb n).time - theta * 2 ^ 32)
  else if big && tbArmed b n then
    let b := tbEnter (tbAccept b n theta) n 2
    tbApply b n ((b.tb n).time - theta * 2 ^ 32)
  else if big then
    let b := ((b.count (Reg.TBn_JUMP_COUNT n)).wr64 (Reg.TBn_LAST_REFUSED_LO n) (Reg.TBn_LAST_REFUSED_HI n)
      (ux 64 theta)).irq (Reg.TBn_INT_STATUS n) 3
    if tbState b n = 5 then b else tbSetFreq (tbEnter b n 5) n (toFreqWord (tbIntegrator b n))
  else
    let t48 := tbInterval b n
    let b := if 4 ≤ tbState b n then tbEnter b n 2 else b
    tbLockTest (tbServo (tbAccept b n theta) n theta t48) n theta

/-- Whether a sample of time base `n` is discarded (R37, R39); `own` for TB0's own samples, not the derived ones. -/
def tbDiscards (b : Blk) (n : Nat) (own : Bool) : Bool :=
  tbState b n < 2 || b.flag (Reg.TBn_CTRL n) 5 || (b.tb n).setClock == some b.now
    || (own && n == 0 && b.flag Reg.TB0_PAIR_STATUS 0)

/-- A sample arrives: discarded, or held until its clock ends (`tbSamplesAct`). -/
def tbSubmit (b : Blk) (n : Nat) (theta : Int) : Blk :=
  if tbDiscards b n true then tbDrop b n true else b.setTb n { b.tb n with samples := (b.tb n).samples ++ [theta] }

/-- A sample is discarded or taken; while domain B is selected a sample of TB1 is also applied to TB0 (R46). -/
def tbSampleActs (n : Nat) (b : Blk) (theta : Int) : Blk :=
  let dNow := pairDiff b
  let derived := n = 1 && b.flag Reg.TB0_PAIR_STATUS 0
  if tbDiscards b n true then tbDrop b n true
  else
    let b := tbSample b n theta
    if derived then
      let t0 := theta - dNow + sx 64 (b.rd64 Reg.TB0_PAIR_DSW_LO Reg.TB0_PAIR_DSW_HI)
      if tbDiscards b 0 false then tbDrop b 0 false else tbSample b 0 t0
    else b

/-- The clock ends: its samples act, unless a set or a step of the clock, before or after them in the queue, discards them (R37). -/
def tbSamplesAct (b : Blk) (n : Nat) : Blk :=
  (b.tb n).samples.foldl (tbSampleActs n) (b.setTb n { b.tb n with samples := [] })

/-- The switch of TB0 to domain B (R46). -/
def pairSwitch (b : Blk) : Blk :=
  let b := b.wr64 Reg.TB0_PAIR_DSW_LO Reg.TB0_PAIR_DSW_HI (ux 64 (pairDiff b))
  let b := (b.setFlag Reg.TB0_PAIR_CTRL 1 true).setFlag Reg.TB0_PAIR_STATUS 0 true
  (b.count Reg.TB0_PAIR_SWITCH_COUNT).irq (Reg.TBn_INT_STATUS 0) 7

/-- A write of TB0_PAIR_CTRL, old value `old`: SEL selects B only with EN set and TB1 LOCKED, and selecting A or clearing EN
returns TB0 to its own samples (R46, R47). -/
def pairCtrlWritten (b : Blk) (old : Nat) : Blk :=
  let en := b.flag Reg.TB0_PAIR_CTRL 0
  let sel := b.flag Reg.TB0_PAIR_CTRL 1
  if en && sel then
    if b.flag Reg.TB0_PAIR_STATUS 0 then b
    else if tbState b 1 = 3 then pairSwitch b
    else b.setFlag Reg.TB0_PAIR_CTRL 1 false
  else if sel && !bit old 1 && tbState b 1 != 3 then b.setFlag Reg.TB0_PAIR_CTRL 1 false
  else b.setFlag Reg.TB0_PAIR_STATUS 0 false

/-- f = TBn_FREQ_SET, in state FREE (Table 2-4). -/
def tbFree (b : Blk) (n : Nat) : Blk :=
  let b := (tbEnter b n 1).setFlag (Reg.TBn_STATUS n) 3 false
  let b := b.setTb n { b.tb n with lastSample := none }
  tbSetFreq b n (b.rdI (Reg.TBn_FREQ_SET n))

/-- ACQUIRE with INIT set, the integrator loaded from TBn_FREQ_SET (Table 2-4); f takes TBn_FREQ_SET too, where the table names only the
integrator (log entry 62). -/
def tbAcquireInit (b : Blk) (n : Nat) : Blk :=
  let b := (tbEnter b n 2).setFlag (Reg.TBn_STATUS n) 3 true
  let f := b.rdI (Reg.TBn_FREQ_SET n)
  let b := b.setTb n { b.tb n with integ := f * 2 ^ 32, lastSample := none, edges10m := 0, ppsTaken := false }
  tbSetFreq b n f

/-- HOLDOVER: f is the integrator (Table 2-4). -/
def tbHoldover (b : Blk) (n : Nat) : Blk :=
  let b := tbEnter b n 4
  tbSetFreq b n (toFreqWord (tbIntegrator b n))

/-- The time base stops: held at zero in OFF (R35), and the Meridians that use it coast on the fabric clock (R454). JUMP_ARMED and INIT
clear with it (log entry 62). -/
def tbOff (b : Blk) (n : Nat) : Blk :=
  let park (b : Blk) (m : Nat) : Blk :=
    if merOn b m && merTbSel b m = n then b.setMer m { b.mer m with coast := some (merTime b m, b.now) } else b
  let b := park (park b 0) 1
  let b := b.setTb n { samples := (b.tb n).samples }
  let b := b.wrN (Reg.TBn_STATUS n) (bits (b.rdN (Reg.TBn_STATUS n)) 2 0)
  tbEnter (b.wr (Reg.TBn_FREQ n) 0#32) n 0

/-- The time base counts from zero (R35); a coasting Meridian takes the restart as a set of the time base (R454). -/
def tbStart (b : Blk) (n : Nat) : Blk :=
  let b := tbMark b n
  let wake (b : Blk) (m : Nat) : Blk :=
    match (b.mer m).coast with
    | some _ =>
      if merTbSel b m = n then
        let d := ((b.tb n).time : Int) - merTime b m
        merTbMoved (b.setMer m { b.mer m with coast := none }) m n d
      else b
    | none => b
  wake (wake b 0) 1

/-- A write of TBn_CTRL, old value `old`: the transitions of Table 2-4 that its fields cause. -/
def tbCtrlWritten (b : Blk) (n old : Nat) : Blk :=
  let en := b.flag (Reg.TBn_CTRL n) 0
  let servo := b.flag (Reg.TBn_CTRL n) 1
  let hold := b.flag (Reg.TBn_CTRL n) 5
  let st := tbState b n
  if !en then (if st = 0 then b else tbOff b n)
  else
    let b := if st = 0 then tbStart b n else b
    let b :=
      if !servo then (if st = 1 then b else tbFree b n)
      else if st < 2 then tbAcquireInit b n
      else b
    let st := tbState b n
    let b := if bits (b.rdN (Reg.TBn_CTRL n)) 3 2 != bits old 3 2 then b.setTb n { b.tb n with edges10m := 0 } else b
    if hold && (st = 2 || st = 3) && !b.flag (Reg.TBn_STATUS n) 3 then tbHoldover b n
    else if (b.flag (Reg.TBn_CTRL n) 4 || bit old 4) && 4 ≤ st then tbSetFreq b n (toFreqWord (tbIntegrator b n))
    else b

/-! ### Meanings -/

/-- TBn_SET_* of requester `who` as an instant (R36, R37); nanoseconds beyond 999,999,999 carry into the seconds (log entry 62). -/
def tbSetValue (b : Blk) (n : Nat) (who : Requester) : Nat :=
  let w (a : Nat) : Nat := (b.latch who a).toNat
  (bits (w (Reg.TBn_SET_SEC_LO n)) 31 0 + 2 ^ 32 * bits (w (Reg.TBn_SET_SEC_HI n)) 15 0) * secUnit
    + bits (w (Reg.TBn_SET_NS n)) 29 0 * nsUnit + bits (w (Reg.TBn_SET_SUBNS n)) 15 0 * 2 ^ 32

/-- SET loads TBn_SET_* into an enabled time base on the next clock (R37); in OFF, which holds zero, it does nothing (log entry 62). -/
def tbSet (n : Nat) (who : Requester) (b : Blk) : Blk :=
  if tbState b n = 0 then b
  else
    let b := tbStepped b n
    b.setTb n { b.tb n with setNext := some (tbSetValue b n who % tbModulus) }

/-- The next clock: the time base advances by its increment, or takes the value that a SET loads (R35, R37). -/
def tbAdvance (b : Blk) (n : Nat) : Blk :=
  if tbState b n = 0 then b
  else
    let b := b.setTb n { b.tb n with time := ((b.tb n).time + tbIncrement (b.rdI (Reg.TBn_FREQ n))) % tbModulus }
    match (b.tb n).setNext with
    | some v => tbPut (b.setTb n { b.tb n with setNext := none }) n v
    | none => b

/-- TB_SET (R37). -/
def execTbSet (n : Fin 4) (who : Requester) (s : State) : Result := inDomBy 2 who (onBlk (tbSet n who)) s

/-- The signed step of requester `who`, in units of 2^-16 ns (R37). -/
def tbStepValue (b : Blk) (n : Nat) (who : Requester) : Int :=
  sx 64 ((b.latch who (Reg.TBn_STEP_LO n)).toNat + 2 ^ 32 * (b.latch who (Reg.TBn_STEP_HI n)).toNat)

/-- STEP adds the signed value to an enabled time base (R37); in OFF, which holds zero, it does nothing (log entry 62). -/
def tbStep (n : Nat) (who : Requester) (b : Blk) : Blk :=
  if tbState b n = 0 then b else tbApply b n ((b.tb n).time + tbStepValue b n who * 2 ^ 32)

/-- TB_STEP (R37). -/
def execTbStep (n : Fin 4) (who : Requester) (s : State) : Result := inDomBy 2 who (onBlk (tbStep n who)) s

/-- ACCEPT_JUMP sets JUMP_ARMED for the samples after this clock; one that was armed before stays armed for this clock's (R43). -/
def acceptJump (n : Nat) (b : Blk) : Blk :=
  (b.setTb n { b.tb n with armClock := some b.now, armedBefore := tbArmed b n }).setFlag (Reg.TBn_STATUS n) 4 true

/-- ACCEPT_JUMP (R43). -/
def execAcceptJump (n : Fin 4) (s : State) : Result := inDom 2 (onBlk (acceptJump n)) s

/-- CLR_COUNTS clears the sample, jump and step counts (R57). -/
def tbClrCounts (n : Nat) (b : Blk) : Blk :=
  b.zero [Reg.TBn_SAMPLE_COUNT n, Reg.TBn_JUMP_COUNT n, Reg.TBn_STEP_COUNT n]

/-- TB_CLR_COUNTS (R57). -/
def execTbClrCounts (n : Fin 4) (s : State) : Result := inDom 2 (onBlk (tbClrCounts n)) s

/-- A write to TBn_OFS_HI submits the sample, or is discarded while SRC is not FW (R39). -/
def tbOffsetSample (n : Nat) (who : Requester) (ofsHi : Word) (b : Blk) : Blk :=
  let theta := sx 64 ((b.latch who (Reg.TBn_OFS_LO n)).toNat + 2 ^ 32 * ofsHi.toNat)
  if b.fld (Reg.TBn_CTRL n) 3 2 != 0 then tbDrop b n true else tbSubmit b n theta

/-- TB_OFFSET_SAMPLE (R39 to R43, R46). -/
def execTbOffsetSample (n : Fin 4) (who : Requester) (ofsHi : Word) (s : State) : Result :=
  inDomBy 2 who (onBlk (tbOffsetSample n who ofsHi)) s

/-- An instant at the resolution of captures and stamps, 0.25 ns (R38, R48). -/
def quarterCut (t : Nat) : Nat := t / 2 ^ 46 * 2 ^ 46

/-- The capture of an edge in time base `n`, with the quarter nanosecond of the edge, at 0.25 ns, less TBn_PPS_DELAY (R38). -/
def tbCapture (b : Blk) (n quarter : Nat) : Int :=
  (quarterCut (b.tb n).time : Int) + quarter * 2 ^ 46 - b.rdI (Reg.TBn_PPS_DELAY n) * 2 ^ 46

/-- The offset of a PPS capture: from the nearest whole second, the later one where it is halfway (Table 2-2). -/
def ppsOffset (t : Int) : Int :=
  let h : Int := secUnit / 2
  (((t + h) % secUnit) - h) / 2 ^ 32

/-- The offset of a CLK10M capture: modulo 100 ns, from -50 ns up to but not including +50 ns (Table 2-2). -/
def clk10mOffset (t : Int) : Int :=
  let u : Int := 100 * nsUnit
  let h : Int := 50 * nsUnit
  (((t + h) % u) - h) / 2 ^ 32

/-- A PPS_IN edge at time base `n`: a sample for SRC 1, and the first sample after INIT for SRC 3 (Table 2-2). A change of SRC to PPS_10M
waits for such a sample even where INIT has been used up (log entry 62). -/
def tbPps (b : Blk) (n quarter : Nat) : Blk :=
  let src := b.fld (Reg.TBn_CTRL n) 3 2
  if src = 1 then tbSubmit b n (ppsOffset (tbCapture b n quarter))
  else if src = 3 && !(b.tb n).ppsTaken then
    tbSubmit b n (ppsOffset (tbCapture b n quarter))
  else b

/-- A CLK10M_IN edge at time base `n`: every 1,000th is a sample for SRC 2, and for SRC 3 after the first (Table 2-2). The edges are
counted from INIT, from the PPS sample or from the change of SRC (log entry 62). -/
def tbClk10m (b : Blk) (n quarter : Nat) : Blk :=
  let src := b.fld (Reg.TBn_CTRL n) 3 2
  if src = 2 || (src = 3 && (b.tb n).ppsTaken) then
    let k := (b.tb n).edges10m + 1
    if k < 1000 then b.setTb n { b.tb n with edges10m := k }
    else tbSubmit (b.setTb n { b.tb n with edges10m := 0 }) n (clk10mOffset (tbCapture b n quarter))
  else b

/-- An edge on PPS_IN reaches every time base (R38). -/
def ppsCapture (quarter : Nat) (b : Blk) : Blk := [0, 1, 2, 3].foldl (fun b n => tbPps b n quarter) b

/-- PPS_CAPTURE (R38). -/
def execPpsCapture (quarter : Fin 4) (s : State) : Result := inDom 2 (onBlk (ppsCapture quarter)) s

/-- One edge on CLK10M_IN, not the 1,000th, reaches every time base (R38; log entry 62). -/
def clk10mCapture (quarter : Nat) (b : Blk) : Blk := [0, 1, 2, 3].foldl (fun b n => tbClk10m b n quarter) b

/-- CLK10M_CAPTURE (R38). -/
def execClk10mCapture (quarter : Fin 4) (s : State) : Result := inDom 2 (onBlk (clk10mCapture quarter)) s

/-- TBn_SAMPLE_TIMEOUT has run since the last sample (R42), within its limits of 1 to 65,535 ms (R453). -/
def tbTimeoutDue (b : Blk) (n : Nat) : Bool :=
  (b.tb n).sampleClock.any (fun c => decide (c + limit 1 65535 (b.rdN (Reg.TBn_SAMPLE_TIMEOUT n)) * 10 ^ 6 ≤ b.now))

/-- SAMPLE_TIMEOUT would expire in this clock: a sample of the clock, before or after it in the queue, cancels it (R47), so that it acts
as the clock ends (`tbTimeoutActs`). Before its time it does nothing. -/
def tbSampleTimeout (n : Nat) (b : Blk) : Blk :=
  if tbTimeoutDue b n then b.setTb n { b.tb n with timeoutClock := some b.now } else b

/-- No sample for SAMPLE_TIMEOUT: HOLDOVER, or the switch of TB0 to domain B where AUTO finds TB1 LOCKED (R42, R46, R47). -/
def tbTimeoutActs (b : Blk) (n : Nat) : Blk :=
  if (b.tb n).timeoutClock.isNone then b
  else
  let b := b.setTb n { b.tb n with timeoutClock := none }
  if tbTimeoutDue b n && (tbState b n = 2 || tbState b n = 3) && !b.flag (Reg.TBn_STATUS n) 3 then
    if n = 0 && b.flag Reg.TB0_PAIR_CTRL 0 && b.flag Reg.TB0_PAIR_CTRL 2 && !b.flag Reg.TB0_PAIR_STATUS 0
        && tbState b 1 = 3 then pairSwitch b
    else tbHoldover b n
  else b

/-- TB_SAMPLE_TIMEOUT (R42). -/
def execTbSampleTimeout (n : Fin 4) (s : State) : Result := inDom 2 (onBlk (tbSampleTimeout n)) s

/-! ### SyncE (R44, R45) -/

/-- The trunk port of a reference. -/
def syncePort (b : Blk) (secondary : Bool) : Nat := if secondary then b.fld Reg.TRK_SYNCE_CTRL 4 3 else b.fld Reg.TRK_SYNCE_CTRL 2 1

/-- A reference is selected: the DPLL runs, and the secondary is enabled (Table 2-17). -/
def synceChosen (b : Blk) (secondary : Bool) : Bool := b.flag Reg.TRK_SYNCE_CTRL 0 && (!secondary || b.flag Reg.TRK_SYNCE_CTRL 5)

/-- Loss of signal of a reference: lost, or selected with its port in SGMII mode or disabled, whose receive clock is not accepted (R44;
MODE 4 and 7 of Table 10-1). -/
def synceLos (b : Blk) (secondary : Bool) : Bool :=
  (if secondary then b.synceSecLost else b.syncePriLost)
    || (synceChosen b secondary && [4, 7].contains (b.fld (Reg.TRK_Pp_CTRL (syncePort b secondary)) 2 0))

/-- PRI_LOS and SEC_LOS. -/
def synceShow (b : Blk) : Blk :=
  (b.setFlag Reg.TRK_SYNCE_STATUS 4 (synceLos b false)).setFlag Reg.TRK_SYNCE_STATUS 5 (synceLos b true)

/-- A reference is usable: selected and not lost. -/
def synceUsable (b : Blk) (secondary : Bool) : Bool := synceChosen b secondary && !synceLos b secondary

/-- The active reference moves to a port: ACTIVE_REF, and a switch counts. -/
def synceSwitch (b : Blk) (secondary : Bool) : Blk :=
  ({ b with synceOnSec := secondary }.setFld Reg.TRK_SYNCE_STATUS 3 2 (syncePort b secondary)).count Reg.TRK_SYNCE_SWITCH_COUNT

/-- Time bases on the DPLL's frequency take it, in HOLDOVER and REFUSED at once (R45); they lie in MER. -/
def synceFollow (b : Blk) : Blk :=
  if !domOn b 2 then b else [0, 1, 2, 3].foldl (fun b n =>
    if b.flag (Reg.TBn_CTRL n) 4 && 4 ≤ tbState b n then tbSetFreq b n (toFreqWord (tbIntegrator b n)) else b) b

/-- The sum of frequency times clocks, and the clocks, of estimates newest first that hold from clock `from_` to `to_`. -/
def synceSum (from_ to_ : Nat) : List (Nat × Int) → Int × Nat
  | [] => (0, 0)
  | (c, f) :: r =>
    let n := to_ - max c from_
    let x := synceSum from_ (min to_ c) r
    (f * n + x.1, n + x.2)

/-- The average of the DPLL's estimates over the last second, weighted by the clocks each held, to the nearest 1/256 ppb (Table 2-5;
log entry 62). -/
def synceAverage (b : Blk) : Int :=
  let x := synceSum (b.now - 10 ^ 9) b.now b.synceHist
  if x.2 = 0 then b.rdI Reg.TRK_SYNCE_FREQ else roundDiv x.1 x.2

/-- Loss of all references: HOLDOVER, the frequency held from a 1 s average (Table 2-5). -/
def synceHold (b : Blk) : Blk :=
  if b.fld Reg.TRK_SYNCE_STATUS 1 0 = 2 then b
  else synceFollow ({ b.wrI Reg.TRK_SYNCE_FREQ (synceAverage b) with synceHist := [] }.setFld Reg.TRK_SYNCE_STATUS 1 0 2)

/-- The active reference is lost: automatic switch to the other, or HOLDOVER (Table 2-5). -/
def synceLost (b : Blk) (secondary : Bool) : Blk :=
  if !b.flag Reg.TRK_SYNCE_CTRL 0 || b.synceOnSec != secondary then b
  else if synceUsable b (!secondary) then synceSwitch b (!secondary)
  else synceHold b

/-- A reference is valid again: taken in HOLDOVER, and the primary also with REVERTIVE set (Table 2-17). -/
def synceBack (b : Blk) (secondary : Bool) : Blk :=
  if !synceUsable b secondary || b.synceOnSec == secondary then b
  else if b.fld Reg.TRK_SYNCE_STATUS 1 0 = 2 || (!secondary && b.flag Reg.TRK_SYNCE_CTRL 9) then synceSwitch b secondary
  else b

/-- PRI_LOS and SEC_LOS follow what has changed, and the DPLL follows them. -/
def synceSettle (b : Blk) : Blk :=
  [false, true].foldl (fun b sec =>
    let i := if sec then 5 else 4
    let was := b.flag Reg.TRK_SYNCE_STATUS i
    let is := synceLos b sec
    let b := b.setFlag Reg.TRK_SYNCE_STATUS i is
    if is && !was then synceLost b sec else if was && !is then synceBack b sec else b) b

/-- The signal of a reference is lost. -/
def synceRefLoss (secondary : Bool) (b : Blk) : Blk :=
  synceLost (synceShow (if secondary then { b with synceSecLost := true } else { b with syncePriLost := true })) secondary

/-- SYNCE_REF_LOSS (R45). -/
def execSynceRefLoss (secondary : Bool) (s : State) : Result := inDom 3 (onBlk (synceRefLoss secondary)) s

/-- The signal of a reference is back. -/
def synceRefRestore (secondary : Bool) (b : Blk) : Blk :=
  synceBack (synceShow (if secondary then { b with synceSecLost := false } else { b with syncePriLost := false })) secondary

/-- SYNCE_REF_RESTORE (R45). -/
def execSynceRefRestore (secondary : Bool) (s : State) : Result := inDom 3 (onBlk (synceRefRestore secondary)) s

/-- The DPLL locks to its reference with an estimate of its frequency (R44, R45), remembered for a second. -/
def synceDpllLock (freq : Word) (b : Blk) : Blk :=
  if b.flag Reg.TRK_SYNCE_CTRL 0 && synceUsable b b.synceOnSec then
    let old := b.synceHist.filter (fun x => x.1 != b.now)
    let recent := old.takeWhile (fun x => decide (b.now ≤ x.1 + 10 ^ 9))
    let b := { b with synceHist := (b.now, freq.toInt) :: recent ++ (old.drop recent.length).take 1 }
    synceFollow ((b.setFld Reg.TRK_SYNCE_STATUS 1 0 1).wr Reg.TRK_SYNCE_FREQ freq)
  else b

/-- SYNCE_DPLL_LOCK (R45). -/
def execSynceDpllLock (freq : Word) (s : State) : Result := inDom 3 (onBlk (synceDpllLock freq)) s

/-- A write of TRK_SYNCE_CTRL: the DPLL starts free running when it is switched off or its reference ports change. -/
def synceCtrlWritten (b : Blk) (old : Nat) : Blk :=
  let new := b.rdN Reg.TRK_SYNCE_CTRL
  if !bit new 0 then { synceShow (b.setFld Reg.TRK_SYNCE_STATUS 3 0 0) with synceOnSec := false, synceHist := [] }
  else if bits new 5 0 != bits old 5 0 then
    let sec := !synceUsable b false && synceUsable b true
    { synceShow (b.setFld Reg.TRK_SYNCE_STATUS 3 0 (4 * syncePort b sec)) with synceOnSec := sec, synceHist := [] }
  else b

/-! ### Transmit timestamp queues (R52, R53) -/

/-- The queue of port `p`. -/
def Blk.tsqOf (b : Blk) (p : Nat) : List TxStamp := Tab.at [] b.tsq p

/-- The queue of port `p` takes `q`; LEVEL follows (R52). -/
def Blk.setTsq (b : Blk) (p : Nat) (q : List TxStamp) : Blk :=
  let b := { b with tsq := Tab.upd [] b.tsq p q }
  b.setFld (Reg.TRK_Pp_TSQ_STATUS p) 4 0 q.length

/-- The stamps that the queue of port `p` has lost in this clock. -/
def Blk.tsqLosses (b : Blk) (p : Nat) : Option TsqLost := (Tab.at none b.tsqLost p).filter (fun l => l.clock == b.now)

/-- TRK_Pp_TSQ_FIRSTLOST with the losses `l` of this clock: their first, unless TSQ_OVF stood before and is not cleared in it (R53). -/
def tsqFirst (b : Blk) (p : Nat) (l : TsqLost) : Blk :=
  b.wrN (Reg.TRK_Pp_TSQ_FIRSTLOST p) (match l.items with
    | [] => l.first
    | x :: _ => if bit (b.raisedWas (Reg.TRK_Pp_TSQ_STATUS p)) 8 then l.first else x.id)

/-- A write of TRK_Pp_TSQ_STATUS: a clear of TSQ_OVF in the clock of a loss leaves it set, and FIRSTLOST names that loss (R53). -/
def tsqStatusWritten (p : Nat) (b : Blk) : Blk := (b.tsqLosses p).elim b (tsqFirst b p)

/-- A stamp reaches the queue of port `p`; a full queue loses it (R53). -/
def tsqPush (b : Blk) (p : Nat) (x : TxStamp) : Blk :=
  let q := b.tsqOf p
  if q.length < 16 then b.setTsq p (q ++ [x])
  else
    let l := (b.tsqLosses p).getD
      { clock := b.now, items := [], lost := b.rdN (Reg.TRK_Pp_TSQ_LOST p), first := b.rdN (Reg.TRK_Pp_TSQ_FIRSTLOST p) }
    let l := { l with items := l.items ++ [x] }
    tsqFirst ((({ b with tsqLost := Tab.upd none b.tsqLost p (some l) } : Blk).irq (Reg.TRK_Pp_TSQ_STATUS p) 8).count
      (Reg.TRK_Pp_TSQ_LOST p)) p l

/-- The words W0 to W3 of an entry; an empty queue reads 0 (Table 2-7, R52). -/
def tsqWords (q : List TxStamp) : List Nat :=
  match q with
  | [] => [0, 0, 0, 0]
  | x :: _ => [2 ^ 31 + x.tb * 2 ^ 16 + x.id, x.ns, x.sec % 2 ^ 32, x.subns * 2 ^ 16 + x.sec / 2 ^ 32 % 2 ^ 16]

/-- The stamp of time base `n` now, at a quarter-nanosecond resolution; zero in state OFF (R48, R51). -/
def stampNow (b : Blk) (n quarter : Nat) : Nat :=
  if tbState b n = 0 then 0 else quarterCut (b.tb n).time + quarter * 2 ^ 46

/-- The stamp of time base `n` at an instant of the fabric clock in quarter nanoseconds, now or up to 10 ms ago; zero in state OFF (R48,
R51). -/
def stampAt (b : Blk) (n t4 : Nat) : Nat := if tbState b n = 0 then 0 else quarterCut (tbAt b n (t4 / 4)) + t4 % 4 * 2 ^ 46

/-- An entry of the queue of port `p` is removed; in a clock in which stamps were lost, the first of them is kept after all (R53). -/
def tsqRemove (p : Nat) (b : Blk) : Blk :=
  match b.tsqLosses p with
  | some l =>
    (match l.items with
     | x :: r =>
       let b := (b.setTsq p ((b.tsqOf p).tail ++ [x])).uncount (Reg.TRK_Pp_TSQ_LOST p) l.lost l.items.length
       let b := tsqFirst b p { l with items := r }
       onSet r.isEmpty (fun b => b.unirq (Reg.TRK_Pp_TSQ_STATUS p) 8)
         { b with tsqLost := Tab.upd none b.tsqLost p (some { l with items := r }) }
     | [] => b.setTsq p (b.tsqOf p).tail)
  | none => b.setTsq p (b.tsqOf p).tail

/-- A read of TRK_Pp_TSQ_W3: its value, and the head entry removed (R52). -/
def tsqTake (p : Nat) (b : Blk) : Nat × Blk :=
  ((tsqWords (b.tsqOf p)).getD 3 0, if (b.tsqOf p).isEmpty then b else tsqRemove p b)

/-- That read by a requester. -/
def tsqPop (p : Nat) (who : Requester) (b : Blk) : Blk :=
  (tsqTake p b).2.emit (.readDone who (Reg.TRK_Pp_TSQ_Wx p 3) (BitVec.ofNat 32 (tsqTake p b).1) false)

/-- TSQ_POP (R52). -/
def execTsqPop (p : Fin 4) (who : Requester) (s : State) : Result := inDomRead 3 who (Reg.TRK_Pp_TSQ_Wx p 3) (onBlk (tsqPop p who)) s

end Sys2Proof.Machine
end

