-- ==== Sys2Proof/Machine/Meridian.lean ====
section
/-!
DEFINITION. Meridians: reference edges and the lock loop (R64 to R68), staged modes (R61, R62, R78, R79), published segments
(R73) and the REMOTE model queue (R76). What a boundary does to the rest of the block is in MerEvents.lean.
-/
namespace Sys2Proof.Machine

/-- The fabric clocks of a millisecond. -/
def msClocks : Nat := 10 ^ 6

/-! ### The lock loop -/

/-- The frequency clamp of R67 in units of 2^-40 ppb: FREQ_LIMIT, at most 8 %; for MAINS the range of R65 against nominal. -/
def merClamp (b : Blk) (m : Nat) : Int × Int :=
  if merSrc b m = 4 then
    let nom : Int := if b.flag (Reg.MERm_STAGE_SRC m) 11 then 60 else 50
    ((45 - nom) * (10 ^ 9 * 2 ^ 40) / nom, (65 - nom) * (10 ^ 9 * 2 ^ 40) / nom)
  else
    let l : Int := min (b.rdN (Reg.MERm_FREQ_LIMIT m)) 0x1312D000 * 2 ^ 38
    (-l, l)

/-- An update of the loop with error `e` over interval `t48` (R67): integrator, frequency word, FREQ_CLAMP. -/
def merLoop (b : Blk) (m : Nat) (e : Int) (t48 : Nat) : Blk :=
  let locked := merState b m = 3
  let kp := b.rdN (if locked then Reg.MERm_KP_LOCK m else Reg.MERm_KP_ACQ m)
  let ki := b.rdN (if locked then Reg.MERm_KI_LOCK m else Reg.MERm_KI_ACQ m)
  let lim := merClamp b m
  -- gain x e / T in units of 2^-40 ppb: e / 2^48 ns over t48 / 2^48 / 10^9 s, gain / 2^16
  let term (k : Nat) : Int := roundDiv (k * e * (10 ^ 9 * 2 ^ 24 : Nat)) (max 1 t48)
  let i0 := (b.mer m).integ - term ki
  let i := clampI lim.1 lim.2 i0
  let f0 := i - term kp
  let f1 := clampI lim.1 lim.2 f0
  let w0 := (f1 + 2 ^ 37) / 2 ^ 38
  let w := mainsSlewed b m w0 t48
  let b := b.setMer m { b.mer m with integ := i }
  let b := merSetFreq b m w
  if i != i0 || f1 != f0 || w != w0 then b.irq (Reg.MERm_INT_STATUS m) 12 else b

/-- The lock test of Table 3-3 after an update. -/
def merLockTest (b : Blk) (m : Nat) (e : Int) : Blk :=
  let within := e.natAbs ≤ b.rdN (Reg.MERm_LOCK_THRESH m) * nsUnit
  let want := limit 1 255 (b.fld (Reg.MERm_LOCK_COUNT m) 7 0)
  let x := b.mer m
  if merState b m = 2 then
    let good := if within then x.good + 1 else 0
    let b := b.setMer m { x with good := if want ≤ good then 0 else good, bad := 0 }
    if want ≤ good then merEnter b m 3 else b
  else if merState b m = 3 then
    let bad := if within then 0 else x.bad + 1
    let b := b.setMer m { x with bad := if want ≤ bad then 0 else bad, good := 0 }
    if want ≤ bad then merEnter b m 2 else b
  else b

/-- One edge error joins the average of MERm_DECIM edges; the last of them makes the update, whose e MERm_LAST_ERR shows (R67). -/
def merError (b : Blk) (m : Nat) (e cap : Int) : Blk :=
  let b := b.count (Reg.MERm_EDGE_COUNT m)
  let x := b.mer m
  let want := let d := b.fld (Reg.MERm_DECIM m) 7 0; if d = 0 then 256 else d
  let sum := x.decimSum + e
  let k := x.decimCount + 1
  if k < want then b.setMer m { x with decimSum := sum, decimCount := k, missRun := 0, lastEdge := some cap }
  else
    let t48 := match x.lastUpdate with
      | some t => (cap - t).toNat
      | none => 0
    let b := b.setMer m { x with decimSum := 0, decimCount := 0, missRun := 0, lastEdge := some cap, lastUpdate := some cap }
    if t48 = 0 then b
    else
      let e' := roundDiv sum k
      let b := b.wrI (Reg.MERm_LAST_ERR m) (roundDiv (e' * 4) nsUnit)
      merLockTest (merLoop b m e' t48) m e'

/-- The model an edge is measured against: the one a slew leads to, while one runs (log entry 8). -/
def merRefModel (b : Blk) (m : Nat) : MerModel := (merGoal b m).1

/-- The tick period of that model in the unit of instants. -/
def merTickSpan (b : Blk) (m : Nat) : Nat := 65536 * goalPeriod b m (merGoal b m)

/-- The spacing of expected edges in the unit of instants: a tick, 1 / SAMPLES_PER_TICK tick, a frame, or a mains cycle (R65). -/
def merEdgeSpan (b : Blk) (m : Nat) : Int :=
  let tick := merTickSpan b m
  if merSrc b m = 2 then (tick * merTpf b m : Nat)
  else if merSrc b m = 3 then (tick / max 1 (merParam b m) : Nat)
  else if merSrc b m = 4 then (tick * 4096 : Nat)
  else tick

/-- How far from its expected position an edge is in window: half a tick, half a frame for LTC, a quarter cycle for MAINS (R68). -/
def merWindow (b : Blk) (m : Nat) : Int :=
  let tick := merTickSpan b m
  if merSrc b m = 2 then (tick * merTpf b m / 2 : Nat)
  else if merSrc b m = 4 then (tick * 1024 : Nat)
  else (tick / 2 : Nat)

/-- The phase of capture `cap` in the model an edge is measured against, in the unit of instants: since the start of its anchor's frame,
or for MAINS since the last edge, whose multiples of 4,096 ticks do not start again with a frame (R65). -/
def merEdgePhase (b : Blk) (m : Nat) (cap : Int) : Int :=
  let x := merRefModel b m
  let r := (b.mer m).edgeRef
  let sub : Int := if merSrc b m = 4 then frameDiff x.frame r.1 * merTpf16 b m + (x.sub - r.2) else x.sub
  sub * (max 1 x.period : Nat) + (cap - x.t)

/-- The error of a capture: its instant less the predicted instant of the nearest expected position (R67); for AUDIO that is
k / SAMPLES_PER_TICK of a tick (R65). -/
def merEdgeError (b : Blk) (m : Nat) (cap : Int) : Int :=
  let phase := merEdgePhase b m cap
  if merSrc b m = 3 then
    let tick : Int := merTickSpan b m
    let n : Int := max 1 (merParam b m)
    let ph := phase % tick
    ph - (2 * ph * n + tick) / (2 * tick) * tick / n
  else
    let u := max 1 (merEdgeSpan b m)
    phase - (2 * phase + u) / (2 * u) * u

/-- An edge is used whose error is `e`: for MAINS its expected position is where the next multiples of 4,096 ticks count from (R65). -/
def merEdgeUsed (b : Blk) (m : Nat) (e cap : Int) : Blk :=
  let x := merRefModel b m
  b.setMer m { b.mer m with edgeRef := normPos (merTpf16 b m) x.frame (x.sub + (cap - e - x.t) / (max 1 x.period : Nat)) }

/-- The first reference edge sets the phase as a jump (Table 3-3): TICK to `tick`, FRAC to 0, FRAME to `frame`. -/
def merPhaseSet (b : Blk) (m : Nat) (cap : Int) (frame tick : Nat) : Blk :=
  let b := merJump b m { t := cap, frame, sub := tick * 65536, period := merPeriod b m } false
  let x := b.mer m
  let b := b.setMer m { x with lastUpdate := some cap, lastEdge := some cap, missRun := 0, decimSum := 0, decimCount := 0,
                               keepFrame := true, edgeRef := (frame, tick * 65536) }
  merSync (merEnter (b.count (Reg.MERm_EDGE_COUNT m)) m 2) m

/-- FRAME that the first edge of an edge-tracked source sets: 0 after EN, the running count after a mode change (Table 3-2, R79). -/
def merFirstFrame (b : Blk) (m : Nat) : Nat :=
  if (b.mer m).keepFrame then (merPos b m).1 else 0

/-- An edge in HOLDOVER, with HOLD clear and the time base not OFF: its phase error `e` is applied under R71, then the loop resumes
in ACQUIRE (Table 3-3). -/
def merHoldoverEdge (b : Blk) (m : Nat) (e cap : Int) : Blk :=
  if b.flag (Reg.MERm_CTRL m) 1 || tbState b (merTbSel b m) = 0 then b
  else
    let x := merRefModel b m
    let b := merEdgeUsed b m e cap
    let b := b.setMer m { b.mer m with missRun := 0, lastUpdate := some cap, lastEdge := some cap, decimSum := 0,
                                       decimCount := 0, good := 0, bad := 0 }
    merEnter (merResolve (b.count (Reg.MERm_EDGE_COUNT m)) m { x with t := x.t + e } false) m 2

/-- A reference edge that is a loop update, in ACQUIRE and LOCKED, or the return from HOLDOVER (R65, R68, Table 3-3). -/
def merUpdateEdge (b : Blk) (m : Nat) (cap : Int) : Blk :=
  let st := merState b m
  let e := merEdgeError b m cap
  if st = 4 then merHoldoverEdge b m e cap
  else if st = 2 || st = 3 then
    if e.natAbs ≤ (merWindow b m).toNat then merError (merEdgeUsed b m e cap) m e cap else b
  else b

/-- The capture of a reference edge: less MERm_EDGE_DELAY, in the selected time base (R64). -/
def merCapture (b : Blk) (m quarter : Nat) : Int :=
  merTime b m + quarter * 2 ^ 46 - b.rdI (Reg.MERm_EDGE_DELAY m) * 2 ^ 46

/-- The Meridian uses reference edges of source `src` now: on, edge-tracked, and its time base counts (R64, R454). -/
def merListens (b : Blk) (m src : Nat) : Bool :=
  merOn b m && merSrc b m == src && merEdgeTracked b m && tbState b (merTbSel b m) != 0

/-- An FSYNC edge at Meridian `m` (R65): the first sets TICK to FSYNC_TICK; later ones check, and two misplaced ones in a row
realign TICK by the rule of R71. -/
def merFsync (b : Blk) (m : Nat) (rising : Bool) (quarter : Nat) : Blk :=
  if merListens b m 1 && rising != merPol b m then
    let cap := merCapture b m quarter
    let tick := merParam b m % merTpf b m
    if merState b m = 1 then
      (merPhaseSet b m cap (merFirstFrame b m) tick).setFlag (Reg.MERm_STATUS m) 7 true
    else
      let x := merRefModel b m
      let p := normPos (merTpf16 b m) x.frame (x.sub + (cap - x.t) / max 1 x.period)
      let half : Nat := merTpf16 b m / 2
      let d : Int := ((((p.2 : Int) - (tick * 65536 : Nat)) + half) % merTpf16 b m) - half
      if merState b m = 4 then merHoldoverEdge b m (d * (max 1 x.period : Nat)) cap
      else if d.natAbs < 32768 then
        (b.setMer m { b.mer m with misplaced := 0 }).setFlag (Reg.MERm_STATUS m) 7 true
      else
        let k := (b.mer m).misplaced + 1
        if k < 2 then b.setMer m { b.mer m with misplaced := k }
        else
          let b := (b.setMer m { b.mer m with misplaced := 0 }).irq (Reg.MERm_INT_STATUS m) 7
          let b := b.setFlag (Reg.MERm_STATUS m) 7 true
          merResolve b m { x with t := x.t + d * (max 1 x.period : Nat) } false
  else b

/-- FSYNC_EDGE reaches both Meridians. -/
def fsyncEdge (rising : Bool) (quarter : Nat) (b : Blk) : Blk := merFsync (merFsync b 0 rising quarter) 1 rising quarter

/-- FSYNC_EDGE (R65). -/
def execFsyncEdge (rising : Bool) (quarter : Fin 4) (s : State) : Result := inDom 2 (onBlk (fsyncEdge rising quarter)) s

/-- An LSYNC edge at Meridian `m` is an update at the next whole tick (R65). -/
def merLsync (b : Blk) (m : Nat) (rising : Bool) (quarter : Nat) : Blk :=
  if merListens b m 1 && rising != merPol b m then merUpdateEdge b m (merCapture b m quarter) else b

/-- LSYNC_EDGE reaches both Meridians. -/
def lsyncEdge (rising : Bool) (quarter : Nat) (b : Blk) : Blk := merLsync (merLsync b 0 rising quarter) 1 rising quarter

/-- LSYNC_EDGE (R65). -/
def execLsyncEdge (rising : Bool) (quarter : Fin 4) (s : State) : Result := inDom 2 (onBlk (lsyncEdge rising quarter)) s

/-- Frames since 00:00:00:00 of a timecode at LTC_RATE `rate`, drop-frame where `df` (Table 3-2). Drop-frame numbering leaves out
frames 0 and 1 of every minute but each tenth (SMPTE 12M). -/
def ltcFrames (rate : Nat) (df : Bool) (tc : Timecode) : Nat :=
  let fps := match rate with | 0 => 24 | 1 => 25 | _ => 30
  let minutes := tc.hours * 60 + tc.minutes
  let n := (minutes * 60 + tc.seconds) * fps + tc.frames
  if df && 2 ≤ rate then n - 2 * (minutes - minutes / 10) else n

/-- The last frame number before the timecode of 24 hours starts again. -/
def ltcLastFrame (rate : Nat) (df : Bool) : Nat :=
  ltcFrames rate df { hours := 23, minutes := 59, seconds := 59, frames := (match rate with | 0 => 24 | 1 => 25 | _ => 30) - 1 }

/-- Two BCD digits. -/
def bcd (n : Nat) : Nat := n / 10 % 10 * 16 + n % 10

/-- The end of an LTC sync word at Meridian `m`: an update at TICK 0; two frames in a row of one timecode sequence that differs
from FRAME reload FRAME as a jump (R65, R71). -/
def merLtc (b : Blk) (m : Nat) (tc : Timecode) (quarter : Nat) : Blk :=
  if merListens b m 2 then
    let cap := merCapture b m quarter
    let rate := b.fld (Reg.MERm_STAGE_SRC m) 9 8
    let df := b.flag (Reg.MERm_STAGE_SRC m) 10
    let n := ltcFrames rate df tc
    let b := b.wrN (Reg.MERm_TC_VALUE m) (((bcd tc.hours * 256 + bcd tc.minutes) * 256 + bcd tc.seconds) * 256 + bcd tc.frames)
    let run := (b.mer m).ltcLast == some (if n = 0 then ltcLastFrame rate df else n - 1)
    let b := b.setMer m { b.mer m with ltcLast := some n }
    if merState b m = 1 then
      (merPhaseSet b m cap (n % 2 ^ 32) 0).setFlag (Reg.MERm_STATUS m) 7 true
    else
      let b := merUpdateEdge b m cap
      -- the frame that starts at this instant: the nearest frame start
      let x := merRefModel b m
      let p := normPos (merTpf16 b m) x.frame (x.sub + (cap - x.t) / max 1 x.period + (merTpf16 b m / 2 : Nat))
      if run && p.1 != n % 2 ^ 32 then
        let b := (b.irq (Reg.MERm_INT_STATUS m) 6).setFlag (Reg.MERm_STATUS m) 7 true
        let b := merJump b m { t := cap, frame := n % 2 ^ 32, sub := 0, period := max 1 x.period } false
        b
      else if run then b.setFlag (Reg.MERm_STATUS m) 7 true
      else b
  else b

/-- LTC_SYNC_WORD reaches both Meridians. -/
def ltcSyncWord (tc : Timecode) (quarter : Nat) (b : Blk) : Blk := merLtc (merLtc b 0 tc quarter) 1 tc quarter

/-- LTC_SYNC_WORD (R65). -/
def execLtcSyncWord (tc : Timecode) (quarter : Fin 4) (s : State) : Result := inDom 2 (onBlk (ltcSyncWord tc quarter)) s

/-- A WCLK edge at Meridian `m` (R65): the first sets the phase, later ones are updates. -/
def merWclk (b : Blk) (m quarter : Nat) : Blk :=
  if merListens b m 3 then
    let cap := merCapture b m quarter
    if merState b m = 1 then merPhaseSet b m cap (merFirstFrame b m) 0 else merUpdateEdge b m cap
  else b

/-- WCLK_EDGE reaches both Meridians. -/
def wclkEdge (quarter : Nat) (b : Blk) : Blk := merWclk (merWclk b 0 quarter) 1 quarter

/-- WCLK_EDGE (R65). -/
def execWclkEdge (quarter : Fin 4) (s : State) : Result := inDom 2 (onBlk (wclkEdge quarter)) s

/-- The mains frequency in mHz from one accepted edge to the next: whole cycles, more than one after a miss. -/
def mainsMilliHz (b : Blk) (m : Nat) (d : Int) : Nat :=
  let cycles := max 1 (roundDiv d (max 1 (merEdgeSpan b m)))
  (roundDiv (cycles * (1000 * secUnit : Nat)) (max 1 d)).toNat

/-- A zero-cross edge at Meridian `m` (R65): ignored within 25 % of a cycle of the last accepted edge. -/
def merMains (b : Blk) (m : Nat) (rising : Bool) (quarter : Nat) : Blk :=
  if merListens b m 4 && rising != merPol b m then
    let cap := merCapture b m quarter
    if merState b m = 1 then merPhaseSet b m cap (merFirstFrame b m) 0
    else
      match (b.mer m).lastEdge with
      | some t =>
        if cap - t < (merTickSpan b m * 1024 : Nat) then b
        else
          let hz := mainsMilliHz b m (cap - t)
          let b := merUpdateEdge b m cap
          if (b.mer m).lastEdge = some cap then b.wrN (Reg.MERm_MAINS_MHZ m) hz else b
      | none => merUpdateEdge b m cap
  else b

/-- MAINS_ZC_EDGE reaches both Meridians. -/
def mainsZcEdge (rising : Bool) (quarter : Nat) (b : Blk) : Blk := merMains (merMains b 0 rising quarter) 1 rising quarter

/-- MAINS_ZC_EDGE (R65). -/
def execMainsZcEdge (rising : Bool) (quarter : Fin 4) (s : State) : Result := inDom 2 (onBlk (mainsZcEdge rising quarter)) s

/-- An expected edge passes with no edge in window; MISS_LIMIT of them in a row enter HOLDOVER (R68). -/
def edgeMiss (m : Nat) (b : Blk) : Blk :=
  if merOn b m && merEdgeTracked b m && (merState b m = 2 || merState b m = 3) then
    let k := (b.mer m).missRun + 1
    let b := (b.count (Reg.MERm_MISS_COUNT m)).setMer m { b.mer m with missRun := k }
    if limit 1 255 (b.fld (Reg.MERm_MISS_LIMIT m) 7 0) ≤ k then merHoldover b m else b
  else b

/-- EDGE_MISS (R68). -/
def execEdgeMiss (m : Fin 2) (s : State) : Result := inDom 2 (onBlk (edgeMiss m)) s

/-- SLEW_COMPLETE (R71). -/
def execSlewComplete (m : Fin 2) (s : State) : Result := inDom 2 (onBlk (fun b => merSlewDone b m)) s

/-! ### Enabling and the staged mode (R61, R62, R78, R79) -/

/-- The Meridian starts as from OFF with EN set (Table 3-3): position from 0, or from FRAME `frame`, at the nominal period. -/
def merStart (b : Blk) (m frame : Nat) (keep : Bool) : Blk :=
  let b := b.setMer m { model := { t := merTime b m, frame, sub := 0, period := merNominal b m }
                        byDef := merTimeDefined b m, keepFrame := keep
                        generation := (b.mer m).generation, bearingGen := (b.mer m).bearingGen
                        commits := (b.mer m).commits, gapClock := (b.mer m).gapClock
                        coast := (b.mer m).coast }
  let b := (merSlewOff b m).wr (Reg.MERm_FREQ m) 0#32
  let b := b.setFld (Reg.MERm_STATUS m) 17 16 0
  let b := (b.setFlag (Reg.MERm_STATUS m) 7 false).setFlag (Reg.MERm_STATUS m) 11 false
  let b := merEnter b m 1
  let b := (b.setFld (Reg.MERm_STATUS m) 10 8 (merSrc b m)).setFld (Reg.MERm_STATUS m) 13 12 (merTbSel b m)
  let b := frameAnew (wptRebase (merSync b m) m) m
  cnvEntry b m (merPos b m).1 true

/-- EN cleared (Table 3-3, R76): OFF, position held at 0, the model queue empty; gap and SUPPRESS end. A COMMIT that waits is dropped, and what
is staged stays for the next one (DESIGN CHOICE, log entry 66). -/
def merStop (b : Blk) (m : Nat) : Blk :=
  let b := merEnter b m 0
  let b := b.setMer m { generation := (b.mer m).generation, bearingGen := (b.mer m).bearingGen }
  let b := (merSlewOff b m).wr (Reg.MERm_FREQ m) 0#32
  cnvOff (b.wr (Reg.MERm_STATUS m) (b.rd (Reg.MERm_STATUS m) &&& 0x00003700#32)) m

/-- A Meridian drives strands or local drive (R62): an enabled port or a group in effect names it. -/
def merAssigned (b : Blk) (m : Nat) : Bool :=
  (List.range 32).any (fun n => b.flag (Reg.STR_n_CTRL n) 0 && b.fld (Reg.STR_n_CTRL n) 1 1 == m)
    || (List.range 16).any (fun g => b.flag (Reg.DRV_GRPg_STATUS g) 0 && b.fld (Reg.DRV_GRPg_STATUS g) 1 1 == m)

/-- The Meridian's nominal frame rate in the mode in effect lies in the range of R62. -/
def merInRange (b : Blk) (m : Nat) : Bool := (merFrac b m).rateOk (merTpf b m)

/-- The mode in which register `a` holds `look a` keeps the rules of R61 and R62. -/
def merModeOk (b : Blk) (m : Nat) (look : Nat → Nat) : Bool :=
  let src := look (Reg.MERm_STAGE_SRC m)
  let lay := look (Reg.MERm_STAGE_LAYOUT m)
  let tpf := bits lay 15 0
  let rows := bits lay 22 16
  bits src 2 0 < 6 && 1 ≤ tpf && 1 ≤ rows && rows ≤ 64 && tpf % rows == 0
    && (merFracAt m look).tickOk
    && tbState b (bits src 5 4) != 0
    && (!merAssigned b m || (merFracAt m look).rateOk tpf)

/-- The registers of Meridian `m` that a commit applies: from MERm_STAGE_SRC to MERm_STAGE_SHUT7. -/
def merStageReg (m a : Nat) : Bool := decide (Reg.MERm_STAGE_SRC m ≤ a) && decide (a < Reg.MERm_MODEL_x m 0)

/-- STAGED shows whether a COMMIT waits. -/
def merCommits (b : Blk) (m : Nat) (cs : List Nat) : Blk :=
  (b.setMer m { b.mer m with commits := cs }).setFlag (Reg.MERm_STATUS m) 3 (!cs.isEmpty)

/-- The staged values of Meridian `m` are dropped with every COMMIT, and STAGED clears (R61, R78). -/
def merDropStaged (b : Blk) (m : Nat) : Blk :=
  merCommits { b with staged := b.staged.filter (fun e => !merStageReg m e.1) } m []

/-- What a commit takes: the values it finds staged, and how they and the COMMITs it serves leave the block. A commit at a frame boundary
takes what was staged before its clock, and leaves what came in it for the following one (R8, R78); one that applies at once takes
everything, its own write being the last (R78; log entry 14). -/
structure Commit where
  /-- The value a register has after the commit. -/
  look : Nat → Nat
  /-- The block without what the commit takes. -/
  rest : Blk

/-- The commit at a frame boundary in this clock. -/
def merCommitDue (b : Blk) (m : Nat) : Commit where
  look := b.stagedOr
  rest := merCommits (b.unstage (merStageReg m)) m ((b.mer m).commits.filter (fun c => decide (b.now ≤ c)))

/-- The commit that applies at once. -/
def merCommitNow (b : Blk) (m : Nat) : Commit where
  look := b.stagedLast
  rest := merDropStaged b m

/-- The registers of Meridian `m` with a staged value. -/
def merStaged (b : Blk) (m : Nat) : List Nat := (b.staged.map (·.1)).filter (merStageReg m)

/-- A commit that changes only shutter windows (R78): every other register keeps its value (log entry 63). -/
def merShutterOnly (b : Blk) (m : Nat) (look : Nat → Nat) : Bool :=
  (merStaged b m).all (fun a => decide (Reg.MERm_STAGE_SHUTx m 0 ≤ a) || look a == b.rdN a)

/-- A commit takes effect (R61, R78, R79): refused with CONFIG_ERR, or applied; at a running Meridian anything but new windows
starts a gap and a new mode. -/
def merApplyCommit (b : Blk) (m : Nat) (c : Commit) : Blk :=
  if !merModeOk b m c.look then c.rest.irq (Reg.MERm_INT_STATUS m) 8
  else
    let windows := merShutterOnly b m c.look
    let oldFrame := (merPos b m).1
    let b := ((merStaged b m).foldl (fun x a => x.wrN a (c.look a)) c.rest).irq (Reg.MERm_INT_STATUS m) 3
    let b := b.setMer m { b.mer m with generation := ((b.mer m).generation + 1) % 256 }
    if !merOn b m then
      (b.setFld (Reg.MERm_STATUS m) 10 8 (merSrc b m)).setFld (Reg.MERm_STATUS m) 13 12 (merTbSel b m)
    else if windows then b
    else
      let b := if b.flag (Reg.MERm_STATUS m) 4 then b
        else (b.setFlag (Reg.MERm_STATUS m) 4 true).setMer m { b.mer m with gapClock := some b.now }
      let b := b.setMer m { b.mer m with coast := none }
      let keeps := merEdgeTracked b m && merSrc b m != 2
      merStart b m (if keeps then oldFrame else 0) keeps

/-- MERm_CTRL.COMMIT (R78): at the next frame boundary, or at once while EN is clear. -/
def meridianCommit (m : Nat) (b : Blk) : Blk :=
  if merOn b m then merCommits b m ((b.mer m).commits ++ [b.now]) else merApplyCommit b m (merCommitNow b m)

/-- MERIDIAN_COMMIT (R78). -/
def execMeridianCommit (m : Fin 2) (s : State) : Result := inDom 2 (onBlk (meridianCommit m)) s

/-- MERIDIAN_DISCARD (R78). -/
def execMeridianDiscard (m : Fin 2) (s : State) : Result := inDom 2 (onBlk (fun b => merDropStaged b m)) s

/-- A write of MERm_CTRL: EN starts and stops the Meridian, HOLD acts on its state (Table 3-12). -/
def merCtrlWritten (b : Blk) (m old : Nat) : Blk :=
  let en := merOn b m
  if en && !bit old 0 then
    let off := tbState b (merTbSel b m) == 0
    let coast : Option (Int × Nat) := if off then some (((b.tb (merTbSel b m)).time : Int), b.now) else none
    merStart (b.setMer m { b.mer m with coast }) m 0 false
  else if !en && bit old 0 then merStop b m
  else if en && b.flag (Reg.MERm_CTRL m) 1 && merEdgeTracked b m && (merState b m = 2 || merState b m = 3) then merHoldover b m
  else merSync b m

/-! ### REMOTE models (R76) -/

/-- The model in MERm_MODEL_0 to MERm_MODEL_7 (Table 3-6). -/
def merModelRegs (b : Blk) (m : Nat) : MerModel :=
  let w (i : Nat) : Nat := b.rdN (Reg.MERm_MODEL_x m i)
  { t := ((w 2 + 2 ^ 32 * bits (w 3) 15 0) * secUnit + bits (w 1) 29 0 * nsUnit + bits (w 0) 15 0 * 2 ^ 32 : Nat)
    frame := w 5, sub := (w 4 : Nat), period := w 6 + 2 ^ 32 * w 7 }

/-- The queue of models, and MODELS in MERm_STATUS: 0 to 3, 3 also for 4 (Table 3-13). -/
def merSetQueue (b : Blk) (m : Nat) (q : List QueuedModel) : Blk :=
  (b.setMer m { b.mer m with queue := q }).setFld (Reg.MERm_STATUS m) 17 16 (min 3 q.length)

/-- The anchor position of a model. -/
def MerModel.anchor (x : MerModel) : Nat × Nat := (x.frame, x.sub.toNat)

/-- A model takes effect (R76): the first one as a jump, a later one under R71. -/
def merUseModel (b : Blk) (m : Nat) (q : QueuedModel) : Blk :=
  let first := !(b.mer m).modelLoaded
  let b := b.setMer m { b.mer m with modelLoaded := true }
  let b := b.setFlag (Reg.MERm_STATUS m) 11 q.locked
  let b := if first then merJump b m q.model false else merResolve b m q.model false
  merSync b m

/-- MERm_CTRL.MODEL_LOAD (R76). -/
def modelLoad (m : Nat) (locked : Bool) (b : Blk) : Blk :=
  let x := merModelRegs b m
  if !merOn b m || merSrc b m != 5 || tbState b (merTbSel b m) = 0 then b
  else if x.period = 0 then b.irq (Reg.MERm_INT_STATUS m) 8
  else
    let tpf16 := merTpf16 b m
    let q : QueuedModel := { model := x, locked }
    let heard (b : Blk) : Blk := b.setMer m { b.mer m with bearingStale := false, modelAt := b.now }
    if !(b.mer m).modelLoaded then merUseModel (heard b) m q
    else
      let b := match (b.mer m).queue.getLast? with
        | some l =>
          if decide (posDiff tpf16 x.anchor l.model.anchor ≤ 0) then
            merSetQueue b m ((b.mer m).queue.filter (fun y => decide (posDiff tpf16 y.model.anchor x.anchor < 0)))
          else b
        | none => b
      if posDiff tpf16 x.anchor (merPos b m) < 0 then
        merUseModel (((heard b).irq (Reg.MERm_INT_STATUS m) 9).count (Reg.MERm_BEARING_LATE_COUNT m)) m q
      else if 4 ≤ (b.mer m).queue.length then b.irq (Reg.MERm_INT_STATUS m) 10
      else merSync (merSetQueue (heard b) m ((b.mer m).queue ++ [q])) m

/-- MODEL_LOAD (R76). -/
def execModelLoad (m : Fin 2) (locked : Bool) (s : State) : Result := inDom 2 (onBlk (modelLoad m locked)) s

/-- MODEL_FLUSH (R76). -/
def execModelFlush (m : Fin 2) (s : State) : Result := inDom 2 (onBlk (fun b => merSetQueue b m [])) s

/-- MERm_CTRL.CLR_COUNTS clears the Meridian's counters (R89). -/
def merClrCounts (m : Nat) (b : Blk) : Blk :=
  b.zero [Reg.MERm_EDGE_COUNT m, Reg.MERm_MISS_COUNT m, Reg.MERm_JUMP_COUNT m, Reg.MERm_BEARING_LATE_COUNT m]

/-- MER_CLR_COUNTS (R89). -/
def execMerClrCounts (m : Fin 2) (s : State) : Result := inDom 2 (onBlk (merClrCounts m)) s

/-- The running position reaches the oldest queued model's anchor: the model takes effect under R71 (R76); before that nothing does. -/
def remoteModelApply (m : Nat) (b : Blk) : Blk :=
  match (b.mer m).queue with
  | [] => b
  | q :: rest =>
    if 0 < posDiff (merTpf16 b m) q.model.anchor (merPos b m) then b else merUseModel (merSetQueue b m rest) m q

/-- REMOTE_MODEL_APPLY (R76). -/
def execRemoteModelApply (m : Fin 2) (s : State) : Result := inDom 2 (onBlk (remoteModelApply m)) s

/-- No model within BEARING_TIMEOUT: a REMOTE Meridian leaves LOCKED (Table 3-4). -/
def bearingTimeout (m : Nat) (b : Blk) : Blk :=
  if b.now < (b.mer m).modelAt + msClocks * b.rdN (Reg.MERm_BEARING_TIMEOUT m) then b
  else merSync (b.setMer m { b.mer m with bearingStale := true }) m

/-- BEARING_TIMEOUT (R69). -/
def execBearingTimeout (m : Fin 2) (s : State) : Result := inDom 2 (onBlk (bearingTimeout m)) s

/-! ### Segments and snapshots (R73, R75) -/

/-- The snapshot MERm_POS captures: the instant and the position now (R75). -/
def merSnapshot (b : Blk) (m : Nat) : List Nat := modelWords (merTime b m) (merPos b m) (merPeriod b m)

/-- At boundary `frame` a publishing Meridian fixes the segment for `frame` + PUBLISH_LEAD from the frequency word sampled now,
and a segment that is due takes effect (R73). -/
def merPublish (b : Blk) (m frame : Nat) : Blk :=
  if !b.flag (Reg.MERm_CTRL m) 2 then b.setMer m { b.mer m with segments := [] }
  else
    let segs := (b.mer m).segments
    -- the segment that begins at this boundary takes effect
    let b := match segs.find? (fun g => g.frame == frame) with
      | some g => if merEdgeTracked b m then merSetPeriod b m g.period else b
      | none => b
    let lead := max 1 (b.fld (Reg.MERm_CTRL m) 7 4)
    let later := segs.filter (fun g => decide (0 < frameDiff g.frame frame))
    let period := if merEdgeTracked b m then merPeriodAt (merNominal b m) (merFreq b m) else goalPeriod b m (merGoal b m)
    let target := (frame + lead) % 2 ^ 32
    -- the predicted instant of boundary F + PUBLISH_LEAD: this boundary, then one frame per segment
    let periods := merPeriod b m :: later.map (·.period)
    let t0 := merExact b m (frame, 0)
    let ahead : Nat := (List.range lead).foldl
      (fun n i => n + merTpf16 b m * periods.getD (min i (periods.length - 1)) (merPeriod b m)) 0
    let b := b.setMer m { b.mer m with segments := later ++ [{ frame := target, period }] }
    merSegment b m (t0 + ahead) (target, 0) period

end Sys2Proof.Machine
end

