-- ==== Sys2Proof/Machine/Net.lean ====
section
/-!
DEFINITION. Ethernet, 802.1Q, IPv4 and UDP headers as the blocks that read packets take them apart. The header layouts are those
of the standards the spec names (log entry 18).
-/
namespace Sys2Proof.Machine

/-- The header of an Ethernet frame: MAC addresses, the 802.1Q tags' TCI words, EtherType, and the offset of what follows. -/
structure Eth where
  dst : Nat
  src : Nat
  tags : List Nat
  etype : Nat
  off : Nat
  deriving DecidableEq, Repr

/-- The tags, EtherType and payload offset from offset `o` on, looking through at most `fuel` tags. -/
def ethTags (f : List Byte) : Nat → Nat → List Nat × Nat × Nat
  | 0, o => ([], beAt f o 2, o + 2)
  | n + 1, o =>
    if beAt f o 2 = 0x8100 || beAt f o 2 = 0x88A8 then
      let r := ethTags f n (o + 4)
      (beAt f (o + 2) 2 :: r.1, r.2)
    else ([], beAt f o 2, o + 2)

/-- The Ethernet header of a frame. -/
def ethOf (f : List Byte) : Eth :=
  let r := ethTags f 3 12
  { dst := beAt f 0 6, src := beAt f 6 6, tags := r.1, etype := r.2.1, off := r.2.2 }

/-- An unfragmented UDP/IPv4 packet. -/
structure Udp where
  tags : Nat
  dstMac : Nat
  srcIp : Nat
  dstIp : Nat
  sport : Nat
  dport : Nat
  payload : List Byte
  deriving DecidableEq, Repr

/-- The UDP/IPv4 packet in a frame, none where the frame holds something else. -/
def udpOf (f : List Byte) : Option Udp :=
  let e := ethOf f
  let o := e.off
  let v := (f.getD o 0#8).toNat
  let ihl := v % 16 * 4
  let u := o + ihl
  let len := beAt f (u + 4) 2
  if e.etype = 0x0800 && v / 16 == 4 && 20 ≤ ihl && (f.getD (o + 9) 0#8).toNat == 17 && beAt f (o + 6) 2 % 16384 == 0
      && 8 ≤ len && u + len ≤ f.length then
    some { tags := e.tags.length, dstMac := e.dst, srcIp := beAt f (o + 12) 4, dstIp := beAt f (o + 16) 4
           sport := beAt f u 2, dport := beAt f (u + 2) 2, payload := slice f (u + 8) (len - 8) }
  else none

/-! ### E1.31 packets (R220, R223) -/

/-- What a packet to UDP port 5568 is: data with start code 0, data with another start code, synchronization, universe discovery, or
nothing the block knows. -/
inductive E131Kind where
  | data | other | sync | discovery | bad
  deriving DecidableEq, Repr

/-- The ACN packet identifier, "ASC-E1.17" and three zeros. -/
def acnId : List Byte := [0x41#8, 0x53#8, 0x43#8, 0x2D#8, 0x45#8, 0x31#8, 0x2E#8, 0x31#8, 0x37#8, 0#8, 0#8, 0#8]

/-- The kind of a packet by its vectors and fields (R220). -/
def e131Kind (p : List Byte) : E131Kind :=
  let root := beAt p 18 4
  let frm := beAt p 40 4
  let count := beAt p 123 2
  if slice p 4 12 != acnId then .bad
  else if root = 8 && frm = 1 then .sync
  else if root = 8 && frm = 2 then .discovery
  else if root = 4 && frm = 2 && (p.getD 117 0#8).toNat == 2 && (p.getD 118 0#8).toNat == 0xA1 && beAt p 119 2 == 0
      && beAt p 121 2 == 1 && 1 ≤ count && count ≤ 513 && 125 + count ≤ p.length then
    (if (p.getD 125 0#8).toNat = 0 then .data else .other)
  else .bad

/-- The multicast group of a universe or synchronization address: 239.255.(U >> 8).(U & 0xFF). -/
def e131Group (u : Nat) : Nat := 0xEFFF0000 + u % 65536

end Sys2Proof.Machine
end

