-- ==== Sys2Proof/Machine/Switch.lean ====
section
/-!
DEFINITION. The integrated switch: cells and admission (R260, R261), port states (R267), the tables and learning (R264, R265), the
forwarding decision (R263), and the frames the device itself sends.
-/
namespace Sys2Proof.Machine

/-- The trunk takes `t`. -/
def Blk.setTrk (b : Blk) (t : Trunk) : Blk := { b with trk := t }

/-! ### Cells and queues -/

/-- Queue `q` of port `p`, head first. -/
def trkQueue (b : Blk) (p q : Nat) : List TrkFrame := Tab.at [] b.trk.queues (8 * p + q)

/-- Cells of the frames of a queue that come from the shared pool, or from its reserve. -/
def queueCells (pooled : Bool) (fs : List TrkFrame) : Nat :=
  (fs.map (fun f => if f.pooled == pooled then f.cells else 0)).sum

/-- Free shared cells: what the ingress reserves, the 40 queue reserves and the pooled frames leave of 8,192 (R260). -/
def trkFree (b : Blk) : Nat :=
  8192 - (360 - (b.trk.ingress.map (fun x => x.2)).sum) - 40 * b.fld Reg.TRK_Q_RESERVE 7 0
    - (b.trk.queues.map (fun x => queueCells true x.2)).sum

/-- The ingress reserves are refilled from the shared pool, as far as it reaches (R261). -/
def trkRefill (b : Blk) : Blk :=
  (List.range 5).foldl (fun b p =>
    b.setTrk { b.trk with ingress := Tab.upd 0 b.trk.ingress p (Tab.at 0 b.trk.ingress p - trkFree b) }) b

/-- TRK_BUF_FREE and TRK_BUF_MIN follow the cells, once the ingress reserves are full again. -/
def trkCells (b : Blk) : Blk :=
  let b := trkRefill b
  let free := trkFree b
  let low := match b.trk.minFree with
    | none => free
    | some m => min m free
  ((b.setTrk { b.trk with minFree := some low }).wrN Reg.TRK_BUF_FREE free).wrN Reg.TRK_BUF_MIN low

/-- Queue `q` of port `p` takes `fs`. -/
def trkSetQueue (b : Blk) (p q : Nat) (fs : List TrkFrame) : Blk :=
  trkCells (b.setTrk { b.trk with queues := Tab.upd [] b.trk.queues (8 * p + q) fs })

/-- A port refuses a frame for queue `q`: TX_QDROPq counts (R257, R261). -/
def trkQdrop (b : Blk) (p q : Nat) : Blk :=
  let b := b.count (Reg.TRK_Pp_TX_QDROPq p q)
  if p < 4 then b.irq (Reg.TRK_Pp_INT_STATUS p) 3 else b

/-- Admission of a frame to one queue (R257, R261); a port whose link is down discards what is queued for it (R256; log entry 32). -/
def trkAdmit (f : TrkFrame) (q : Nat) (b : Blk) (p : Nat) : Blk :=
  let fs := trkQueue b p q
  if p < 4 && !b.flag Reg.TRK_STATUS p then b.count (Reg.TRK_Pp_TX_LINKDROP p) else
  if p < 4 && limit 1518 9216 (b.fld (Reg.TRK_Pp_MAX_LEN p) 13 0) < f.bytes.length then trkQdrop b p q
  else if queueCells false fs + f.cells ≤ b.fld Reg.TRK_Q_RESERVE 7 0 then
    trkSetQueue b p q (fs ++ [{ f with pooled := false }])
  else if queueCells true fs + f.cells ≤ b.fld Reg.TRK_Q_RESERVE 29 16 && f.cells ≤ trkFree b then
    trkSetQueue b p q (fs ++ [{ f with pooled := true }])
  else trkQdrop b p q

/-- A frame from port `p` stands in its ingress reserve as it arrives, or is dropped whole; it is decided against the shared cells that
are free beside it; where a queue admits it the reserve gives its cells up and is refilled from the shared pool (R260, R261; log entry
32). -/
def trkIngress (b : Blk) (p cells : Nat) (decide : Blk → Blk) : Blk :=
  let lack := Tab.at 0 b.trk.ingress p
  let short (b : Blk) (n : Nat) : Blk := b.setTrk { b.trk with ingress := Tab.upd 0 b.trk.ingress p n }
  if 72 < lack + cells then
    let b := b.count (Reg.TRK_Pp_RX_NOCELL p)
    if p < 4 then b.irq (Reg.TRK_Pp_INT_STATUS p) 4 else b
  else
    let b' := decide b
    trkCells (if b'.trk.queues = b.trk.queues then b' else short b' (lack + cells))

/-- A frame of `bytes`, FCS included. -/
def trkFrame (bytes : List Byte) : TrkFrame := { bytes := bytes, cells := (bytes.length + 255) / 256 }

/-- The FCS of a frame: the CRC-32 of its bytes, least significant byte first. -/
def fcsOf (bs : List Byte) : List Byte := toLE 4 (crc32 bs)

/-! ### Port states -/

/-- STATE of ring `i`: 0 DISABLED, 1 OPEN, 2 CLOSED, 3 TRANSIT. -/
def ringSt (b : Blk) (i : Nat) : Nat := b.fld (Reg.TRK_RINGi_STATUS i) 1 0
/-- Ring ports A and B. -/
def ringA (b : Blk) (i : Nat) : Nat := b.fld (Reg.TRK_RINGi_CTRL i) 3 2
def ringB (b : Blk) (i : Nat) : Nat := b.fld (Reg.TRK_RINGi_CTRL i) 5 4

/-- Port `p` is held by a ring (R278), or is a master's blocked port B (R277). -/
def portHeld (b : Blk) (p : Nat) : Bool :=
  [0, 1].any (fun i => ringSt b i != 0 && ((ringA b i == p && b.flag (Reg.TRK_RINGi_STATUS i) 2)
    || (ringB b i == p && b.flag (Reg.TRK_RINGi_STATUS i) 3)))
def portBlocked (b : Blk) (p : Nat) : Bool :=
  [0, 1].any (fun i => ringSt b i != 0 && ringB b i == p && b.flag (Reg.TRK_RINGi_STATUS i) 4)

/-- The effective state of an external port: the lower of the configured state and any block of ring protection (R267). -/
def portState (b : Blk) (p : Nat) : Nat :=
  min (b.fld (Reg.TRK_Pp_CTRL p) 5 4) (if portHeld b p || portBlocked b p then 1 else 3)

/-- HELD and the effective state show in TRK_Pp_STATUS. -/
def trkSync (b : Blk) : Blk :=
  (List.range 4).foldl (fun b p =>
    (b.setFlag (Reg.TRK_Pp_STATUS p) 1 (portHeld b p)).setFld (Reg.TRK_Pp_STATUS p) 3 2 (portState b p)) b

/-! ### Tables -/

/-- The set of an address and VID (R264). -/
def fdbSet (mac vid : Nat) : Nat := crc32 (toBE 6 mac ++ toLE 2 vid) % 1024

/-- The entries of a set. -/
def fdbAt (b : Blk) (mac vid : Nat) : List FdbEntry := Tab.at [] b.trk.fdb (fdbSet mac vid)

/-- The entry of an address and VID. -/
def fdbFind (b : Blk) (mac vid : Nat) : Option FdbEntry :=
  (fdbAt b mac vid).find? (fun e => e.mac == mac && e.vid == vid)

/-- The tables before the changes of this clock, which its lookups see (R265). -/
def tablesSeen (b : Blk) : Tab (List FdbEntry) × Tab (Option McEntry) :=
  match b.trk.tables with
  | some t => if t.clock = b.now then (t.fdb, t.mct) else (b.trk.fdb, b.trk.mct)
  | none => (b.trk.fdb, b.trk.mct)

/-- A table changes in this clock. -/
def tablesKeep (b : Blk) : Blk :=
  b.setTrk { b.trk with tables := some { clock := b.now, fdb := (tablesSeen b).1, mct := (tablesSeen b).2 } }

/-- The table takes `t`; FDB_USED follows. -/
def fdbPut (b : Blk) (t : Tab (List FdbEntry)) : Blk :=
  let b := tablesKeep b
  (b.setTrk { b.trk with fdb := t }).setFld Reg.TRK_STATUS 28 16 (t.map (fun x => x.2.length)).sum

/-- The entry of an address and VID that a lookup finds. -/
def fdbLook (b : Blk) (mac vid : Nat) : Option FdbEntry :=
  (Tab.at [] (tablesSeen b).1 (fdbSet mac vid)).find? (fun e => e.mac == mac && e.vid == vid)

/-- The entry of `mac` and `vid` was written in this clock: a learn of it then changes nothing (R265). -/
def fdbWritten (b : Blk) (mac vid : Nat) : Bool :=
  match b.trk.wrote with
  | some (clock, es) => clock == b.now && es.contains (mac, vid)
  | none => false

/-- The entry of `mac` and `vid` is written in this clock. -/
def fdbNote (b : Blk) (mac vid : Nat) : Blk :=
  let es := match b.trk.wrote with
    | some (clock, es) => if clock = b.now then es else []
    | none => []
  b.setTrk { b.trk with wrote := some (b.now, (mac, vid) :: es) }

/-- The set of an address and VID takes `es`. -/
def fdbSetAt (b : Blk) (mac vid : Nat) (es : List FdbEntry) : Blk :=
  fdbPut b (Tab.upd [] b.trk.fdb (fdbSet mac vid) es)

/-- The entries for which `keep` fails are removed. -/
def fdbFilter (b : Blk) (keep : FdbEntry → Bool) : Blk :=
  fdbPut b ((b.trk.fdb.map (fun x => (x.1, x.2.filter keep))).filter (fun x => !x.2.isEmpty))

/-- The learned entries of ports for which `f` holds are removed. -/
def fdbForget (b : Blk) (f : Nat → Bool) : Blk := fdbFilter b (fun e => e.static || !f e.port)

/-- An entry goes into its set: over the one of its address and VID, into a free place, or over the learned entry refreshed longest
ago; none where four static entries stand in the way (R264, R265). -/
def fdbPlace (es : List FdbEntry) (e : FdbEntry) : Option (List FdbEntry) :=
  if es.any (fun x => x.mac == e.mac && x.vid == e.vid) then
    some (es.map (fun x => if x.mac == e.mac && x.vid == e.vid then e else x))
  else if es.length < 4 then some (es ++ [e])
  else
    match (es.filter (fun x => !x.static)).foldl (fun (o : Option Nat) x =>
        match o with
        | none => some x.time
        | some t => some (min t x.time)) none with
    | none => none
    | some t =>
      match es.findIdx? (fun x => !x.static && x.time == t) with
      | none => none
      | some i => some (es.set i e)

/-- Learning (R264). -/
def fdbLearn (b : Blk) (mac vid p : Nat) : Blk :=
  if !b.flag Reg.TRK_CTRL 1 || !b.flag (Reg.TRK_Pp_CTRL p) 6 || portState b p < 2 || bit mac 40 || fdbWritten b mac vid then b
  else if ((fdbFind b mac vid).map (fun e => e.static)).getD false then b
  else
    match fdbPlace (fdbAt b mac vid) { mac := mac, vid := vid, port := p, static := false, time := b.now } with
    | some es => fdbSetAt b mac vid es
    | none => (b.count Reg.TRK_LEARN_FULL).irq Reg.TRK_INT_STATUS 4

/-- The mask of the multicast entry that matches (R263, R265): the lowest index. -/
def mctFind (b : Blk) (mac vid : Nat) : Option Nat :=
  ((tablesSeen b).2.findSome? (fun x =>
    match x.2 with
    | some e => if e.mac = mac && (e.any || e.vid == vid) then some e.mask else none
    | none => none))

/-! ### Forwarding -/

/-- A forwarding decision: the ports, whether the frame is flooded, and whether the port state or the ingress port stopped it. -/
structure Route where
  ports : List Nat
  flooded : Bool := false
  filtered : Bool := false
  deriving DecidableEq, Repr

/-- Reserved multicast: 01-80-C2-00-00-00 to 01-80-C2-00-00-0F (R263 rule 1). -/
def macReserved (mac : Nat) : Bool := mac / 16 == 0x0180C200000

/-- A port that a switched frame may leave by: FORWARDING, or the internal port with INT_EN set (R263, R279). -/
def portOpen (b : Blk) (p : Nat) : Bool := if p = 4 then b.flag Reg.TRK_CTRL 0 else portState b p == 3

/-- Every open port of a list but the ingress port. -/
def openBut (b : Blk) (inPort : Nat) (ps : List Nat) : List Nat := ps.filter (fun p => p != inPort && portOpen b p)

/-- R263, rules 1 and 4 to 7, for a frame to `dst` with VID `vid`; a frame that is dropped is not flooded. -/
def trkRoute (b : Blk) (inPort dst vid : Nat) : Route :=
  if macReserved dst then { ports := if inPort = 4 then [] else [4] }
  else if !bit dst 40 then
    match fdbLook b dst vid with
    | some e =>
      if e.port = inPort then { ports := [], filtered := true }
      else { ports := openBut b inPort [e.port], filtered := !portOpen b e.port && e.port != 4 }
    | none => { ports := openBut b inPort [0, 1, 2, 3], flooded := true }
  else if dst = 2 ^ 48 - 1 then { ports := openBut b inPort [0, 1, 2, 3, 4], flooded := true }
  else
    match mctFind b dst vid with
    | some mask => { ports := openBut b inPort ((List.range 5).filter (fun p => bit mask p)) }
    | none =>
      if b.flag Reg.TRK_CTRL 2 then { ports := openBut b inPort [0, 1, 2, 3, 4], flooded := true }
      else { ports := [] }

/-- A frame of the device takes cells of port 4's reserve and goes to queue `q` of the ports `ps`, or where the switch sends it. -/
def trkFromDevice (b : Blk) (q : Nat) (f : TrkFrame) (ps : Option (List Nat)) : Blk :=
  let e := ethOf f.bytes
  let b := (b.count (Reg.TRK_Pp_RX_FRAMES 4)).wr64 (Reg.TRK_Pp_RX_OCTETS_LO 4) (Reg.TRK_Pp_RX_OCTETS_HI 4)
    (b.rd64 (Reg.TRK_Pp_RX_OCTETS_LO 4) (Reg.TRK_Pp_RX_OCTETS_HI 4) + f.bytes.length)
  trkIngress b 4 f.cells (fun b =>
    let r := match ps with
      | some ps => { ports := ps : Route }
      | none => trkRoute b 4 e.dst ((e.tags.headD 0) % 4096)
    let b := if r.filtered then b.count (Reg.TRK_Pp_RX_FILTERED 4) else b
    r.ports.foldl (trkAdmit f q) b)

/-- The device sends a frame, given without its FCS, which the MAC appends (R258). -/
def trkSend (b : Blk) (q : Nat) (bytes : List Byte) (ps : Option (List Nat)) : Blk :=
  trkFromDevice b q { trkFrame (bytes ++ fcsOf bytes) with directed := ps.isSome } ps

/-- The 16-bit one's complement sum of bytes (RFC 1071; log entry 18). -/
def inetSum : List Byte → Nat
  | [] => 0
  | [x] => 256 * x.toNat
  | x :: y :: r => 256 * x.toNat + y.toNat + inetSum r

/-- The checksum over bytes whose sum is `s`: folded twice and inverted. -/
def inetCheck (s : Nat) : Nat :=
  let s := s / 65536 + s % 65536
  let s := s / 65536 + s % 65536
  65535 - s % 65536

/-- A UDP/IPv4 packet of the device with its Ethernet header and optional tag (0 for none, else 0x10000 plus the TCI), its UDP source
port and checksum. What the spec does not state (identification, DF, TTL, and DSCP where it is none) is taken from the free value `v`
(log entries 3 and 18). -/
def udpFull (v srcMac dstMac tag srcIp dstIp sport dport sum : Nat) (dscp : Option Nat) (payload : List Byte) : List Byte :=
  let ip := toBE 1 0x45 ++ toBE 1 (4 * dscp.getD (v / 2 ^ 57)) ++ toBE 2 (payload.length + 28) ++ toBE 2 v ++ toBE 2 (v / 65536 % 2 * 16384)
    ++ toBE 1 (v / 2 ^ 17) ++ toBE 1 17
  let addrs := toBE 4 srcIp ++ toBE 4 dstIp
  toBE 6 dstMac ++ toBE 6 srcMac ++ (if tag = 0 then [] else toBE 2 0x8100 ++ toBE 2 tag) ++ toBE 2 0x0800
    ++ ip ++ toBE 2 (inetCheck (inetSum (ip ++ addrs))) ++ addrs
    ++ toBE 2 sport ++ toBE 2 dport ++ toBE 2 (payload.length + 8) ++ toBE 2 sum ++ payload

/-- The same where the spec states neither the UDP source port nor the checksum: free values too. -/
def udpPacket (v srcMac dstMac tag srcIp dstIp dport : Nat) (dscp : Option Nat) (payload : List Byte) : List Byte :=
  udpFull v srcMac dstMac tag srcIp dstIp (v / 2 ^ 25) dport (v / 2 ^ 41) dscp payload

/-- The device sends a UDP/IPv4 packet in queue `q`. -/
def udpSend (b : Blk) (q srcMac dstMac tag srcIp dstIp dport : Nat) (dscp : Option Nat) (payload : List Byte) : Blk :=
  trkSend b.drawn q (udpPacket (Config.freeValue b.freeCount) srcMac dstMac tag srcIp dstIp dport dscp payload) none

end Sys2Proof.Machine
end

