-- ==== Sys2Proof/Machine/Canvas.lean ====
section
/-!
DEFINITION. The canvas block: the ST 2110, Sheet stream and host sources (R97 to R105), commits and the latch cycle (R106 to R110),
the apply and stream loss at a frame boundary (R93, R111, R112), and the region emitters (R114, R115).
-/
namespace Sys2Proof.Machine

/-! ### Samples into the back buffer -/

/-- The cells of one 32-bit word of packed 10-bit samples: a sample that `g` does not give keeps its place (Table 4-1). -/
def wordCells (m : Mem) (a k : Nat) (g : Nat → Option Nat) : List Host.Cell :=
  let old := Mem.le m (a + 4 * k) 4
  let s (j : Nat) : Nat := (g (3 * k + j)).getD (bits old (10 * j + 9) (10 * j)) % 1024
  leCells (a + 4 * k) 4 (s 0 + 1024 * s 1 + 1048576 * s 2)

/-- The cells of stored samples `lo` to `hi` - 1 of the line at `a`, sample `i` being `g i`. -/
def lineCells (m : Mem) (ten : Bool) (a lo hi : Nat) (g : Nat → Option Nat) : List Host.Cell :=
  if hi ≤ lo then []
  else if ten then
    (List.range ((hi - 1) / 3 + 1 - lo / 3)).flatMap (fun k =>
      wordCells m a (lo / 3 + k) (fun i => if lo ≤ i && i < hi then g i else none))
  else (List.range (hi - lo)).filterMap (fun k => (g (lo + k)).map (fun v => (a + lo + k, BitVec.ofNat 8 v)))

/-- Cells collected while memory moves on. -/
abbrev Poured : Type := Mem × List Host.Cell

/-- More cells are written. -/
def pour (p : Poured) (cs : Mem → List Host.Cell) : Poured := (Mem.write p.1 (cs p.1), p.2 ++ cs p.1)

/-- Samples `x0` to `x0 + n` - 1 of line `y` of plane `p`, in the raster coordinates of the plane's own grid, are clipped to the
Sheet and placed in the back buffer (R91, R104); sample `x` has the value `g x`. -/
def placeLine (b : Blk) (p x0 n y : Nat) (g : Nat → Nat) (q : Poured) : Poured :=
  let s := cnvSheet b
  let ox := if p = 0 then s.x else s.x / 2
  let w := if p = 0 then s.w else s.w / 2
  let oy := if p ≠ 0 && s.samp = 0 then s.y / 2 else s.y
  let h := if p = 0 then s.h else s.linesC
  let lo := max x0 ox
  let hi := min (x0 + n) (ox + w)
  if y < oy || oy + h ≤ y || hi ≤ lo then q
  else
    let l := s.loc (cnvBackIdx b) p 0 (y - oy)
    if p ≠ 0 && s.semi then
      pour q (fun m => lineCells m s.ten l.1 (2 * (lo - ox)) (2 * (hi - ox))
        (fun i => if i % 2 = p - 1 then some (g (i / 2 + ox)) else none))
    else pour q (fun m => lineCells m s.ten l.1 (lo - ox) (hi - ox) (fun i => some (g (i + ox))))

/-! ### Region emitters (R114, R115) -/

/-- An emitter that sends: EN, on a device whose role is manager (R114), and while its unit of a pair does not send, only with
STANDBY_TX set (R115, R293). -/
def reActive (b : Blk) (e : Nat) : Bool :=
  b.flag (Reg.CNV_REe_CTRL e) 0 && b.firm.role == 1 && (pairSends b || b.flag (Reg.CNV_REe_CTRL e) 1)

/-- TILE_H of emitter `e`, 2 to 255 (R114, R453). -/
def reTileH (b : Blk) (e : Nat) : Nat := limit 2 255 (b.fld (Reg.CNV_REe_TILE e) 23 16)

/-- The bands of emitter `e`. -/
def reBands (b : Blk) (e : Nat) : Nat :=
  let th := reTileH b e
  (b.fld (Reg.CNV_REe_SIZE e) 28 16 + th - 1) / th

/-- A tile: plane, first sample, first line, samples and lines in the plane's own grid. -/
structure Tile where
  plane : Nat
  x : Nat
  y : Nat
  w : Nat
  h : Nat
  deriving DecidableEq, Repr

/-- The tiles of band `k` of emitter `e`, in the order sent: all Y, all Cb, all Cr, each left to right (R115). A chroma tile holds every
chroma sample of its luma tile's columns and lines, also where these are odd (log entry 17). -/
def reTiles (b : Blk) (e k : Nat) : List Tile :=
  let x := b.fld (Reg.CNV_REe_ORIGIN e) 12 0
  let y := b.fld (Reg.CNV_REe_ORIGIN e) 28 16
  let w := b.fld (Reg.CNV_REe_SIZE e) 12 0
  let h := b.fld (Reg.CNV_REe_SIZE e) 28 16
  let tw := max 1 (b.fld (Reg.CNV_REe_TILE e) 12 0)
  let th := reTileH b e
  let half := if (cnvSheet b).samp = 0 then 2 else 1
  let lines := min th (h - k * th)
  let cols (p : Nat) : List Tile := (List.range ((w + tw - 1) / tw)).map (fun i =>
    let c := min tw (w - i * tw)
    if p = 0 then { plane := p, x := x + i * tw, y := y + k * th, w := c, h := lines }
    else
      let x := x + i * tw
      let y := y + k * th
      { plane := p, x := x / 2, y := y / half, w := (x + c + 1) / 2 - x / 2, h := (y + lines + half - 1) / half - y / half })
  cols 0 ++ cols 1 ++ cols 2

/-- Bytes of a tile line (R103). -/
def tileLineBytes (ten : Bool) (w : Nat) : Nat := if ten then 4 * ((w + 2) / 3) else 4 * ((w + 3) / 4)

/-- One tile line as it is sent: samples of the back buffer packed as R103 gives, the last word padded with zeros. -/
def tileLine (m : Mem) (b : Blk) (t : Tile) (j : Nat) : List Byte :=
  let s := cnvSheet b
  let ox := if t.plane = 0 then s.x else s.x / 2
  let oy := if t.plane ≠ 0 && s.samp = 0 then s.y / 2 else s.y
  let v (i : Nat) : Nat := if i < t.w then s.sample m (cnvBackIdx b) t.plane (t.x + i - ox) (t.y + j - oy) else 0
  if s.ten then (List.range ((t.w + 2) / 3)).flatMap (fun k =>
    toLE 4 (v (3 * k) + 1024 * v (3 * k + 1) + 1048576 * v (3 * k + 2)))
  else (List.range (tileLineBytes false t.w)).map (fun i => BitVec.ofNat 8 (v i))

/-- The device ID a sender writes in SOURCE (R306). -/
def devId (b : Blk) : Nat := b.deviceId

/-- A Sheet stream packet (Table 4-4). -/
def tilePacket (m : Mem) (b : Blk) (e frame seq flags total : Nat) (t : Tile) : List Byte :=
  let s := cnvSheet b
  let lb := tileLineBytes s.ten t.w
  toLE 1 0xC5 ++ toLE 1 1 ++ toLE 1 flags ++ toLE 1 (s.samp + 4 * b2n s.ten + 8 * t.plane) ++ toLE 2 (devId b)
    ++ toLE 1 e ++ toLE 1 (b.fld (Reg.CNV_REe_CTRL e) 15 8) ++ toLE 4 frame ++ toLE 2 seq ++ toLE 2 total
    ++ toLE 2 t.x ++ toLE 2 t.y ++ toLE 2 t.w ++ toLE 2 t.h ++ toLE 2 lb ++ toLE 6 0
    ++ (List.range t.h).flatMap (tileLine m b t)

/-- The 802.1Q tag of a VLAN word: VID, PCP and TAG_EN (Table 4-6); 0 for an untagged packet. -/
def vlanTag (v : Nat) : Nat := if bit v 15 then 0x10000 + bits v 14 12 * 8192 + bits v 11 0 else 0

/-- What the reads of the packets that emitters build now find: emitter, number of its packet from 0, and the outcome (R26). -/
abbrev ReFound : Type := List (Nat × Nat × EccResult)

/-- The outcome for packet `i` of emitter `e`. -/
def ReFound.of (l : ReFound) (e i : Nat) : EccResult :=
  match l.find? (fun x => x.1 == e && x.2.1 == i) with
  | some x => x.2.2
  | none => .clean

/-- The address of a tile's first sample in the back buffer. -/
def tileAddr (b : Blk) (t : Tile) : Nat :=
  let s := cnvSheet b
  (s.loc (cnvBackIdx b) t.plane (t.x - (if t.plane = 0 then s.x else s.x / 2))
    (t.y - (if t.plane ≠ 0 && s.samp = 0 then s.y / 2 else s.y))).1

/-- CNV_RE_PACE in Mbit/s (R116). -/
def rePace (b : Blk) : Nat := if b.fld Reg.CNV_RE_PACE 15 0 = 0 then 25000 else b.fld Reg.CNV_RE_PACE 15 0

/-- RE_BUSY: an emitter sends a frame, or its packets wait for the pace. -/
def reShow (b : Blk) : Blk := b.setFlag Reg.CNV_STATUS 11 (b.cnv.reFrame.isSome || !b.cnv.reOut.isEmpty)

/-- The oldest packet that waits leaves in queue 5 once the pace lets it: after a packet of `n` bytes on the wire, from preamble to
interframe gap, the next waits the time that the bytes take at CNV_RE_PACE (R116; log entry 17). -/
def reDrain (b : Blk) : Blk :=
  match b.cnv.reOut with
  | [] => b
  | x :: r =>
    if b.now < b.cnv.reNext then b
    else
      let wire := max 84 (x.frame.length + 24)
      let b := b.setCnv { b.cnv with reOut := r, reNext := b.now + (wire * 8000 + rePace b - 1) / rePace b }
      reShow (((trkSend b 5 x.frame none).count Reg.CNV_RE_PKT_COUNT).count (Reg.CNV_REe_PKTS x.emitter))

/-- Emitter `e` sends one packet, or loses it to an uncorrectable SRAM error and counts it (R26, Table 1-13, R115). -/
def reSend (m : Mem) (b : Blk) (e flags total : Nat) (found : EccResult) (t : Tile) : Blk :=
  let seq := Tab.at 0 b.cnv.reSeq e
  let frame := b.cnv.reFrame.getD 0
  let b' := eccFound (b.setCnv { b.cnv with reSeq := Tab.upd 0 b.cnv.reSeq e (seq + 1) }) found (tileAddr b t) 0x40 2
  if found = .uncorrectable then b'.count Reg.CNV_RE_DROP
  else
    let pkt := udpPacket (Config.freeValue b'.freeCount) (b.rd64 Reg.CNV_RE_SRC_MAC_LO Reg.CNV_RE_SRC_MAC_HI)
      (b.rd64 (Reg.CNV_REe_DEST_MAC_LO e) (Reg.CNV_REe_DEST_MAC_HI e)) (vlanTag (b.rdN (Reg.CNV_REe_VLAN e)))
      (b.rdN Reg.CNV_RE_SRC_IP) (b.rdN (Reg.CNV_REe_DEST_IP e)) 47742 none (tilePacket m b e frame seq flags total t)
    reDrain (b'.drawn.setCnv { b'.cnv with reOut := b'.cnv.reOut ++ [{ emitter := e, id := frame, buf := cnvBackIdx b, frame := pkt }] })

/-- Tiles are sent in order, from packet number `i` on; with `fin` the last one carries END and TOTAL. -/
def reSendTiles (m : Mem) (e : Nat) (fin : Bool) (found : ReFound) : Nat → List Tile → Blk → Blk
  | _, [], b => b
  | i, t :: ts, b =>
    let last := fin && ts.isEmpty
    let total := if last then Tab.at 0 b.cnv.reSeq e + 1 else 0
    reSendTiles m e fin found (i + 1) ts (reSend m b e (b2n last) total (found.of e i) t)

/-- The emitters send frame `frame` from now on, or none; RE_BUSY follows. -/
def reBusy (b : Blk) (frame : Option Nat) : Blk :=
  let c := b.cnv
  reShow (b.setCnv { c with reFrame := frame, reOpen := c.reOpen && frame.isSome, reBand := if frame.isNone then [] else c.reBand,
                            reSeq := if frame.isNone then [] else c.reSeq })

/-- The frame is committed: every emitter sends its remaining bands, the last packet with END and TOTAL (R115). A commit of a buffer that
is FREE, or whose frame has ended with ABORT, sends all of it under the number the buffer holds (DESIGN CHOICE, log entry 17). -/
def reFinish (m : Mem) (found : ReFound) (b : Blk) : Blk :=
  let send (b : Blk) (e : Nat) : Blk :=
    if reActive b e then
      let k := Tab.at 0 b.cnv.reBand e
      let ts := (List.range (reBands b e - k)).flatMap (fun i => reTiles b e (k + i))
      reSendTiles m e true found 0 ts b
    else b
  let b := b.setCnv { b.cnv with reFrame := some b.cnv.backFrame }
  reBusy ((List.range 64).foldl send b) none

/-- The frame that the back buffer receives ends uncommitted: every emitter sends one END packet with ABORT (R115; log entry 17). -/
def reAbort (m : Mem) (b : Blk) : Blk :=
  let send (b : Blk) (e : Nat) : Blk :=
    if reActive b e then
      match (reTiles b e (reBands b e - 1)).getLast? with
      | some t => reSend m b e 3 (Tab.at 0 b.cnv.reSeq e + 1) .clean t
      | none => b
    else b
  let b := b.setCnv { b.cnv with reFrame := some b.cnv.backFrame }
  reBusy ((List.range 64).foldl send b) none

/-- The spans `l` of a line cover its samples from `x` to before `hi`, found in at most `fuel` pieces. -/
def spansCover (l : List CnvSpan) (hi : Nat) : Nat → Nat → Bool
  | 0, x => decide (hi ≤ x)
  | fuel + 1, x =>
    decide (hi ≤ x) ||
      (match l.find? (fun s => decide (s.x ≤ x) && decide (x < s.x + s.n)) with
       | some s => spansCover l hi fuel (s.x + s.n)
       | none => false)

/-- All lines of a tile are written in the back buffer (R115). -/
def tileWritten (b : Blk) (t : Tile) : Bool :=
  (List.range t.h).all (fun j =>
    let l := b.cnv.written.filter (fun s => s.plane == t.plane && s.line == t.y + j)
    spansCover l (t.x + t.w) l.length t.x)

/-- What the frame under reception has written grows. -/
def cnvWrote (b : Blk) (l : List CnvSpan) : Blk := b.setCnv { b.cnv with written := b.cnv.written ++ l }

/-- An emitter sends its next band once all of its lines are written in the back buffer; the last band waits for the commit, which marks
its last packet (R115; log entry 17). -/
def regionBandSend (e : Nat) (found : List (Nat × EccResult)) (m : Mem) (b : Blk) : Blk :=
  let k := Tab.at 0 b.cnv.reBand e
  if reActive b e && cnvBack b = 1 && k + 1 < reBands b e && (reTiles b e k).all (tileWritten b) then
    let b := reBusy b (some b.cnv.backFrame)
    let b := reSendTiles m e false (found.map (fun x => (e, x))) 0 (reTiles b e k) b
    b.setCnv { b.cnv with reBand := Tab.upd 0 b.cnv.reBand e (k + 1) }
  else b

/-- REGION_BAND_SEND (R115). -/
def execRegionBandSend (e : Fin 64) (found : List (Nat × EccResult)) (s : State) : Result :=
  inDom 4 (onView (regionBandSend e found)) s

/-! ### Commits (R107) and the latch cycle (R108) -/

/-- A commit retires: the back buffer goes to PENDING, a stream loss ends, the emitters finish (R107, R109, R112, R115). -/
def cnvCommit (m : Mem) (found : ReFound) (b : Blk) : Blk :=
  let b := ((b.setFld Reg.CNV_STATUS 5 4 2).irq Reg.CNV_INT_STATUS 0).count Reg.CNV_COMMIT_COUNT
  let b := b.setCnv { b.cnv with autoDue := false, lossFrames := 0, lossPart := true, commitAt := b.now }
  let b := if b.flag Reg.CNV_STATUS 6 then (b.setFlag Reg.CNV_STATUS 6 false).irq Reg.CNV_INT_STATUS 6 else b
  let mer := cnvMer b
  reFinish m found (cnvPlan b (merState b mer != 0) (merPos b mer).1)

/-- A due automatic commit retires; it does nothing where the buffer is PENDING already (R107). -/
def canvasAutoCommit (found : ReFound) (m : Mem) (b : Blk) : Blk :=
  if !b.cnv.autoDue then b
  else if 2 ≤ cnvBack b then b.setCnv { b.cnv with autoDue := false }
  else cnvCommit m found b

/-- CANVAS_AUTO_COMMIT (R107). -/
def execCanvasAutoCommit (found : ReFound) (s : State) : Result := inDom 4 (onView (canvasAutoCommit found)) s

/-- A write of 1 to CNV_NEXT (R107): ignored where the buffer is PENDING or LATCHED or an apply is pending. -/
def cnvNext (found : ReFound) (m : Mem) (b : Blk) : Blk :=
  if 2 ≤ cnvBack b || b.flag Reg.CNV_STATUS 7 then b.irq Reg.CNV_INT_STATUS 4
  else
    let frame := b.cnv.frame.map (fun f => { f with taken := true })
    cnvCommit m found (b.setCnv { b.cnv with frame })

/-- CNV_NEXT (R107). -/
def execCnvNext (found : ReFound) (s : State) : Result := inDom 4 (onView (cnvNext found)) s

/-- The tick of the latch cycle: CNV_FLIP_LINE, 0 or TICKS_PER_FRAME or more standing for the last tick (R108). -/
def flipLine (b : Blk) : Nat :=
  let v := b.fld Reg.CNV_FLIP_LINE 15 0
  let tpf := merTpf b (cnvMer b)
  if v = 0 || tpf ≤ v then tpf - 1 else v

/-- The latch cycle: at most one for each entry into a FRAME value, at or past the tick of CNV_FLIP_LINE; a buffer that has been PENDING
since an earlier clock becomes LATCHED (R108). -/
def flipLatch (b : Blk) : Blk :=
  if merState b (cnvMer b) = 0 || b.cnv.latchDone || decide (merTick b (cnvMer b) < flipLine b) then b
  else
    let b := b.setCnv { b.cnv with latchDone := true }
    if cnvBack b = 2 && b.cnv.commitAt < b.now then (cnvSetBack b 3 3).wrN Reg.CNV_FLIP_FRAME ((merPos b (cnvMer b)).1 + 1) else b

/-- FLIP_LATCH (R108). -/
def execFlipLatch (s : State) : Result := inDom 4 (onBlk flipLatch) s

/-! ### Frames of a source -/

/-- The buffer takes data: it is FREE or FILLING, and no emitter still reads another frame from it (R106). -/
def cnvTakes (b : Blk) (id : Nat) : Bool :=
  cnvBack b < 2 && (b.cnv.reFrame.isNone || b.cnv.reFrame = some id)
    && b.cnv.reOut.all (fun x => x.buf != cnvBackIdx b || x.id == id)

/-- A frame ends (R101, R104, R107): an automatic commit becomes due, or the frame is counted as incomplete. -/
def cnvEnd (m : Mem) (b : Blk) (f : CnvFrame) (complete abort : Bool) : Blk :=
  let b := b.setCnv { b.cnv with frame := none, ended := (f.id :: b.cnv.ended).take 64 }
  if f.skipped || f.taken then b
  else if !abort && b.flag Reg.CNV_CTRL 5 && (complete || b.flag Reg.CNV_CTRL 6) then
    b.setCnv { b.cnv with autoDue := true }
  else if complete then b
  else reAbort m ((b.irq Reg.CNV_INT_STATUS 2).count Reg.CNV_INCOMPLETE_COUNT)

/-- A frame begins: an automatic commit that is due has retired; the frame is skipped where the buffer cannot take it (R106). -/
def cnvBegin (m : Mem) (b : Blk) (f : CnvFrame) : Blk :=
  let b := canvasAutoCommit [] m b
  let b := if b.cnv.reOpen then reAbort m b else b
  if cnvTakes b f.id then
    let b := b.setFld Reg.CNV_STATUS 5 4 1
    b.setCnv { b.cnv with frame := some f, backFrame := f.id, reOpen := true, written := [] }
  else
    let b := (b.irq Reg.CNV_INT_STATUS 3).count Reg.CNV_SKIP_COUNT
    b.setCnv { b.cnv with frame := some { f with skipped := true } }

/-- The frame under reception changes. -/
def cnvSetFrame (b : Blk) (f : CnvFrame) : Blk := b.setCnv { b.cnv with frame := some f }

/-! ### SMPTE ST 2110-20 (R99 to R102) -/

/-- A sample row data header: length in octets, line, offset in pixels, and where its data starts. -/
structure RowHdr where
  len : Nat
  line : Nat
  off : Nat
  data : Nat
  deriving DecidableEq, Repr

/-- The headers of an RTP packet that Table 4-3 supports. -/
structure Rtp where
  ts : Nat
  marker : Bool
  seq : Nat
  rows : List RowHdr
  deriving DecidableEq, Repr

/-- The sample row headers from offset `o` on, at most `fuel`; none where one has the field bit, or another would follow. -/
def rowHdrs (p : List Byte) : Nat → Nat → Option (List RowHdr)
  | 0, _ => none
  | n + 1, o =>
    let line := beAt p (o + 2) 2
    let off := beAt p (o + 4) 2
    let h : RowHdr := { len := beAt p o 2, line := line % 32768, off := off % 32768, data := 0 }
    if 32768 ≤ line then none
    else if 32768 ≤ off then (rowHdrs p n (o + 6)).map (h :: ·)
    else some [h]

/-- Each row's data follows the headers in order. -/
def rowData : Nat → List RowHdr → List RowHdr
  | _, [] => []
  | o, h :: hs => { h with data := o } :: rowData (o + h.len) hs

/-- Octets and pixels of a pixel group (Table 4-3). -/
def pgroup (s : Sheet) : Nat × Nat :=
  if s.samp = 0 then (if s.ten then (15, 4) else (6, 2)) else (if s.ten then (5, 2) else (4, 2))

/-- The RTP and RFC 4175 headers of a payload within Table 4-3, none for a packet outside it. The payload type is not looked at here, so a
static one passes unless PT_CHECK refuses it (DESIGN CHOICE, log entry 66). -/
def rtpOf (s : Sheet) (p : List Byte) : Option Rtp :=
  let b0 := (p.getD 0 0#8).toNat
  let b1 := (p.getD 1 0#8).toNat
  let o := 12 + (if bit b0 4 then 4 + 4 * beAt p 14 2 else 0)
  if p.length < 20 || b0 / 64 ≠ 2 || bit b0 5 || b0 % 16 ≠ 0 then none
  else
    match rowHdrs p 3 (o + 2) with
    | none => none
    | some hs =>
      let hs := rowData (o + 2 + 6 * hs.length) hs
      let g := pgroup s
      let total := (hs.map (·.len)).foldl (· + ·) 0
      if hs.all (fun h => h.len % g.1 == 0 && h.off % g.2 == 0) && o + 2 + 6 * hs.length + total ≤ p.length then
        some { ts := beAt p 4 4, marker := bit b1 7, seq := beAt p o 2 * 65536 + beAt p 2 2, rows := hs }
      else none

/-- Sample number `k` of `dd` bits in the octets from `o` on. -/
def beSample (p : List Byte) (ten : Bool) (o k : Nat) : Nat :=
  if ten then beAt p (o + 10 * k / 8) 2 / 2 ^ (6 - 10 * k % 8) % 1024 else (p.getD (o + k) 0#8).toNat

/-- A sample row is placed in the back buffer; its pixel groups hold the samples in the order of ST 2110-20 (log entry 16). -/
def placeRow (b : Blk) (p : List Byte) (q : Poured) (h : RowHdr) : Poured :=
  let s := cnvSheet b
  let g := pgroup s
  let n := h.len / g.1 * g.2
  let v (k : Nat) : Nat := beSample p s.ten h.data k
  if s.samp = 0 then
    let q := placeLine b 0 h.off n h.line (fun x => v (6 * ((x - h.off) / 2) + (x - h.off) % 2)) q
    let q := placeLine b 0 h.off n (h.line + 1) (fun x => v (6 * ((x - h.off) / 2) + 2 + (x - h.off) % 2)) q
    let q := placeLine b 1 (h.off / 2) (n / 2) (h.line / 2) (fun x => v (6 * (x - h.off / 2) + 4)) q
    placeLine b 2 (h.off / 2) (n / 2) (h.line / 2) (fun x => v (6 * (x - h.off / 2) + 5)) q
  else
    let q := placeLine b 0 h.off n h.line (fun x => v (4 * ((x - h.off) / 2) + 1 + 2 * ((x - h.off) % 2))) q
    let q := placeLine b 1 (h.off / 2) (n / 2) h.line (fun x => v (4 * (x - h.off / 2))) q
    placeLine b 2 (h.off / 2) (n / 2) h.line (fun x => v (4 * (x - h.off / 2) + 2)) q

/-- What a sample row writes. -/
def rowSpans (s : Sheet) (h : RowHdr) : List CnvSpan :=
  let n := h.len / (pgroup s).1 * (pgroup s).2
  let c (p : Nat) : CnvSpan := { plane := p, line := if s.samp = 0 then h.line / 2 else h.line, x := h.off / 2, n := n / 2 }
  (if s.samp = 0 then [{ plane := 0, line := h.line + 1, x := h.off, n := n }] else [])
    ++ [{ plane := 0, line := h.line, x := h.off, n := n }, c 1, c 2]

/-- A sample row inside the raster (R100). -/
def rowInside (s : Sheet) (h : RowHdr) : Bool :=
  let g := pgroup s
  h.line < s.rh && h.off + h.len / g.1 * g.2 ≤ s.rw

/-- A packet is accepted by a path (R100): 0 is A, 1 is B. -/
def pathTakes (b : Blk) (path port : Nat) (u : Udp) : Bool :=
  let c := b.rdN Reg.CNV_RX_CTRL
  let group := b.rdN (if path = 0 then Reg.CNV_RX_A_GROUP else Reg.CNV_RX_B_GROUP)
  let srcip := b.rdN (if path = 0 then Reg.CNV_RX_A_SRCIP else Reg.CNV_RX_B_SRCIP)
  let udp := b.fld (if path = 0 then Reg.CNV_RX_A_UDP else Reg.CNV_RX_B_UDP) 15 0
  bit c path && bits c (3 + 2 * path) (2 + 2 * path) == port && u.dstIp == group && u.dport == udp
    && (srcip == 0 || u.srcIp == srcip)
    && (!bit c 13 || (u.payload.getD 1 0#8).toNat % 128 == bits c 12 6)
    && (!bit c 14 || beAt u.payload 8 4 == b.rdN Reg.CNV_RX_SSRC)

/-- Sequence number `i` less `j`, modulo 2^32, signed. -/
def seqDiff (i j : Nat) : Int := sx 32 (i + 2 ^ 32 - j % 2 ^ 32)

/-- Every sequence number from the frame's first packet to its last has been received (R101; log entry 15). -/
def stComplete (f : CnvFrame) : Bool :=
  match f.last with
  | none => false
  | some l =>
    let first := f.first.getD (f.seqs.foldl (fun a i => if seqDiff i a < 0 then i else a) l)
    decide (0 ≤ seqDiff l first) && decide ((seqDiff l first).toNat < f.seqs.length)

/-- The frame under reception ends; where it began last and its marker came, its last sequence number stays known. -/
def stEnd (m : Mem) (b : Blk) (f : CnvFrame) : Blk :=
  cnvEnd m (b.setCnv { b.cnv with lastSeq := if b.cnv.passed then b.cnv.lastSeq else f.last }) f (stComplete f) false

/-- The first sequence number of the frame that begins next, where it is known. -/
def stFirst (b : Blk) : Option Nat := b.cnv.lastSeq.map (fun i => (i + 1) % 2 ^ 32)

/-- Of the frames that are skipped, those that `ends` takes end. -/
def stDropSkipped (b : Blk) (ends : CnvFrame → Bool) : Blk :=
  let c := b.cnv
  b.setCnv { c with skipping := c.skipping.filter (fun g => !ends g), ended := ((c.skipping.filter ends).map (·.id) ++ c.ended).take 64 }

/-- Entries older than the newest 32,768 leave the merge window; one that a single path delivered is counted (R102). -/
def windowSlide (b : Blk) (newest : Nat) : Blk :=
  let old := b.cnv.window.filter (fun e => decide (32768 ≤ seqDiff newest e.1))
  let b := b.setCnv { b.cnv with newest := some newest
                                 window := b.cnv.window.filter (fun e => !decide (32768 ≤ seqDiff newest e.1)) }
  let b := b.count Reg.CNV_PATH_A_ONLY (old.filter (fun e => e.2 == 1)).length
  b.count Reg.CNV_PATH_B_ONLY (old.filter (fun e => e.2 == 2)).length

/-- What the merge says of a packet (R102). -/
inductive MergeWord where
  | fresh | duplicate | late
  deriving DecidableEq, Repr

/-- The merge (R102): a number older than the window is late, and so is any packet of a frame that has ended (`ended`); otherwise the first
copy is fresh and a second one a duplicate. -/
def mergeSee (b : Blk) (path seq : Nat) (ended : Bool) : Blk × MergeWord :=
  let newest := b.cnv.newest.getD seq
  if 32768 ≤ seqDiff newest seq then (b, .late)
  else
    match b.cnv.window.find? (fun e => e.1 == seq) with
    | some e =>
      let window := (seq, e.2 ||| (path + 1)) :: b.cnv.window.erase e
      (b.setCnv { b.cnv with window }, if ended then .late else .duplicate)
    | none =>
      let b := windowSlide b (if 0 < seqDiff seq newest then seq else newest)
      (b.setCnv { b.cnv with window := (seq, path + 1) :: b.cnv.window }, if ended then .late else .fresh)

/-- A packet belongs to a frame that has ended. -/
def stLate (b : Blk) (r : Rtp) : Bool :=
  b.cnv.ended.contains r.ts && b.cnv.frame.all (fun f => f.id != r.ts)

/-- The frame under reception waits for the other path: merged, marked and not of this packet (R102). -/
def stWaits (merge : Bool) (b : Blk) (r : Rtp) : Option CnvFrame :=
  if merge then b.cnv.frame.filter (fun f => f.id != r.ts && f.last.isSome) else none

/-- A frame with the packet `r`: its number, and its marker (R101, R102). -/
def CnvFrame.see (f : CnvFrame) (r : Rtp) (now : Nat) : CnvFrame :=
  { f with seqs := if f.seqs.contains r.seq then f.seqs else r.seq :: f.seqs
           last := if r.marker then some r.seq else f.last
           markedAt := if r.marker && f.last.isNone then now else f.markedAt }

/-- A packet of a merged frame that is skipped: the frame ends at once when it is complete; else it waits as any merged frame does (R102,
R106). -/
def stSkip (r : Rtp) (b : Blk) : Blk :=
  let c := b.cnv
  let b := if c.skipping.any (fun g => g.id == r.ts && g.taken) then b.count Reg.CNV_PKT_DROP else b
  let b := if c.passed && r.marker && c.skipping.head?.any (fun g => g.id == r.ts) then b.setCnv { c with lastSeq := some r.seq } else b
  let b := b.setCnv { b.cnv with skipping := c.skipping.map (fun g => if g.id = r.ts then g.see r b.now else g) }
  stDropSkipped b (fun g => g.id == r.ts && stComplete g)

/-- A packet of a later frame while the back buffer waits with a merged one: its frame is skipped (R106; log entry 15). A frame skipped
before it whose marker was lost ends (R101). -/
def stNext (r : Rtp) (f : CnvFrame) (b : Blk) : Blk :=
  let b := stDropSkipped b (fun g => g.last.isNone)
  let b := if b.cnv.passed then b else b.setCnv { b.cnv with lastSeq := f.last, passed := true }
  let b := (b.irq Reg.CNV_INT_STATUS 3).count Reg.CNV_SKIP_COUNT
  stSkip r (b.setCnv { b.cnv with skipping := { id := r.ts, skipped := true, first := stFirst b } :: b.cnv.skipping, lastSeq := none })

/-- A packet's rows are written and its frame goes on, or ends at its marker (R101, R102, R106, R107). -/
def stTake (merge : Bool) (p : List Byte) (r : Rtp) (f : CnvFrame) (m : Mem) (b : Blk) : Blk × List Host.Cell :=
  let f := f.see r b.now
  let fin (m : Mem) (b : Blk) : Blk :=
    if f.last.isSome && (!merge || stComplete f) then stEnd m b f else cnvSetFrame b f
  if f.taken then (fin m (b.count Reg.CNV_PKT_DROP), [])
  else if f.skipped then (fin m b, [])
  else
    let rows := r.rows.filter (rowInside (cnvSheet b))
    let q := rows.foldl (placeRow b p) (m, [])
    let b := b.count Reg.CNV_PKT_DROP (r.rows.length - rows.length)
    let b := if rows.isEmpty then b
      else crcSnoop (cnvWrote (b.count Reg.CNV_PKT_COUNT) (rows.flatMap (rowSpans (cnvSheet b)))) 3 0 0
        (rows.flatMap (fun h => slice p h.data h.len))
    (fin q.1 b, q.2)

/-- A new frame begins; one skipped before it whose marker was lost ends (R101). -/
def stBegin (m : Mem) (b : Blk) (r : Rtp) : Blk :=
  let b := stDropSkipped b (fun g => g.last.isNone)
  cnvBegin m (b.setCnv { b.cnv with passed := false }) { id := r.ts, first := stFirst b }

/-- The frame a packet belongs to: the one under reception, or a new one, which ends an earlier one (R101) or, where a merged one that is
skipped or taken still waits, leaves it aside. -/
def stFrame (merge : Bool) (m : Mem) (b : Blk) (r : Rtp) : Blk :=
  match b.cnv.frame with
  | some f =>
    if f.id = r.ts then b
    else if (stWaits merge b r).isSome then
      let c := b.cnv
      stBegin m (b.setCnv { c with frame := none, skipping := f :: c.skipping, lastSeq := if c.passed then c.lastSeq else f.last }) r
    else stBegin m (stEnd m b f) r
  | none => stBegin m b r

/-- A path delivers: its OK bit is set and its count of empty frames restarts (R102). -/
def pathAlive (b : Blk) (path : Nat) : Blk :=
  let b := b.setFlag Reg.CNV_STATUS (8 + path) true
  b.setCnv (if path = 0 then { b.cnv with idleA := 0, busyA := true } else { b.cnv with idleB := 0, busyB := true })

/-- An accepted packet within Table 4-3 (R101, R102). -/
def stPacket (merge : Bool) (path : Nat) (p : List Byte) (r : Rtp) (m : Mem) (b : Blk) : Blk × List Host.Cell :=
  let w := if merge then mergeSee b path r.seq (stLate b r) else (b, if stLate b r then .late else .fresh)
  match w.2 with
  | .late => (w.1.count (if merge then Reg.CNV_MERGE_LATE else Reg.CNV_PKT_DROP), [])
  | .duplicate => (w.1.count Reg.CNV_MERGE_DUP, [])
  | .fresh =>
    if w.1.cnv.skipping.any (fun g => g.id == r.ts) then (stSkip r w.1, [])
    else
      match (stWaits merge w.1 r).filter (fun f => !f.skipped && !f.taken) with
      | some f => (stNext r f w.1, [])
      | none =>
        let b := stFrame merge m w.1 r
        match b.cnv.frame with
        | some f => stTake merge p r f m b
        | none => (b, [])

/-- The canvas block takes the packet `u` of port `port` on path A or B (R100). -/
def st2110Takes (b : Blk) (port : Nat) (u : Udp) : Option Nat :=
  if !b.flag Reg.CNV_CTRL 0 || ((cnvSheet b).src != 1 && (cnvSheet b).src != 2) then none
  else if pathTakes b 0 port u then some 0 else if pathTakes b 1 port u then some 1 else none

/-- An ST 2110-20 packet arrives (R99 to R102): left to the trunk unless a path accepts it; dropped and counted outside
Table 4-3. -/
def st2110Packet (port : Nat) (frame : List Byte) (m : Mem) (b : Blk) : Blk × List Host.Cell :=
  let s := cnvSheet b
  match udpOf frame with
  | none => (b, [])
  | some u =>
    match st2110Takes b port u with
    | none => (b, [])
    | some k =>
      let b := pathAlive b k
      match (if 2 ≤ u.tags then none else rtpOf s u.payload) with
      | none => (b.count Reg.CNV_PKT_DROP, [])
      | some r => stPacket (s.src == 2) k u.payload r m b

/-- CNV_MERGE_WAIT has passed since the marker: an incomplete merged frame ends as incomplete (R102). -/
def mergeWaitExpiry (m : Mem) (b : Blk) : Blk :=
  let due (f : CnvFrame) : Bool := f.last.isSome && decide (f.markedAt + 1000 * b.fld Reg.CNV_MERGE_WAIT 15 0 ≤ b.now)
  if b.fld Reg.CNV_FORMAT 6 4 = 2 then
    let b := stDropSkipped b due
    match b.cnv.frame with
    | some f => if due f then stEnd m b f else b
    | none => b
  else b

/-- MERGE_WAIT_EXPIRY (R102). -/
def execMergeWaitExpiry (s : State) : Result := inDom 4 (onView mergeWaitExpiry) s

/-- CNV_LOSS_FRAMES, 0 acting as 1 (R453). -/
def lossLimit (b : Blk) : Nat := max 1 (b.fld Reg.CNV_LOSS_FRAMES 7 0)

/-- A merge path delivered nothing for CNV_LOSS_FRAMES frames: its OK bit clears and PATH_LOSS sets (R102). Under SRC 1 there is no merge,
and an OK bit that a packet has set stays (DESIGN CHOICE, log entry 66). -/
def pathLoss (pathB : Bool) (b : Blk) : Blk :=
  let k := b2n pathB
  if b.flag Reg.CNV_STATUS (8 + k) && b.fld Reg.CNV_FORMAT 6 4 == 2
      && lossLimit b ≤ (if pathB then b.cnv.idleB else b.cnv.idleA) then
    (b.setFlag Reg.CNV_STATUS (8 + k) false).irq Reg.CNV_INT_STATUS 10
  else b

/-- PATH_LOSS (R102). -/
def execPathLoss (pathB : Bool) (s : State) : Result := inDom 4 (onBlk (pathLoss pathB)) s

/-! ### The Sheet stream (R103, R104) -/

/-- A packet that breaks the layout of R103 and Table 4-4 (R104). -/
def ssBroken (p : List Byte) : Bool :=
  let fmt := leAt p 3 1
  let w := leAt p 20 2
  let h := leAt p 22 2
  let lb := leAt p 24 2
  p.length < 32 || leAt p 0 1 != 0xC5 || leAt p 1 1 != 1 || bits fmt 4 3 == 3 || 63 < leAt p 6 1
    || w < 1 || 7680 < w || h < 1 || 255 < h || lb != tileLineBytes (bit fmt 2) w || 8960 < h * lb || p.length < 32 + h * lb

/-- SOURCE the receiver takes from now on: SOURCE_A or, with FOLLOW_PAIR, the selected unit's (R104). -/
def ssSource (b : Blk) : Nat :=
  let c := b.rdN Reg.CNV_SS_CTRL
  if bit c 18 && b.flag Reg.PAIR_WKR_STATUS 0 then bits c 31 20 else bits c 11 0

/-- The tile of a packet is placed (R104). -/
def ssPlace (b : Blk) (p : List Byte) (m : Mem) : Poured :=
  let ten := (cnvSheet b).ten
  let x := leAt p 16 2
  let lb := leAt p 24 2
  (List.range (leAt p 22 2)).foldl (fun q j =>
    let line := 32 + j * lb
    let v (i : Nat) : Nat :=
      if ten then bits (leAt p (line + 4 * (i / 3)) 4) (10 * (i % 3) + 9) (10 * (i % 3)) else leAt p (line + i) 1
    placeLine b (bits (leAt p 3 1) 4 3) x (leAt p 20 2) (leAt p 18 2 + j) (fun k => v (k - x)) q) (m, [])

/-- A packet of the frame under reception (R104, R106, R107). -/
def ssTake (p : List Byte) (f : CnvFrame) (m : Mem) (b : Blk) : Blk × List Host.Cell :=
  let seq := leAt p 12 2
  let f := { f with seqs := if f.seqs.contains seq then f.seqs else seq :: f.seqs }
  let fin (m : Mem) (b : Blk) : Blk :=
    if bit (leAt p 2 1) 0 then
      let abort := bit (leAt p 2 1) 1
      cnvEnd m b f (!abort && f.seqs.length == leAt p 14 2) abort
    else cnvSetFrame b f
  if f.taken then (fin m (b.count Reg.CNV_PKT_DROP), [])
  else if f.skipped then (fin m b, [])
  else
    let q := ssPlace b p m
    let spans := (List.range (leAt p 22 2)).map (fun j =>
      ({ plane := bits (leAt p 3 1) 4 3, line := leAt p 18 2 + j, x := leAt p 16 2, n := leAt p 20 2 } : CnvSpan))
    (fin q.1 (crcSnoop (cnvWrote (b.count Reg.CNV_PKT_COUNT) spans) 3 0 0 (slice p 32 (leAt p 22 2 * leAt p 24 2))), q.2)

/-- A packet that passes the filters of a new frame begins it, unless its frame has ended (R104). -/
def ssBegin (p : List Byte) (m : Mem) (b : Blk) : Blk × List Host.Cell :=
  let id := leAt p 8 4
  if b.cnv.ended.contains id then (b.count Reg.CNV_PKT_DROP, [])
  else
    let b := cnvBegin m b { id, source := ssSource b, emitter := b.fld Reg.CNV_SS_CTRL 17 12 }
    match b.cnv.frame with
    | some f => ssTake p f m b
    | none => (b, [])

/-- SOURCE and EMITTER of a packet are those the receiver takes: the ones of the frame under reception, and the present ones for a packet
of a later frame (R104). -/
def ssMatches (b : Blk) (p : List Byte) : Bool :=
  let from_ (src em : Nat) : Bool := bits (leAt p 4 2) 11 0 == src && leAt p 6 1 == em
  let now := from_ (ssSource b) (b.fld Reg.CNV_SS_CTRL 17 12)
  match b.cnv.frame with
  | none => now
  | some f => if 0 < frameDiff (leAt p 8 4) f.id then now else from_ f.source f.emitter

/-- The canvas block takes the Sheet stream packet `u`: to its group or its own address, and of its SOURCE and EMITTER or broken (R104). -/
def sheetTakes (b : Blk) (u : Udp) : Bool :=
  let own := b.rdN Reg.CNV_SS_LOCAL_IP
  u.dport == 47742 && b.flag Reg.CNV_CTRL 0 && (cnvSheet b).src == 3
    && (u.dstIp == b.rdN Reg.CNV_SS_GROUP || (own != 0 && u.dstIp == own)) && (ssBroken u.payload || ssMatches b u.payload)

/-- A Sheet stream packet arrives (R104). -/
def sheetStreamPacket (frame : List Byte) (m : Mem) (b : Blk) : Blk × List Host.Cell :=
  let s := cnvSheet b
  match udpOf frame with
  | none => (b, [])
  | some u =>
    let p := u.payload
    if !sheetTakes b u then (b, [])
    else if ssBroken p then (b.count Reg.CNV_PKT_DROP, [])
    else if bits (leAt p 3 1) 1 0 != s.samp || bit (leAt p 3 1) 2 != s.ten then (b.irq Reg.CNV_INT_STATUS 8, [])
    else
      match b.cnv.frame with
      | none => ssBegin p m b
      | some f =>
        let d := frameDiff (leAt p 8 4) f.id
        if 0 < d && !b.cnv.ended.contains (leAt p 8 4) then ssBegin p m (cnvEnd m b f false false)
        else if d != 0 then (b.count Reg.CNV_PKT_DROP, [])
        else ssTake p f m b

/-! ### Host buffers (R105) -/

/-- CNV_HOST_CTRL.GO (R105): a fetch is requested; ignored while one waits or runs, and where SRC is not HOST (log entry 15).
CNV_CTRL.EN is not looked at: R105 names GO alone (DESIGN CHOICE, log entry 66). -/
def hostGo (b : Blk) : Blk :=
  if b.flag Reg.CNV_STATUS 10 || b.fld Reg.CNV_FORMAT 6 4 != 4 then b.irq Reg.CNV_INT_STATUS 4
  else (b.setFlag Reg.CNV_STATUS 10 true).setCnv { b.cnv with hostWaiting := true }

/-- HOST_GO (R105). -/
def execHostGo (s : State) : Result := inDom 4 (onBlk hostGo) s

/-- A requested fetch starts once the back buffer is free; until then it waits (R105, R106). -/
def hostFetchStart (m : Mem) (b : Blk) : Blk :=
  let id := b.rdN Reg.CNV_HOST_FRAME
  if b.cnv.hostWaiting && cnvTakes b id then
    let b := if b.cnv.reOpen then reAbort m b else b
    (b.setFld Reg.CNV_STATUS 5 4 1).setCnv { b.cnv with hostWaiting := false, backFrame := id, reOpen := true, written := [] }
  else b

/-- HOST_FETCH_START (R105). -/
def execHostFetchStart (s : State) : Result := inDom 4 (onView hostFetchStart) s

/-- The host frame converted to the storage layout: `y`, `c0` and `c1` are the bytes at its addresses (R105). -/
def hostPlace (b : Blk) (y c0 c1 : List Byte) (m : Mem) : Poured :=
  let s := cnvSheet b
  let semi := b.flag Reg.CNV_HOST_CTRL 4
  let py := b.rdN Reg.CNV_HOST_PITCH_Y
  let pc := b.rdN Reg.CNV_HOST_PITCH_C
  let v (bs : List Byte) (o i : Nat) : Nat := if s.ten then leAt bs (o + 2 * i) 2 % 1024 else leAt bs (o + i) 1
  let ox := s.x / 2
  let oy := if s.samp = 0 then s.y / 2 else s.y
  let q := (List.range s.h).foldl (fun q r => placeLine b 0 s.x s.w (s.y + r) (fun x => v y (r * py) (x - s.x)) q) (m, [])
  (List.range s.linesC).foldl (fun q r =>
    let q := placeLine b 1 ox (s.w / 2) (oy + r)
      (fun x => if semi then v c0 (r * pc) (2 * (x - ox)) else v c0 (r * pc) (x - ox)) q
    placeLine b 2 ox (s.w / 2) (oy + r)
      (fun x => if semi then v c0 (r * pc) (2 * (x - ox) + 1) else v c1 (r * pc) (x - ox)) q) q

/-- What a host fetch writes: every line of the Sheet. -/
def sheetSpans (s : Sheet) : List CnvSpan :=
  let oy := if s.samp = 0 then s.y / 2 else s.y
  (List.range s.h).map (fun r => { plane := 0, line := s.y + r, x := s.x, n := s.w })
    ++ (List.range s.linesC).flatMap (fun r =>
      [{ plane := 1, line := oy + r, x := s.x / 2, n := s.w / 2 }, { plane := 2, line := oy + r, x := s.x / 2, n := s.w / 2 }])

/-- A fetch completes: HOST_DONE, and a commit with AUTO_COMMIT (R105). -/
def hostFetchDone (y c0 c1 : List Byte) (found : ReFound) (m : Mem) (b : Blk) : Blk × List Host.Cell :=
  if !b.flag Reg.CNV_STATUS 10 || b.cnv.hostWaiting then (b, [])
  else
    let q := if cnvBack b = 1 then hostPlace b y c0 c1 m else (m, [])
    let b := if cnvBack b = 1 then cnvWrote b (sheetSpans (cnvSheet b)) else b
    let b := (b.setFlag Reg.CNV_STATUS 10 false).irq Reg.CNV_INT_STATUS 9
    (if b.flag Reg.CNV_CTRL 5 && cnvBack b = 1 then cnvCommit q.1 found b else b, q.2)

/-- HOST_FETCH_DONE (R105). -/
def execHostFetchDone (y c0 c1 : List Byte) (found : ReFound) (s : State) : Result :=
  inDom 4 (onMem (hostFetchDone y c0 c1 found)) s

/-! ### Apply, counters and stream loss -/

/-- APPLY_PENDING shows whether an APPLY waits. -/
def cnvApplies (b : Blk) (cs : List Nat) : Blk := (b.setCnv { b.cnv with applies := cs }).setFlag Reg.CNV_STATUS 7 (!cs.isEmpty)

/-- CNV_CTRL.APPLY: the staged values apply at the next frame boundary of the canvas Meridian (R93, R117). -/
def canvasApply (b : Blk) : Blk := cnvApplies b (b.cnv.applies ++ [b.now])

/-- CANVAS_APPLY (R93). -/
def execCanvasApply (s : State) : Result := inDom 4 (onBlk canvasApply) s

/-- The staged canvas registers. -/
def cnvStageRegs : List Nat :=
  [Reg.CNV_STAGE_FORMAT, Reg.CNV_STAGE_RASTER, Reg.CNV_STAGE_ORIGIN, Reg.CNV_STAGE_SIZE]

/-- The Sheet that the staged values give, which `look` finds. -/
def stagedSheet (look : Nat → Nat) : Sheet :=
  sheetOf (look Reg.CNV_STAGE_FORMAT) (look Reg.CNV_STAGE_RASTER) (look Reg.CNV_STAGE_ORIGIN) (look Reg.CNV_STAGE_SIZE)

/-- STREAM_LOSS ends with ingest, without STREAM_OK, and the count of frames restarts (R112). -/
def cnvIdle (b : Blk) : Blk := (b.setFlag Reg.CNV_STATUS 6 false).setCnv { b.cnv with lossFrames := 0, lossPart := true }

/-- An apply takes effect or is refused (R93, R111): with what was staged, and for the APPLYs written, before this clock (R8, R117). A
frame that the back buffer was receiving ends uncommitted (R115). The OK bits of both paths and the merge window are cleared with no PATH_LOSS
and no packet counted as of one path only (DESIGN CHOICE, log entry 66). -/
def cnvApplyEffect (m : Mem) (b : Blk) : Blk :=
  let g := stagedSheet b.stagedOr
  let words := cnvStageRegs.map b.stagedOr
  let same := b.fld Reg.CNV_FORMAT 6 4 == g.src
  let b := cnvApplies (b.unstage cnvStageRegs.contains) (b.cnv.applies.filter (fun c => decide (b.now ≤ c)))
  if !g.ok then b.irq Reg.CNV_INT_STATUS 8
  else
    let b := if b.cnv.reOpen then reAbort m b else b
    let b := (b.wrWords Reg.CNV_STAGE_FORMAT words).wrWords Reg.CNV_FORMAT words
    let b := b.wrWords Reg.CNV_PITCH_Y [g.pitchY, g.pitchC, g.frameBytes]
    let b := ((cnvSetBack b 0 0).setFlag Reg.CNV_STATUS 2 false).setFlag Reg.CNV_STATUS 10 false
    let b := (b.setFld Reg.CNV_STATUS 9 8 0).irq Reg.CNV_INT_STATUS 7
    let b := b.setCnv { latchDone := b.cnv.latchDone, lossFrames := b.cnv.lossFrames, lossPart := b.cnv.lossPart
                        backFrame := b.cnv.backFrame, ended := if same then b.cnv.ended else [], applies := b.cnv.applies
                        reOut := b.cnv.reOut, reNext := b.cnv.reNext }
    let b := reShow b
    if cnvIngest b then b else cnvIdle b

/-- A frame boundary of Meridian `m` at the canvas block, entering FRAME value `frame`: apply, switch, loss background and the
counts of frames without a commit or a packet (R93, R102, R108, R111, R112). -/
def cnvBoundary (mem : Mem) (b : Blk) (m frame : Nat) : Blk :=
  if cnvMer b != m then b
  else
    let b := if b.flag Reg.CNV_STATUS 6 && b.flag Reg.CNV_CTRL 7 then b.setFlag Reg.CNV_STATUS 2 false else b
    let b := if b.cnv.applies.any (fun c => decide (c < b.now)) then cnvApplyEffect mem b else b
    let b := cnvEntry b m frame true
    let x := b.cnv
    let b := b.setCnv { x with idleA := if x.busyA then 0 else x.idleA + 1, idleB := if x.busyB then 0 else x.idleB + 1
                               busyA := false, busyB := false }
    if !cnvIngest b then cnvIdle b
    else b.setCnv { b.cnv with lossFrames := if x.lossPart then 0 else x.lossFrames + 1, lossPart := false }

/-- No commit for CNV_LOSS_FRAMES frames while ingest is enabled sets STREAM_LOSS (R112). -/
def streamLoss (b : Blk) : Blk :=
  if cnvIngest b && !b.flag Reg.CNV_STATUS 6 && lossLimit b ≤ b.cnv.lossFrames then
    (b.setFlag Reg.CNV_STATUS 6 true).irq Reg.CNV_INT_STATUS 5
  else b

/-- STREAM_LOSS (R112). -/
def execStreamLoss (s : State) : Result := inDom 4 (onBlk streamLoss) s

/-- A write of CNV_CTRL: ingest stops or restarts, and another Meridian's FRAME value is entered anew (R108, R112). -/
def cnvCtrlWritten (b : Blk) (old : Nat) : Blk :=
  let b := if b.flag Reg.CNV_CTRL 0 then b else b.setCnv { b.cnv with frame := none }
  let b := if cnvIngest b && bit old 0 then b else cnvIdle b
  let m := cnvMer b
  if bits old 4 4 = m then b
  else cnvPlan (b.setCnv { b.cnv with latchDone := false }) (merState b m != 0) (merPos b m).1

/-- CNV_CTRL.CLR_COUNTS clears the canvas counters (R117). -/
def cnvClrCounts (b : Blk) : Blk :=
  (b.zero ((List.range 12).map (fun i => Reg.CNV_COMMIT_COUNT + 4 * i))).zero ((List.range 64).map Reg.CNV_REe_PKTS)

/-- CNV_CLR_COUNTS (R117). -/
def execCnvClrCounts (s : State) : Result := inDom 4 (onBlk cnvClrCounts) s

/-! ### Reading the front (R92, R111) -/

/-- The colour of CNV_BG at the Sheet's depth, by component (R111). -/
def cnvBg (b : Blk) (c : Nat) : Nat := b.fld Reg.CNV_BG (10 * c + 9) (10 * c)

/-- A position in units of 1/8 sample is inside the Sheet (R92). -/
def inSheet (s : Sheet) (x8 y8 : Nat) : Bool :=
  8 * s.x ≤ x8 && x8 < 8 * (s.x + s.w) && 8 * s.y ≤ y8 && y8 < 8 * (s.y + s.h)

end Sys2Proof.Machine
end

