-- ==== Sys2Proof/Machine/Colour.lean ====
section
/-!
DEFINITION. The arithmetic of the Stitch operations on one Stitch (R144 to R160, R168): plain functions of component values.
-/
namespace Sys2Proof.Machine

/-- Full-scale linear light. -/
def lin24 : Nat := 0xFFFFFF

/-- A result as a component: saturated at 0xFFFF_FFFF, a negative one 0 (R144). -/
def comp32 (i : Int) : Nat := sat32 i.toNat

/-- The nearest integer to `n / d` for `d > 0`, a value halfway going up (R144). -/
def roundUp (n d : Int) : Int := (2 * n + d) / (2 * d)

/-! ### CSC (R149) -/

/-- Kr and Kb in units of 10^-4 (Table 6-2): matrix 0 BT.709, 1 BT.2020. -/
def cscK (matrix : Nat) : Int × Int := if matrix = 0 then (2126, 722) else (2627, 593)

/-- The exact formula of R149 for component `k` (0 R', 1 G', 2 B'), rounded, before the clamp. Codes carry 6 fraction bits. -/
def cscExact (mode y cb cr k : Nat) : Int :=
  let kr := (cscK (mode / 2)).1
  let kb := (cscK (mode / 2)).2
  let kg := 10000 - kr - kb
  let narrow := mode % 2 = 1
  let dy : Int := if narrow then 64 * 876 else 64 * 1023
  let dc : Int := if narrow then 64 * 896 else 64 * 1023
  let y' : Int := if narrow then (y : Int) - 4096 else y
  let u : Int := (cb : Int) - 32768
  let v : Int := (cr : Int) - 32768
  if k = 0 then roundUp ((y' * dc * 10000 + 2 * (10000 - kr) * v * dy) * lin24) (dy * dc * 10000)
  else if k = 1 then
    roundUp ((y' * dc * 10000 * kg - 2 * kb * (10000 - kb) * u * dy - 2 * kr * (10000 - kr) * v * dy) * lin24)
      (dy * dc * 10000 * kg)
  else roundUp ((y' * dc * 10000 + 2 * (10000 - kb) * u * dy) * lin24) (dy * dc * 10000)

/-- CSC of one component: within 1 LSB of the exact formula, clamped (R149; log entry 19). -/
def csc (mode y cb cr k : Nat) : Nat :=
  (clampI 0 lin24 (cscExact mode y cb cr k + ((Config.cscErr mode y cb cr k % 3 : Nat) : Int) - 1)).toNat

/-! ### Contours, mixing, gain (R150 to R152) -/

/-- The curve of a Contour `c` at `x` (R150). -/
def contourEval (c : List Nat) (x : Nat) : Nat :=
  let e (i : Nat) : Nat := c.getD i 0 % 2 ^ 24
  if lin24 ≤ x then e 4095
  else
    let s := x * 4095
    let i := s / 2 ^ 24
    let f : Nat := s / 4096 % 4096
    comp32 ((e i : Int) + roundUp (((e (i + 1) : Int) - e i) * f) 4096)

/-- MIX of one component with weight `w`, 65,536 being 1 (R151). -/
def mixEval (a b w : Nat) : Nat := sat32 ((a * (65536 - w) + b * w + 32768) / 65536)

/-- GAIN of one component, unsigned 16.16 (R152). -/
def gainEval (x g : Nat) : Nat := sat32 ((x * g + 32768) / 65536)

/-! ### MAT (R154) -/

/-- Emitter drive before the trim: the exact sum, rounded, not below 0. -/
def matRaw (m0 m1 m2 : Int) (r g b : Nat) : Nat := ((m0 * r + m1 * g + m2 * b + 2048) / 4096).toNat

/-- The trim of SENSOR mode, unsigned 2.14. -/
def matTrim (raw t : Nat) : Nat := (raw * t + 8192) / 16384

/-- The limit a MAX word gives. -/
def matLim (max : Nat) : Nat := max * 256 + max / 256

/-! ### LIMIT and DITHER (R157 to R159) -/

/-- LIMIT of one component with scale `s`, 0x1_0000 being 1. -/
def limitEval (x s : Nat) : Nat := min lin24 ((x * s + 32768) / 65536)

/-- The scale of a budget set: B unsigned 24.8, D unsigned 1.15, demand in units of 2^-24 emitters (R157). -/
def limitScale (bud der demand : Nat) : Nat :=
  if demand = 0 then 65536 else min 65536 (65536 * bud * der * 2 ^ 24 / (2 ^ 23 * demand))

/-- L8(q) ≤ v, decided exactly: L8(q) = round(16,777,215 × (q / 255)^2.2), so both sides go to the fifth power (Table 6-5). -/
def l8Le (q v : Nat) : Bool := 32 * lin24 ^ 5 * q ^ 11 < (2 * v + 1) ^ 5 * 255 ^ 11

/-- The largest code from `q` up, in steps of halving size, with L8 at most `v`. -/
def l8Search (v : Nat) : Nat → Nat → Nat
  | 0, q => q
  | n + 1, q => l8Search v n (if l8Le (q + 2 ^ n) v && q + 2 ^ n ≤ 255 then q + 2 ^ n else q)

/-- The least `v` with L8(q) ≤ v, found in steps of halving size: L8(q). -/
def l8Value (q : Nat) : Nat → Nat → Nat
  | 0, v => v
  | n + 1, v => l8Value q n (if l8Le q (v + 2 ^ n - 1) then v else v + 2 ^ n)

/-- L8(q) (Table 6-5). -/
def l8 (q : Nat) : Nat := l8Value q 24 0

/-- The lower code and the fraction of DITHER: MODE 0 E8, 1 E16, 2 E24 (R159). -/
def ditherSplit (mode v : Nat) : Nat × Nat :=
  let v := min v lin24
  if mode = 0 then
    let q := l8Search v 8 0
    (q, if q = 255 then 0 else 256 * (v - l8 q) / (l8 (q + 1) - l8 q))
  else if mode = 1 then (v / 256, v % 256)
  else (v, 0)

/-- An 8-bit number with its bits reversed. -/
def bitrev8 (n : Nat) : Nat := (List.range 8).foldl (fun a i => 2 * a + n / 2 ^ i % 2) 0

/-- The largest code of an encoding. -/
def codeMax (mode : Nat) : Nat := if mode = 0 then 255 else if mode = 1 then 65535 else lin24

/-- DITHER of component `k` of Stitch `i` in frame `frame` (R159). -/
def ditherEval (mode frame i k v : Nat) : Nat :=
  let q := ditherSplit mode v
  if q.2 > bitrev8 ((frame + 37 * i + 101 * k) % 256) then min (codeMax mode) (q.1 + 1) else q.1

/-- Bytes of an encoding: E8 1, E16 2, E24 3 (Table 6-5). -/
def encBytes (mode : Nat) : Nat := if mode = 0 then 1 else if mode = 1 then 2 else 3

/-- Component number `k` of a value; one past its width is 0. -/
def cmp (v : List Nat) (k : Nat) : Nat := v.getD k 0

/-- PACK: output position k takes the component that w0 [3k+2:3k] names, most significant byte first (R122, R158). -/
def packEval (mode w w0 : Nat) (v : List Nat) : List Nat :=
  (List.range w).flatMap (fun k =>
    (toBE (encBytes mode) (cmp v (bits w0 (3 * k + 2) (3 * k)))).map (·.toNat))

/-! ### Motif waveforms (R168) -/

/-- The scale of the waveforms' exact values. -/
def waveOne : Int := 2 ^ 96
/-- Pi in that scale. -/
def wavePi : Int := 248902613312231085230521944622

/-- The sum of `n` more terms of the cosine series, `x2` being the square of the angle. -/
def cosSum (x2 : Int) : Nat → Nat → Int → Int → Int
  | 0, _, _, acc => acc
  | n + 1, i, t, acc =>
    let t' := -(t * x2 / waveOne) / ((2 * i + 1) * (2 * i + 2) : Nat)
    cosSum x2 n (i + 1) t' (acc + t')

/-- cos 2πp for p = k / 65,536. -/
def cosTurn (k : Nat) : Int :=
  let k := min k (65536 - k)
  let j := min k (32768 - k)
  let x : Int := 2 * wavePi * (j : Int) / 65536
  let c := cosSum (x * x / waveOne) 20 0 waveOne waveOne
  if k ≤ 16384 then c else -c

/-- The sum of `n` more terms of the exponential series. -/
def expSum (y : Int) : Nat → Nat → Int → Int → Int
  | 0, _, _, acc => acc
  | n + 1, i, t, acc =>
    let t' := t * y / waveOne / ((i + 1 : Nat) : Int)
    expSum y n (i + 1) t' (acc + t')

/-- e^y. -/
def expOf (y : Int) : Int := expSum y 32 0 waveOne waveOne

/-- A waveform's weight by its formula, 65,536 being 1, times `waveOne`: WAVE 0 sine, 1 triangle, 2 breath. -/
def waveExact (wave p : Nat) : Int :=
  if wave = 1 then (if p < 32768 then 2 * (p : Int) else 131072 - 2 * (p : Int)) * waveOne
  else if wave = 0 then 32768 * (waveOne - cosTurn p)
  else 65536 * waveOne * (expOf (-cosTurn p) - expOf (-waveOne)) / (expOf waveOne - expOf (-waveOne))

/-- The weight: 0 at p = 0, 1 at p = 0.5, elsewhere a value within 1 LSB of the formula (R168; log entry 19). -/
def waveEval (wave p : Nat) : Nat :=
  if p = 0 then 0 else if p = 32768 then 65536
  else
    let f := waveExact wave p
    let lo := f / waveOne
    if f % waveOne = 0 then (clampI 0 65536 (lo + ((Config.waveErr wave p % 3 : Nat) : Int) - 1)).toNat
    else (clampI 0 65536 (lo + ((Config.waveErr wave p % 2 : Nat) : Int))).toNat

/-- M_k from its endpoints and weight (R168). -/
def motifMix (a b w : Nat) : Nat := comp32 ((a : Int) + roundUp (((b : Int) - a) * w) 65536)

/-! ### SAMPLE (R145, R146) -/

/-- The 10-bit code of the front's plane `p` at Sheet-relative position (`i`, `j`) of the plane's grid, edges repeated. -/
def frontCode (m : Mem) (b : Blk) (p : Nat) (i j : Int) : Nat :=
  let s := cnvSheet b
  let w := if p = 0 then s.w else s.w / 2
  let h := if p = 0 then s.h else s.linesC
  let x := (clampI 0 ((w : Int) - 1) i).toNat
  let y := (clampI 0 ((h : Int) - 1) j).toNat
  let c := s.sample m (cnvFront b) p x y
  if s.ten then c else c * 4

/-- One plane of a SAMPLE: coordinates in 1/16 of the plane's samples, MODE 0 nearest, 1 bilinear, 2 box; the code with 6 fraction
bits. -/
def samplePlane (m : Mem) (b : Blk) (mode p : Nat) (cx cy : Int) : Nat :=
  let s := cnvSheet b
  let ox : Int := if p = 0 then s.x else s.x / 2
  let oy : Int := if p ≠ 0 && s.samp = 0 then s.y / 2 else s.y
  let at_ (i j : Int) : Nat := frontCode m b p (i - ox) (j - oy)
  if mode = 0 then 64 * at_ ((cx + 8) / 16) ((cy + 8) / 16)
  else
    let i := cx / 16
    let j := cy / 16
    if mode = 2 then 16 * (at_ i j + at_ (i + 1) j + at_ i (j + 1) + at_ (i + 1) (j + 1))
    else
      let fx := (cx % 16).toNat
      let fy := (cy % 16).toNat
      ((16 - fx) * (16 - fy) * at_ i j + fx * (16 - fy) * at_ (i + 1) j + (16 - fx) * fy * at_ i (j + 1)
        + fx * fy * at_ (i + 1) (j + 1) + 2) / 4

/-- SAMPLE at a canvas position in units of 1/8 (R146); outside the Sheet, or with FRONT_VALID clear, the background (R92, R111). -/
def sampleEval (m : Mem) (b : Blk) (mode x8 y8 : Nat) : List Nat :=
  let s := cnvSheet b
  if b.flag Reg.CNV_STATUS 2 && inSheet s x8 y8 then
    let cy : Int := if s.samp = 0 then (y8 : Int) - 4 else 2 * (y8 : Int)
    [samplePlane m b mode 0 (2 * (x8 : Int)) (2 * (y8 : Int)), samplePlane m b mode 1 x8 cy, samplePlane m b mode 2 x8 cy]
  else (List.range 3).map (fun c => 64 * (if s.ten then cnvBg b c else cnvBg b c / 4 * 4))

end Sys2Proof.Machine
end

