-- ==== Sys2Proof/Machine/StitchProg.lean ====
section
/-!
DEFINITION. Stitch programs: the binary format (Tables 5-1 to 5-4), the load check of R121, the Atlas entry (Table 6-1) and what a
node computes for each Stitch of its batch (R122 to R124, R144 to R168).
-/
namespace Sys2Proof.Machine

/-! ### The binary format -/

/-- The address of program buffer `i` (R120, STC_PROG_STAGE.BUF). -/
def progBase (i : Nat) : Nat := 0x10C00000 + 0x8000 * (i % 2)

/-- A little-endian word of memory. -/
def w32 (m : Mem) (a : Nat) : Nat := Mem.le m a 4

/-- NODE_COUNT. -/
def progNodes (m : Mem) (p : Nat) : Nat := Mem.le m (progBase p + 6) 2
/-- PROGRAM_ID. -/
def progId (m : Mem) (p : Nat) : Nat := w32 m (progBase p + 8)
/-- LENGTH. -/
def progLen (m : Mem) (p : Nat) : Nat := w32 m (progBase p + 12)
/-- RUN_TABLE. -/
def progRuns (m : Mem) (p : Nat) : Nat := w32 m (progBase p + 16)
/-- RUN_COUNT. -/
def progRunCount (m : Mem) (p : Nat) : Nat := Mem.le m (progBase p + 20) 2
/-- The Contour that CONTOUR_MAP loads into slot `k`, none where the slot is empty. -/
def progContour (m : Mem) (p k : Nat) : Option Nat :=
  let c := Mem.le m (progBase p + 24 + k) 1
  if c < 16 then some c else none

/-- A node entry (Table 5-3). -/
structure PNode where
  op : Nat
  sub : Nat
  subHi : Nat
  a : Nat
  b : Nat
  width : Nat
  mode : Nat
  ofs : Nat
  len : Nat
  resv : Nat
  /-- The words of its parameter block. -/
  words : List Nat
  deriving DecidableEq, Repr

/-- Node `i` of program buffer `p`. -/
def pnode (m : Mem) (p i : Nat) : PNode :=
  let e := progBase p + 64 + 16 * i
  let f (o k : Nat) : Nat := Mem.le m (e + o) k
  let ofs := f 6 2
  let len := f 8 2
  { op := f 0 1, sub := f 1 1 % 16, subHi := f 1 1 / 16, a := f 2 1, b := f 3 1, width := f 4 1, mode := f 5 1, ofs, len
    resv := f 10 6, words := (List.range (min len 8)).map (fun k => w32 m (progBase p + 4 * ofs + 4 * k)) }

/-- Word `k` of the parameter block. -/
def PNode.word (n : PNode) (k : Nat) : Nat := n.words.getD k 0

/-- A run table entry (Table 5-1). -/
structure PRun where
  first : Nat
  count : Nat
  row : Nat
  prio : Nat
  mer : Nat
  flow : Nat
  sub : Nat
  deadline : Nat
  /-- Every reserved bit is 0. -/
  clean : Bool
  deriving DecidableEq, Repr

/-- Entry `i` of the run table of program buffer `p`. -/
def prun (m : Mem) (p i : Nat) : PRun :=
  let e := progRuns m p + 16 * i
  let f (o k : Nat) : Nat := Mem.le m (e + o) k
  { first := f 0 4 % 2 ^ 18, count := f 4 2, row := f 6 1, prio := f 7 1 % 4, mer := f 7 1 / 128, flow := f 8 2 % 1024
    sub := f 10 1, deadline := f 12 2
    clean := f 0 4 < 2 ^ 18 && bits (f 7 1) 6 2 == 0 && f 8 2 < 1024 && f 10 1 < 16 && f 11 1 == 0 && f 14 2 == 0 }

/-! ### The load check (R121) -/

/-- The CRC of the image, its CRC field taken as 0. -/
def progCrcOk (m : Mem) (p : Nat) : Bool :=
  let b := progBase p
  let len := progLen m p
  crc32 (Mem.bytes m b 28 ++ toLE 4 0 ++ Mem.bytes m (b + 32) (len - 32)) == w32 m (b + 28)

/-- The largest MODE that Table 5-4 defines for an OPCODE; none for an OPCODE it does not define. -/
def opModes (op : Nat) : Option Nat :=
  match op with
  | 1 => some 2 | 2 => some 3 | 3 => some 3 | 4 => some 1 | 5 => some 0 | 6 => some 0 | 7 => some 1
  | 8 => some 0 | 9 => some 1 | 10 => some 2 | 11 => some 2 | 12 => some 2 | 13 => some 1 | _ => none

/-- The inputs of Table 5-4: A and B as 0 none, 1 required, 2 optional. -/
def opInputs (op : Nat) : Nat × Nat :=
  match op with
  | 1 => (0, 0) | 13 => (0, 0) | 4 => (1, 1) | 5 => (2, 0) | _ => (1, 0)

/-- The length of the parameter block (Table 5-4). -/
def opWords (n : PNode) : Nat :=
  match n.op with
  | 4 => 1 | 5 => 1 | 7 => if n.mode = 0 then 1 else n.width | 8 => 1 | 9 => 1 | 11 => 1
  | 12 => if n.mode = 0 then 2 else if n.mode = 1 then 0 else 1
  | 13 => 1 | _ => 0

/-- An input as 0x06 requires it of node `i`: present or absent, lower, in the same subgraph. -/
def inputOk (m : Mem) (p i sub need x : Nat) : Bool :=
  if x = 0xFF then need != 1 else need != 0 && x < i && (pnode m p x).sub == sub

/-- Widths agree (0x07); only EMIT takes what PACK gives, and EMIT gives no value. -/
def widthOk (m : Mem) (p : Nat) (n : PNode) : Bool :=
  let wa := (pnode m p n.a).width
  let wb := (pnode m p n.b).width
  let w := n.width
  let small := 1 ≤ w && w ≤ 8
  let plain (x : Nat) : Bool := x == 0xFF || ((pnode m p x).op != 11 && (pnode m p x).op != 12)
  (n.op == 12 || (plain n.a && plain n.b)) && match n.op with
  | 1 => w == 3
  | 2 => w == 3 && wa == 3
  | 3 => w == 3 && wa == 3
  | 4 => small && wa == w && wb == w
  | 5 => small && (n.a == 0xFF || wa == w)
  | 6 => small && wa == 3
  | 11 =>
    let e := encBytes n.mode
    wa ≤ 8 && w == wa * e && (List.range wa).all (fun k => decide (bits (n.word 0) (3 * k + 2) (3 * k) < wa))
      && n.word 0 < 2 ^ (3 * wa)
  | 12 => (pnode m p n.a).op == 11
  | 13 => small
  | _ => small && wa == w

/-- Parameter blocks (0x08). -/
def paramsOk (len : Nat) (n : PNode) : Bool :=
  n.len == opWords n && (n.len == 0 || (n.ofs != 0 && 4 * (n.ofs + n.len) ≤ len))
    && (n.op != 8 || n.word 0 ≤ 47)

/-- The last node of its subgraph that consumes node `j`, or `j` itself. -/
def lastUse (m : Mem) (p count j : Nat) : Nat :=
  (List.range count).foldl (fun l i =>
    let n := pnode m p i
    if (opInputs n.op).1 != 0 && n.a = j || (opInputs n.op).2 != 0 && n.b = j then max l i else l) j

/-- At node `i` at most 16 values of its subgraph are live (0x09). -/
def liveOk (m : Mem) (p count i : Nat) : Bool :=
  let s := (pnode m p i).sub
  ((List.range (i + 1)).filter (fun j =>
    let n := pnode m p j
    n.sub == s && n.op != 12 && i ≤ lastUse m p count j)).length ≤ 16

/-- The Contour slots a node names (0x0A). -/
def slotsOf (n : PNode) : List Nat :=
  if n.op = 3 then [n.mode % 4]
  else if n.op = 9 then
    if n.mode = 0 then [n.word 0 % 4] else (List.range n.width).map (fun k => bits (n.word 0) (2 * k + 1) (2 * k))
  else []

/-- The checks 0x05 to 0x0A of node `i`. -/
def nodeOk (m : Mem) (p count check i : Nat) : Bool :=
  let n := pnode m p i
  match check with
  | 5 => (match opModes n.op with | some k => n.mode ≤ k | none => false) && n.subHi == 0 && n.resv == 0
  | 6 => inputOk m p i n.sub (opInputs n.op).1 n.a && inputOk m p i n.sub (opInputs n.op).2 n.b
  | 7 => widthOk m p n
  | 8 => paramsOk (progLen m p) n
  | 9 => liveOk m p count i
  | _ => (slotsOf n).all (fun k => (progContour m p k).isSome)

/-- A run passes 0x0C. -/
def runOk (m : Mem) (p : Nat) (r : PRun) : Bool :=
  r.clean && 1 ≤ r.count && r.first + r.count ≤ 262144
    && (List.range (progNodes m p)).any (fun i => (pnode m p i).sub == r.sub)

/-- The first check that fails, with ERR_NODE; none where the image passes (R121). `canvasOn` is the CANVAS domain's power. -/
def progCheck (m : Mem) (p words : Nat) (canvasOn : Bool) : Option (Nat × Nat) :=
  let b := progBase p
  let len := progLen m p
  let count := progNodes m p
  let flags := Mem.le m (b + 22) 2
  let hdr := flags < 2 && Mem.le m (b + 32) 32 == 0
  let nodeFail (c : Nat) : Option (Nat × Nat) :=
    ((List.range count).find? (fun i => !nodeOk m p count c i)).map (fun i => (c, i))
  let sample := (List.range count).any (fun i => (pnode m p i).op == 1)
  let runs := progRuns m p
  let rc := progRunCount m p
  if w32 m b ≠ 0x5C117740 || Mem.le m (b + 4) 2 ≠ 1 then some (1, 0)
  else if words < 16 || 8192 < words || len < 64 || 32768 < len || 4 * words < len then some (2, 0)
  else if !progCrcOk m p then some (3, 0)
  else if count < 1 || 256 < count || len < 64 + 16 * count then some (4, 0)
  else if !hdr then some (5, 0)
  else
    (nodeFail 5).orElse fun _ => (nodeFail 6).orElse fun _ => (nodeFail 7).orElse fun _ => (nodeFail 8).orElse fun _ =>
    (nodeFail 9).orElse fun _ => (nodeFail 10).orElse fun _ =>
    if runs % 16 ≠ 0 || runs < 0x10C54000 || rc < 1 || 4096 < rc || 0x10E00000 < runs + 16 * rc then some (11, 0)
    else if !(List.range rc).all (fun i => runOk m p (prun m p i)) then some (12, 0)
    else if (flags == 1) != sample || (sample && !canvasOn) then some (13, 0)
    else none

/-! ### The Atlas (R19, R147) -/

/-- The address of Atlas block `k`: 0 to 63 in the Atlas area, 64 and 65 the spares (R18, R19). -/
def atlasBlock (k : Nat) : Nat := if k < 64 then 0x10000000 + 0x10000 * k else 0x10E80000 + 0x10000 * (k - 64)

/-- The address of Stitch `i`'s Atlas entry through a region table: region k starts in block k. -/
def atlasAddr (t : Tab Nat) (i : Nat) : Nat := atlasBlock (Tab.get id t (i / 4096)) + 16 * (i % 4096)

/-- The fields of an Atlas entry (Table 6-1). -/
structure AtlasEntry where
  x : Nat
  y : Nat
  port : Nat
  emitters : Nat
  calset : Nat
  groups : Nat
  order : Nat
  tgroup : Nat
  trim : Bool
  mute : Bool
  deriving DecidableEq, Repr

/-- The entry at address `a`; PORT 48 to 62 acts as 63. -/
def atlasEntry (m : Mem) (a : Nat) : AtlasEntry :=
  let port := Mem.le m (a + 4) 1 % 64
  let flags := w32 m (a + 12)
  { x := Mem.le m a 2, y := Mem.le m (a + 2) 2, port := if 48 ≤ port then 63 else port, emitters := Mem.le m (a + 7) 1 % 8 + 1
    calset := Mem.le m (a + 8) 2, groups := Mem.le m (a + 10) 2, order := flags % 65536, tgroup := bits flags 20 16
    trim := bit flags 21, mute := bit flags 22 }

/-! ### What a node computes -/

/-- Parameter `i` as nodes that dispatch in this clock see it: a NOW write is for those of the next clock on (R133). -/
def paramSeen (b : Blk) (i : Nat) : Nat :=
  ((if b.stc.params.clock = b.now then Tab.at none b.stc.params.was i else none)).getD (b.rdN (Reg.STC_PARAM_i i))

/-- A dyn word: a constant, or the parameter in effect (R123). -/
def dynWord (b : Blk) (w : Nat) : Nat := if bit w 31 then paramSeen b (w % 1024) else w

/-- Coefficient `c` of emitter `e` of calibration set `s`, signed s3.12 (Table 6-3). -/
def calM (m : Mem) (s e c : Nat) : Int := sx 16 (Mem.le m (0x10400000 + 64 * s + 6 * e + 2 * c) 2)

/-- MAX of emitter `e` (Table 6-3). -/
def calMax (m : Mem) (s e : Nat) : Nat := Mem.le m (0x10400000 + 64 * s + 48 + 2 * e) 2

/-- Emitter `e` of a Stitch before the trim (R154). -/
def matUntrimmed (m : Mem) (x : AtlasEntry) (v : List Nat) (e : Nat) : Nat :=
  matRaw (calM m x.calset e 0) (calM m x.calset e 1) (calM m x.calset e 2) (cmp v 0) (cmp v 1) (cmp v 2)

/-- MAT of emitter `e` (R154, R155). -/
def matEval (m : Mem) (snap : FrameSnap) (x : AtlasEntry) (v : List Nat) (e : Nat) : Nat :=
  if x.emitters ≤ e then 0
  else
    let raw := matUntrimmed m x v e
    let ts := Tab.at [] snap.trims x.tgroup
    let raw := if x.trim && !ts.isEmpty then matTrim raw (ts.getD e 0) else raw
    sat32 (min raw (matLim (calMax m x.calset e)))

/-- The address of configuration page `pg` of Motif engine `e` (R166). -/
def motifPage (e pg : Nat) : Nat := 0x10C50000 + 256 * e + 128 * pg

/-- The key of a Stitch's phase offset (R168); SPREAD_SRC 5 to 7 acts as 4 (log entry 20). -/
def motifKey (src i : Nat) (x : AtlasEntry) : Nat :=
  match src with
  | 0 => 0 | 1 => i | 2 => x.x / 8 | 3 => x.y / 8 | _ => x.order

/-- The weight w of Motif engine `e` for Stitch `i` (R168). -/
def motifWeight (m : Mem) (snap : FrameSnap) (e i : Nat) (x : AtlasEntry) : Nat :=
  let s := Tab.at (0, 0, 0) snap.motifs e
  let p := motifPage e s.2.2
  let ctrl := w32 m p
  let per := w32 m (p + 8)
  let o := motifKey (bits ctrl 4 2) i x * w32 m (p + 12) / 256
  if ctrl % 4 = 3 then
    let l := Mem.le m (p + 96 + 2 * ((s.2.1 + o) % (bits ctrl 11 8 + 1))) 2
    l + l / 32768
  else waveEval (ctrl % 4) (if per = 0 then 0 else (s.1 + o) % per * 65536 / per)

/-- MOTIF of component `k` (R168, Table 5-4): `a` is input A, none where it is absent. -/
def motifEval (m : Mem) (snap : FrameSnap) (e i : Nat) (x : AtlasEntry) (a : Option (List Nat)) (k : Nat) : Nat :=
  let s := Tab.at (0, 0, 0) snap.motifs e
  let p := motifPage e s.2.2
  if Mem.le m (p + 4) 2 &&& x.groups = 0 then (match a with | some v => cmp v k | none => 0)
  else
    let v := motifMix (w32 m (p + 32 + 4 * k)) (w32 m (p + 64 + 4 * k)) (motifWeight m snap e i x)
    match a with
    | some u => if bit (w32 m p) 5 then sat32 ((cmp u k * v + 2 ^ 23) / 2 ^ 24) else v
    | none => v

/-- Where bank `k` of E1.31 receive universe `u` lies (R222). -/
def e131BankAt (b : Blk) (u k : Nat) : Nat := b.rdN Reg.E131_RX_BASE / 1024 * 1024 + 1024 * u + 512 * k

/-- Slot `s` (from 0) of E1.31 receive universe `u` in the bank that its frame presents (R122, R222). -/
def e131Slot (m : Mem) (b : Blk) (banks : Tab Nat) (u s : Nat) : Nat :=
  if s < 512 then (Mem.byte m (e131BankAt b u (Tab.at 0 banks u) + s)).toNat
  else Config.e131Past u s % 256

/-- E131IN of component `k` (R122, R160): MODE 0 8-bit slots, 1 slot pairs, coarse first. -/
def e131In (m : Mem) (b : Blk) (banks : Tab Nat) (mode w0 : Nat) (x : AtlasEntry) (k : Nat) : Nat :=
  let u := w0 % 1024 + x.y / 8
  let s := x.x / 8
  if mode = 0 then e131Slot m b banks u (s + k) * 0x010101
  else
    let v := e131Slot m b banks u (s + 2 * k) * 256 + e131Slot m b banks u (s + 2 * k + 1)
    v * 256 + v / 256

/-- The lane's Contour slot `k` for a batch. -/
def laneContour (b : Blk) (bank k : Nat) : List Nat := (Tab.at none b.stc.contours (4 * bank + k)).getD []

/-- The value of node `n` of batch `t` for its Stitch number `j`, from the values of its inputs (Table 5-4). -/
def stitchEval (m : Mem) (b : Blk) (t : Batch) (n : PNode) (j : Nat) : List Nat :=
  let i := t.first + j
  let x := atlasEntry m (atlasAddr t.regions i)
  let va := (Tab.at [] t.values n.a).getD j []
  let vb := (Tab.at [] t.values n.b).getD j []
  let each (f : Nat → Nat) : List Nat := (List.range n.width).map f
  match n.op with
  | 1 => sampleEval m b n.mode x.x x.y
  | 2 => each (fun k => csc n.mode (cmp va 0) (cmp va 1) (cmp va 2) k)
  | 3 => each (fun k => contourEval (laneContour b t.bank (n.mode % 4)) (cmp va k))
  | 4 =>
    let w := if n.mode = 0 then min 65536 (dynWord b (n.word 0) % 2 ^ 17)
      else
        let v := Mem.le m (n.word 0 + 2 * i) 2
        v + v / 32768
    each (fun k => mixEval (cmp va k) (cmp vb k) w)
  | 5 => each (motifEval m t.snap (n.word 0 % 64) i x (if n.a = 0xFF then none else some va))
  | 6 => each (matEval m t.snap x va)
  | 7 => each (fun k => gainEval (cmp va k) (dynWord b (n.word (if n.mode = 0 then 0 else k))))
  | 8 => each (fun k => limitEval (cmp va k) (Tab.at 65536 t.snap.scales (n.word 0 % 64)))
  | 9 => each (fun k => contourEval (laneContour b t.bank (bits (n.word 0) (2 * (if n.mode = 0 then 0 else k) + 1)
      (2 * (if n.mode = 0 then 0 else k)))) (cmp va k))
  | 10 => each (fun k => ditherEval n.mode t.frame i k (cmp va k))
  | 11 => packEval n.mode (n.width / encBytes n.mode) (n.word 0) va
  | 13 => each (e131In m b t.snap.banks n.mode (n.word 0) x)
  | _ => []

/-- The values of node `n` for every Stitch of batch `t`. -/
def nodeEval (m : Mem) (b : Blk) (t : Batch) (n : PNode) : List (List Nat) :=
  (List.range t.count).map (stitchEval m b t n)

/-- Compute clocks of a node per batch (Table 5-4). -/
def computeClocks (n : PNode) : Nat :=
  match n.op with
  | 1 => if n.mode = 0 then 24 else 96
  | 2 => 72
  | 3 => 48
  | 4 => 16 * n.width + (if n.mode = 1 then 8 else 0)
  | 5 => 64 + 16 * n.width
  | 6 => 32 * n.width
  | 7 => 8 * n.width
  | 8 => 16 * n.width
  | 9 => 16 * n.width
  | 10 => 16 * n.width
  | 11 => 8 * (n.width / encBytes n.mode)
  | 12 => 8
  | 13 => 8 * n.width
  | _ => 0

end Sys2Proof.Machine
end

