-- ==== Sys2Proof/Machine/Waypoint.lean ====
section
/-!
DEFINITION. The Waypoint table (R80, R81, R83, R84) and the event pins (R85, R86). Firing an entry reaches many blocks and is in
MerEvents.lean.
-/
namespace Sys2Proof.Machine

/-! ### The table -/

/-- An entry that can be armed (R81): FPHASE below FDIV where it is periodic, TICK inside the frame, a defined ACTION. -/
def wptOk (b : Blk) (w : Waypoint) : Bool :=
  (w.period = 0 || w.fphase < w.fdiv) && w.tick < merTpf b w.mer && 1 ≤ w.action && w.action ≤ 0x0B

/-- The position at which an entry fires next. -/
def wptPos (b : Blk) (w : Waypoint) : Nat × Nat :=
  if w.period = 0 then (w.w0, w.sub) else wptNext b w

/-- A one-shot entry whose position is past (R59). -/
def wptPast (b : Blk) (w : Waypoint) : Bool :=
  w.period = 0 && decide (posDiff (merTpf16 b w.mer) (w.w0, w.sub) (merPos b w.mer) < 0)

/-- A pin entry armed less than 128 ns before its instant (R83). -/
def wptPinLate (b : Blk) (w : Waypoint) : Bool :=
  w.action = 5 && merOn b w.mer
    && decide (merInstant b w.mer (wptPos b w) - merTime b w.mer < (128 * nsUnit : Nat))

/-- A STRAND_LATCH entry armed less than two Rows and the lead of a port in its mask before its instant (R191; log entry 65). -/
def wptLatchLate (b : Blk) (w : Waypoint) : Bool :=
  let leads := ((List.range 32).filter (bit w.w3)).map (fun n => b.rdN (Reg.STR_n_LEAD n))
  let ahead : Int := (2 * merRowLen b w.mer * 65536 * merPeriod b w.mer + leads.foldl max 0 * 2 ^ 46 : Nat)
  w.action = 3 && merOn b w.mer && !leads.isEmpty
    && decide (merInstant b w.mer (wptPos b w) - merTime b w.mer < ahead)

/-- The instance of an entry that is due and has not been dealt with (R82): one that the running position is at or past; for a pin action,
which is converted 128 ns ahead, the next one where it is that near. -/
def wptReached (b : Blk) (w : Waypoint) : Option (Nat × Nat) :=
  let near (p : Nat × Nat) : Bool := w.action = 5 && decide (merInstant b w.mer p ≤ merTime b w.mer + (128 * nsUnit : Nat))
  if !w.armed || !b.flag Reg.WPT_CTRL 0 || !merOn b w.mer then none
  else if w.period = 0 then
    if near (w.w0, w.sub) || decide (posDiff (merTpf16 b w.mer) (w.w0, w.sub) (merPos b w.mer) ≤ 0) then some (w.w0, w.sub) else none
  else
    let p := if near (wptNext b w) then wptNext b w else wptLast b w true
    if w.done = some p || merTpf16 b w.mer ≤ p.2 then none else some p

/-- The fabric clock in which the instance at `p` fell due: the first one at or past it, or 128 ns before it for a pin action. -/
def wptClock (b : Blk) (w : Waypoint) (p : Nat × Nat) : Nat :=
  let at' : Int := merInstant b w.mer p - (if w.action = 5 then 128 * nsUnit else 0 : Nat)
  b.now - ((merTime b w.mer - at') / nsUnit).toNat

/-- An entry leaves the table at a CANCEL or a WRITE; it still fires where it falls due in this clock (R84). -/
def wptTakeOut (i : Nat) (b : Blk) : Blk :=
  let kept := b.wptGone.filter (fun g => g.clock == b.now && g.index != i)
  { b with
    wptDue := b.wptDue.filter (fun d => d.index != i)
    wptGone := match b.wpt i with
      | some w => kept ++ [{ clock := b.now, index := i, entry := w }]
      | none => kept }

/-- FULL is set when the count of valid entries reaches 1,024 (R80). -/
def wptFull (b : Blk) (before : Nat) : Blk :=
  if before < 1024 && b.wpts.length = 1024 then b.irq Reg.WPT_INT_STATUS 3 else b

/-- WPT_CMD WRITE (R80): the entry already there is cancelled, the new one waits to be armed, BUSY is set. -/
def wptWrite (b : Blk) : Blk :=
  let i := b.fld Reg.WPT_INDEX 9 0
  let w : Waypoint := { w0 := b.rdN (Reg.WPT_ENTRYx 0), w1 := b.rdN (Reg.WPT_ENTRYx 1), w2 := b.rdN (Reg.WPT_ENTRYx 2) % 2 ^ 27,
                        w3 := b.rdN (Reg.WPT_ENTRYx 3) }
  let n := b.wpts.length
  let b := { wptTakeOut i b with wptBusy := b.wptBusy.erase i ++ [i] }
  if bit w.w2 24 then wptFull ((b.setWpt i (some w)).setFlag Reg.WPT_STATUS 16 true) n
  else (b.setWpt i none).setFlag Reg.WPT_STATUS 16 true

/-- WPT_WRITE (R80). -/
def execWptWrite (s : State) : Result := inDom 2 (onBlk wptWrite) s

/-- WPT_CMD READ: the entry's words go to WPT_ENTRY0 to 3; an invalid entry reads 0 (R80). -/
def wptRead (b : Blk) : Blk :=
  let w := (b.wpt (b.fld Reg.WPT_INDEX 9 0)).getD {}
  b.wrWords (Reg.WPT_ENTRYx 0) [w.w0, w.w1, w.w2, w.w3]

/-- WPT_READ (R80). -/
def execWptRead (s : State) : Result := inDom 2 (onBlk wptRead) s

/-- Entry `i` is invalidated (R84). -/
def wptCancelAt (i : Nat) (b : Blk) : Blk := (wptTakeOut i b).setWpt i none
/-- The entry in WPT_INDEX. -/
def wptCancel (b : Blk) : Blk := wptCancelAt (b.fld Reg.WPT_INDEX 9 0) b

/-- WPT_CANCEL (R84). -/
def execWptCancel (s : State) : Result := inDom 2 (onBlk wptCancel) s

/-- CLEAR_ALL invalidates every entry (Table 3-16). -/
def wptClearAll (b : Blk) : Blk := { b with wpts := [], wptDue := [], wptGone := [] }.setFld Reg.WPT_STATUS 10 0 0

/-- WPT_CLEAR_ALL (R90). -/
def execWptClearAll (s : State) : Result := inDom 2 (onBlk wptClearAll) s

/-- Entry `i`, which a WRITE has left to be armed, is armed (R80, R81, R83): one that cannot be sets MISSED and is counted; a periodic one
starts from its next instance; a late one follows R83 once entries fire at all, and of a periodic one the next instance is then dealt with. -/
def wptArm (i : Nat) (b : Blk) : Blk :=
  match b.wpt i with
  | none => b
  | some w =>
    if !wptOk b w then (b.irq Reg.WPT_INT_STATUS 0).count Reg.WPT_MISSED_COUNT
    else
      let w := wptFrom b { w with armed := true }
      if !b.flag Reg.WPT_CTRL 0 then b.setWpt i (some w)
      else if wptPast b w then wptLate b i w
      else if wptPinLate b w || wptLatchLate b w then
        wptLate b i (if w.period = 0 then w else { w with done := some (wptPos b w) })
      else b.setWpt i (some w)

/-- An entry that a WRITE has left is armed, and BUSY clears with the last of them (R80); there is no other arming. -/
def waypointArmed (i : Nat) (b : Blk) : Blk :=
  if b.wptBusy.contains i then
    let rest := b.wptBusy.erase i
    wptArm i ({ b with wptBusy := rest }.setFlag Reg.WPT_STATUS 16 (!rest.isEmpty))
  else b

/-- WAYPOINT_ARMED (R80). -/
def execWaypointArmed (index : Fin 1024) (s : State) : Result := inDom 2 (onBlk (waypointArmed index)) s

/-- A write of WPT_CTRL sets EN: one-shot entries whose position passed are late, periodic ones go on from here (R80). -/
def wptCtrlWritten (b : Blk) (old : Nat) : Blk :=
  if b.flag Reg.WPT_CTRL 0 && !bit old 0 then
    let b := wptRebase (wptRebase b 0) 1
    b.wpts.foldl (fun b e =>
      match e.2 with
      | some w => if w.armed && wptPast b w && !wptWaits b e.1 then wptLate b e.1 w else b
      | none => b) b
  else b

/-! ### Pins -/

/-- MODE of EVT_OUTk: 1 WAYPOINT, 2 PASS on EVT_OUT0 alone, everything else LOW (R85). -/
def evtMode (b : Blk) (k : Nat) : Nat :=
  let v := b.fld (Reg.EVT_OUTk_CTRL k) 1 0
  if v = 1 then 1 else if v = 2 && k = 0 then 2 else 0

/-- The level of pin `k` before POL. -/
def Blk.evtLvl (b : Blk) (k : Nat) : Bool := Tab.at false b.evtLevel k

/-- The level of the pin EVT_OUTk: POL inverts it in WAYPOINT and PASS, LOW holds it low (R85). -/
def evtShown (b : Blk) (k : Nat) : Bool :=
  let pol := b.flag (Reg.EVT_OUTk_CTRL k) 2
  match evtMode b k with
  | 1 => b.evtLvl k != pol
  | 2 => b.evtIn0 != pol
  | _ => false

/-- The pin EVT_OUTk follows; an edge counts and leaves the block as `o` of the new level (R85). -/
def evtSettle (b : Blk) (k : Nat) (o : Bool → Output) : Blk :=
  let l := evtShown b k
  if Tab.at false b.evtPin k = l then b
  else ({ b with evtPin := Tab.upd false b.evtPin k l }.emit (o l)).count (Reg.EVT_OUTk_COUNT k)

/-- WIDTH of an EVT_OUT or PPS_OUT control register in ns, at least 4 (R85). -/
def evtWidth (b : Blk) (a : Nat) : Nat := max 4 (b.fld a 31 8)

/-- Pin `k` takes a level before POL, with the clock at which its pulse ends, if it is one. -/
def evtLevelSet (b : Blk) (k : Nat) (l : Bool) (pulse : Option Nat) : Blk :=
  { b with evtLevel := Tab.upd false b.evtLevel k l, evtPulse := Tab.upd none b.evtPulse k pulse }

/-- The queue of pin actions with `x` in its place. -/
def evtInsert (x : PinAction) : List PinAction → List PinAction
  | [] => [x]
  | y :: r => if x.slot < y.slot || (x.slot = y.slot && x.index < y.index) then x :: y :: r else y :: evtInsert x r

/-- An EVT_OUT action of entry `i` at position `p` (Table 3-8): dropped unless the pin is in WAYPOINT mode, else converted to an edge at
its instant, or 3.0 ns after this clock where it is late (R82, R83, R85). -/
def evtAction (b : Blk) (i : Nat) (w : Waypoint) (p : Nat × Nat) : Blk :=
  let k := bits w.w3 2 0
  if evtMode b k = 1 then
    let t := if w.late then merTime b w.mer + 3 * nsUnit else merInstant b w.mer p
    { b with evtQueue := evtInsert { pin := k, kind := bits w.w3 5 4, index := i, tb := merTbSel b w.mer, slot := roundDiv t (2 ^ 46) }
                           b.evtQueue }
  else b

/-- The level that set, clear and toggle actions lead to, in order. -/
def evtLevelOf : Bool → List PinAction → Bool
  | l, [] => l
  | l, x :: r => evtLevelOf (if x.kind = 1 then true else if x.kind = 2 then false else !l) r

/-- The actions of the oldest 250 ps slot of pin `k` land. Pulses take the pin high, until WIDTH later; where the slot also holds set,
clear or toggle actions, these give the level, in entry-index order (R85; log entry 63). -/
def evtPinEdge (k : Nat) (b : Blk) : Blk :=
  match b.evtQueue.find? (fun e => e.pin == k) with
  | none => b
  | some e =>
    let same (x : PinAction) : Bool := x.pin == k && x.tb == e.tb && x.slot == e.slot
    let slot := b.evtQueue.filter same
    let b := { b with evtQueue := b.evtQueue.filter (fun x => !same x) }
    if evtMode b k != 1 then b
    else
      let acts := slot.filter (fun x => x.kind != 0)
      let b := if acts.isEmpty then evtLevelSet b k true (some (b.now + evtWidth b (Reg.EVT_OUTk_CTRL k)))
        else evtLevelSet b k (evtLevelOf (b.evtLvl k) acts) none
      evtSettle b k (fun l => .pinAt (.evtOut k) l e.tb e.slot)

/-- EVT_PIN_EDGE (R82). -/
def execEvtPinEdge (k : Fin 8) (s : State) : Result := inDom 2 (onBlk (evtPinEdge k)) s

/-- A pulse that runs ends WIDTH after its last start: the pin falls (R85). Before that, and without a pulse, there is no such event. -/
def evtOutPulseEnd (k : Nat) (b : Blk) : Blk :=
  match Tab.at none b.evtPulse k with
  | some t => if t ≤ b.now then evtSettle (evtLevelSet b k false none) k (.pin (.evtOut k)) else b
  | none => b

/-- EVT_OUT_PULSE_END (R85). -/
def execEvtOutPulseEnd (k : Fin 8) (s : State) : Result := inDom 2 (onBlk (evtOutPulseEnd k)) s

/-- PPS_OUT rises at a whole second of an enabled time base, and falls WIDTH later (R85). -/
def ppsOutEdge (rising : Bool) (b : Blk) : Blk :=
  let n := b.fld Reg.EVT_PPS_CTRL 2 1
  if rising then
    if !b.flag Reg.EVT_PPS_CTRL 0 || tbState b n = 0 then b
    else
      let b' := { b with ppsLevel := true, ppsEnd := some (b.now + evtWidth b Reg.EVT_PPS_CTRL) }
      if b.ppsLevel then b' else b'.emit (.pinAt .ppsOut true n (roundDiv (b.tb n).time secUnit * (4 * 10 ^ 9)))
  else match b.ppsEnd with
    | some t => if t ≤ b.now then { b with ppsLevel := false, ppsEnd := none }.emit (.pin .ppsOut false) else b
    | none => b

/-- PPS_OUT_EDGE (R85). -/
def execPpsOutEdge (rising : Bool) (s : State) : Result := inDom 2 (onBlk (ppsOutEdge rising)) s

/-- The pin EVT_IN0 takes a level; in PASS mode EVT_OUT0 copies it, inverted by POL (R85). -/
def evtPassEdge (rising : Bool) (b : Blk) : Blk := evtSettle { b with evtIn0 := rising } 0 (.pin (.evtOut 0))

/-- EVT_PASS_EDGE (R85). -/
def execEvtPassEdge (rising : Bool) (s : State) : Result := inDom 2 (onBlk (evtPassEdge rising)) s

/-- A write of EVT_OUTk_CTRL: outside WAYPOINT mode no action holds a level, and the pin follows MODE and POL (R85). -/
def evtCtrlWritten (b : Blk) (k : Nat) : Blk :=
  evtSettle (if evtMode b k = 1 then b else evtLevelSet b k false none) k (.pin (.evtOut k))

/-- The event pins go low, MER being off or in reset (R85). -/
def evtDown (b : Blk) : Blk :=
  let b := (List.range 8).foldl (fun b k => if Tab.at false b.evtPin k then b.emit (.pin (.evtOut k) false) else b) b
  let b := if b.ppsLevel then b.emit (.pin .ppsOut false) else b
  { b with evtQueue := [], evtLevel := [], evtPin := [], evtPulse := [], ppsLevel := false, ppsEnd := none }

/-- The queue of EVT_INj. -/
def Blk.evtInQ (b : Blk) (j : Nat) : List EvtCapture := Tab.at [] b.evtIn j

/-- The queue of EVT_INj takes `q`; LEVEL follows (Table 3-16). -/
def Blk.setEvtInQ (b : Blk) (j : Nat) (q : List EvtCapture) : Blk :=
  { b with evtIn := Tab.upd [] b.evtIn j q }.setFld (Reg.EVT_INj_STATUS j) 3 0 q.length

/-- The words F0 to F5 of a capture now (Table 3-9). -/
def evtWords (b : Blk) (j quarter : Nat) (rising : Bool) : List Nat :=
  let p := tbParts (stampNow b (b.fld (Reg.EVT_INj_CTRL j) 4 3) quarter)
  let pos := merPos b (b.fld (Reg.EVT_INj_CTRL j) 5 5)
  [p.2.2 * 2 ^ 16 + (if rising then 0 else 2) + 1, p.2.1, p.1 % 2 ^ 32, p.1 / 2 ^ 32, pos.2, pos.1]

/-- The captures that the queue of EVT_INj has lost in this clock. -/
def Blk.evtLosses (b : Blk) (j : Nat) : Option EvtLost := (Tab.at none b.evtLost j).filter (fun l => l.clock == b.now)

/-- A selected edge on EVT_INj is captured into its queue, or lost to a full one (R86). -/
def evtInCapture (j : Nat) (rising : Bool) (quarter : Nat) (b : Blk) : Blk :=
  let b := if j = 0 then { b with evtIn0 := rising } else b
  if b.flag (Reg.EVT_INj_CTRL j) 0 && b.flag (Reg.EVT_INj_CTRL j) (if rising then 1 else 2) then
    let q := b.evtInQ j
    if q.length < 8 then
      (b.setEvtInQ j (q ++ [{ words := evtWords b j quarter rising }])).irq Reg.EVT_INT_STATUS (16 + j)
    else
      let l := (b.evtLosses j).getD { clock := b.now, items := [], lost := b.rdN (Reg.EVT_INj_LOST j) }
      let b : Blk := { b with evtLost := Tab.upd none b.evtLost j (some { l with items := l.items ++ [{ words := evtWords b j quarter rising }] }) }
      ((b.irq (Reg.EVT_INj_STATUS j) 8).irq Reg.EVT_INT_STATUS (20 + j)).count (Reg.EVT_INj_LOST j)
  else b

/-- An entry of the queue of EVT_INj is removed; in a clock in which captures were lost, the first of them is kept after all (R86). -/
def evtRemove (j : Nat) (b : Blk) : Blk :=
  match b.evtLosses j with
  | some l =>
    (match l.items with
     | x :: r =>
       let b := (b.setEvtInQ j ((b.evtInQ j).tail ++ [x])).uncount (Reg.EVT_INj_LOST j) l.lost l.items.length
       let b : Blk := { b with evtLost := Tab.upd none b.evtLost j (some { l with items := r }) }
       (onSet r.isEmpty (fun b => (b.unirq (Reg.EVT_INj_STATUS j) 8).unirq Reg.EVT_INT_STATUS (20 + j)) b).irq
         Reg.EVT_INT_STATUS (16 + j)
     | [] => b.setEvtInQ j (b.evtInQ j).tail)
  | none => b.setEvtInQ j (b.evtInQ j).tail

/-- EVT_IN_CAPTURE (R86). -/
def execEvtInCapture (j : Fin 4) (rising : Bool) (quarter : Fin 4) (s : State) : Result :=
  inDom 2 (onBlk (evtInCapture j rising quarter)) s

/-- A read of EVT_INj_Fk shows the head's word; an empty queue reads 0 (R86). -/
def evtInWord (b : Blk) (j k : Nat) : Nat :=
  match b.evtInQ j with
  | [] => 0
  | x :: _ => x.words.getD k 0

/-- A read of F5 removes the entry (R86). -/
def evtInPop (j : Nat) (who : Requester) (b : Blk) : Blk :=
  evtRemove j (b.emit (.readDone who (Reg.EVT_INj_Fx j 5) (BitVec.ofNat 32 (evtInWord b j 5)) false))

/-- EVT_IN_POP (R86). -/
def execEvtInPop (j : Fin 4) (who : Requester) (s : State) : Result := inDomRead 2 who (Reg.EVT_INj_Fx j 5) (onBlk (evtInPop j who)) s

end Sys2Proof.Machine
end

