-- ==== Sys2Proof/Machine/Strand.lean ====
section
/-!
DEFINITION. Strand ports (R169 to R201, R204, R206, R207): frames, the Row plan, line moves, launches, LATCH frames, Survey, rate
changes, rings and read-back. What arrives at a port is in StrandRx.lean.
-/
namespace Sys2Proof.Machine

/-! ### Ports and times -/

/-- Strand port `n`. -/
def Blk.str (b : Blk) (n : Nat) : StrPort := Tab.at {} b.strs n
/-- Strand port `n` takes `x`. -/
def Blk.setStr (b : Blk) (n : Nat) (x : StrPort) : Blk := { b with strs := Tab.upd {} b.strs n x }

/-- The alternate function of port `n`. -/
def Blk.alt (b : Blk) (n : Nat) : AltPort := Tab.at {} b.alts n
/-- FUNC in effect at port `n` (R208). -/
def strFunc (b : Blk) (n : Nat) : Nat := (b.alt n).func
/-- The port's Meridian. -/
def strMer (b : Blk) (n : Nat) : Nat := b.fld (Reg.STR_n_CTRL n) 1 1
/-- STATE: 0 OFF, 1 IDLE, 2 RUNNING, 3 BEACON, 4 PARKED, 5 ALT (Table 7-11). -/
def strState (b : Blk) (n : Nat) : Nat := b.fld (Reg.STR_n_STATUS n) 2 0
/-- The port runs: RUNNING or BEACON. -/
def strRuns (b : Blk) (n : Nat) : Bool := strState b n == 2 || strState b n == 3
/-- A ring, and its secondary end, where PAIR_RING is clear (R170, R199). -/
def strSecondary (b : Blk) (n : Nat) : Bool :=
  let r := b.rdN (Reg.STR_n_RING n)
  bit r 0 && bit r 6 && !bit r 8
/-- The port runs, and EN has not been cleared (R189). -/
def strSends (b : Blk) (n : Nat) : Bool := strRuns b n && !(b.str n).stopDue
/-- RING_ACTIVE. -/
def strRingActive (b : Blk) (n : Nat) : Bool := b.flag (Reg.STR_n_STATUS n) 11
/-- The Row start from which an active secondary sends has come (R199, R297). -/
def strJoined (b : Blk) (n : Nat) : Bool := strRingActive b n && !(b.str n).joinDue
/-- The port's role is to send CLAIM frames only: STANDBY, or a ring secondary (R198, R199, R297). -/
def strBeacon (b : Blk) (n : Nat) : Bool := b.flag (Reg.STR_n_CTRL n) 7 || strSecondary b n
/-- The port sends CLAIM frames only. -/
def strClaimOnly (b : Blk) (n : Nat) : Bool := strBeacon b n && !strJoined b n
/-- A mirror port (R171). -/
def strMirror (b : Blk) (n : Nat) : Bool := b.flag (Reg.STR_n_MIRROR n) 8
/-- The other port of a single-device ring. -/
def strPartner (b : Blk) (n : Nat) : Option Nat :=
  let r := b.rdN (Reg.STR_n_RING n)
  if bit r 0 && !bit r 8 then some (bits r 5 1) else none
/-- STATE follows STANDBY, the ring's role and RING_ACTIVE (Table 7-11). -/
def strSync (b : Blk) (n : Nat) : Blk :=
  if strRuns b n then b.setFld (Reg.STR_n_STATUS n) 2 0 (if strBeacon b n && !strRingActive b n then 3 else 2) else b
/-- The hops of strand `n` take the rate of their port without a RATE frame (R173). -/
def hopsFollow (b : Blk) (n : Nat) : Blk :=
  let follow (e : Nat × Node) : Nat × Node := if e.1 / 2048 = n then (e.1, { e.2 with rate := none, rateNext := none }) else e
  { b with nodes := (b.nodes.map follow).filter (fun e => e.2 != {}) }
/-- The hops of strand `n` keep rate `r` until a RATE frame has reached each (R196). -/
def hopsKeep (b : Blk) (n r : Nat) : Blk :=
  { b with nodes := b.nodes.map (fun e => if e.1 / 2048 = n && e.2.rate.isNone then (e.1, { e.2 with rate := some r }) else e) }
/-- RATE_IN_USE. -/
def strRate (b : Blk) (n : Nat) : Nat := b.fld (Reg.STR_n_STATUS n) 4 3
/-- Tsym of a rate in ns (Table 7-1). -/
def tsymOf (rate : Nat) : Nat := match rate with | 0 => 40 | 1 => 100 | 2 => 400 | _ => 3200
/-- Tsym in use, in quarter nanoseconds. -/
def strTsym4 (b : Blk) (n : Nat) : Nat := 4 * tsymOf (strRate b n)
/-- The fabric clock in quarter nanoseconds. -/
def now4 (b : Blk) : Int := 4 * (b.now : Int)
/-- An instant of Meridian `m` in quarter nanoseconds of the fabric clock, as it lies ahead of now. -/
def fabric4 (b : Blk) (m : Nat) (t : Int) : Int := now4 b + (t - merTime b m) * 4 / nsUnit
/-- An instant of the fabric clock in quarter nanoseconds as one of Meridian `m`. -/
def unFabric4 (b : Blk) (m : Nat) (q : Int) : Int := merTime b m + (q - now4 b) * nsUnit / 4

/-- The last instant of port `n`'s symbol grid at or before `q`, and the first at or after it (log entry 24). -/
def symFloor (b : Blk) (n : Nat) (q : Int) : Int :=
  let g := (b.str n).grid
  g + (q - g) / strTsym4 b n * strTsym4 b n
def symCeil (b : Blk) (n : Nat) (q : Int) : Int :=
  let g := (b.str n).grid
  g - (g - q) / strTsym4 b n * strTsym4 b n

/-- The Row start `k` Rows after the start of Row `row` of frame `frame`, as an instant. -/
def rowInstant (b : Blk) (m frame row k : Nat) : Int :=
  merInstant b m (frame, 0) + ((row + k) * merRowLen b m * 65536 : Nat) * (merPeriod b m : Int)

/-- The start of the Row the position is in. -/
def rowStartNow (b : Blk) (m : Nat) : Int := rowInstant b m (merPos b m).1 (merRow b m) 0

/-- The length of a Row in units of 2^-48 ns. -/
def rowSpan (b : Blk) (m : Nat) : Nat := merRowLen b m * 65536 * merPeriod b m

/-- A list in ascending order of a key; equal keys keep their order. -/
def sortOn {α : Type} (key : α → Int) (l : List α) : List α :=
  let rec ins (x : α) : List α → List α
    | [] => [x]
    | y :: ys => if key x < key y then x :: y :: ys else y :: ins x ys
  l.foldl (fun acc x => ins x acc) []

/-- The Meridian is in a mode-change gap or has SUPPRESS set (R72, R79, R188). -/
def merWithheld (b : Blk) (m : Nat) : Bool := b.flag (Reg.MERm_STATUS m) 4 || b.flag (Reg.MERm_STATUS m) 6

/-- The enabled shutter windows of Meridian `m`, in ticks, ascending, overlapping ones merged (R63). -/
def merWindows (b : Blk) (m : Nat) : List (Nat × Nat) :=
  let ws := (List.range 8).filterMap (fun i =>
    let v := b.rdN (Reg.MERm_STAGE_SHUTx m i)
    let s := bits v 15 0
    let e := bits v 31 16
    if s < e && e ≤ merTpf b m then some (s, e) else none)
  (sortOn (fun w => (w.1 : Int)) ws).foldl (fun acc w =>
    match acc.getLast? with
    | some l => if w.1 < l.2 then acc.dropLast ++ [(l.1, max l.2 w.2)] else acc ++ [w]
    | none => [w]) []

/-! ### Frames -/

/-- Symbols of a frame with `len` payload bytes (R176). -/
def frameSyms (len : Nat) : Nat := 14 + len

/-- Header and payload of a frame (Table 7-3). -/
def itrenBody (f : TxFrame) (seq : Nat) : List Byte :=
  toLE 1 f.type ++ toLE 1 f.flags ++ toLE 2 f.addr ++ toLE 2 seq ++ toLE 2 f.payload.length ++ f.payload

/-- The CRC that a frame carries (R176). That of a DATA frame is built on the CRC its line got when it moved (R186; log entry 23). -/
def itrenCrc (f : TxFrame) (seq : Nat) : Nat :=
  match f.lineCrc with
  | some c => crc32Join (crc32 ((itrenBody f seq).take 16)) (f.payload.length - 8) c
  | none => crc32 (itrenBody f seq)

/-- The CLAIM timeout of `port` and its word: CLAIM_TIMEOUT Rows rounded up to 10 µs, or to 1 ms with SCALE (R198). -/
def claimTimeout (b : Blk) (m : Nat) : Nat :=
  let rows := max 1 (b.fld Reg.PAIR_CONFIG 19 16)
  let span := rows * rowSpan b m
  let u10 := (span + 10000 * nsUnit - 1) / (10000 * nsUnit)
  if u10 < 32768 then u10 else 32768 + min 32767 ((span + 10 ^ 6 * nsUnit - 1) / (10 ^ 6 * nsUnit))

/-- The CLAIM frame of port `n` (Table 7-5, R198). -/
def claimFrame (b : Blk) (n : Nat) : TxFrame :=
  let c := b.rdN (Reg.STR_n_CLAIM n)
  let claim := if bit c 16 then b.fld Reg.PAIR_CLAIM 15 0 else c % 65536
  { type := 6, payload := toLE 2 claim ++ toLE 2 (claimTimeout b (strMer b n)) ++ toLE 2 b.deviceId
      ++ toLE 1 (b2n (strClaimOnly b n)) ++ toLE 1 0 }

/-- Ticks of Meridian `m` in quarter nanoseconds, rounded. -/
def ticks4 (b : Blk) (m t : Nat) : Nat := (2 * t * 4 * merPeriod b m + 2 ^ 32) / 2 ^ 33

/-- The SHUTTER frame of port `n` (Table 7-5). -/
def shutterFrame (b : Blk) (n : Nat) : TxFrame :=
  let m := strMer b n
  let ws := merWindows b m
  { type := 5, payload := toLE 1 ws.length ++ toLE 3 0
      ++ ws.flatMap (fun w => toLE 4 (ticks4 b m w.1) ++ toLE 4 (ticks4 b m (w.2 - w.1)))
      ++ toLE (64 - 8 * ws.length) 0 }

/-- The RATE frame for rate `r`. -/
def rateFrame (r : Nat) : TxFrame := { type := 7, payload := toLE 1 r ++ toLE 3 0 }
/-- The PARK frame of port `n`. -/
def parkFrame (b : Blk) (n : Nat) : TxFrame :=
  { type := 11, payload := toLE 2 (b.fld (Reg.STR_n_PARK_LIMIT n) 15 0) ++ toLE 2 0 }
/-- The SURVEY frame for node `k`; a node beyond the last address keeps 0x7FFF (R190). -/
def surveyFrame (k : Nat) : TxFrame := { type := 1, payload := toLE 2 k ++ toLE 2 (if k < 2048 then k else 0x7FFF) ++ toLE 4 0 }
/-- The ASSIGN page 0 frame for node `k`. -/
def assignFrame (k side epoch sym ns4 : Nat) : TxFrame :=
  { type := 2, addr := k, payload := toLE 1 0 ++ toLE 1 side ++ toLE 1 epoch ++ toLE 1 0 ++ toLE 4 sym ++ toLE 4 ns4 }

/-- The side of its nodes that port `n` feeds: Port-2 for a ring secondary (R170, R190). -/
def strSide (b : Blk) (n : Nat) : Nat := b2n (b.flag (Reg.STR_n_RING n) 0 && b.flag (Reg.STR_n_RING n) 6)

/-! ### STRAND_LATCH instants (R191, R192) -/

/-- The positions, from the running one on, at which a Waypoint entry fires in this frame and the next `frames` (R81). -/
def wptAhead (b : Blk) (w : Waypoint) (frames : Nat) : List (Nat × Nat) :=
  let tpf16 := merTpf16 b w.mer
  let p := merPos b w.mer
  let all := if w.period = 0 then [(w.w0, w.sub)]
    else (List.range (frames + 1)).flatMap (fun i =>
      let f := (p.1 + i) % 2 ^ 32
      if f % w.fdiv = w.fphase then
        (List.range ((tpf16 - w.sub + w.period * 65536 - 1) / (w.period * 65536))).map
          (fun k => (f, w.sub + k * w.period * 65536))
      else [])
  all.filter (fun q => decide (0 ≤ posDiff tpf16 q p))

/-- The STRAND_LATCH instances of port `n` ahead, with their instants W, in order; none while its Meridian is OFF. -/
def latchAhead (b : Blk) (n : Nat) : List ((Nat × Nat) × Int) :=
  let m := strMer b n
  if merState b m = 0 || !b.flag Reg.WPT_CTRL 0 then []
  else
    let qs := b.wpts.flatMap (fun e =>
      match e.2 with
      | some w => if w.armed && !w.late && w.action = 3 && w.mer = m && bit w.w3 n then
          -- an instance that was armed late is not launched ahead (R191)
          (wptAhead b w 3).filter (fun p => w.done != some p) else []
      | none => [])
    sortOn (fun q => q.2) (qs.map (fun q => (q, merInstant b m q)))

/-- The latch lead L, in quarter nanoseconds. -/
def strLead (b : Blk) (n : Nat) : Nat := b.rdN (Reg.STR_n_LEAD n)

/-- The launches of port `n` ahead that have not left: position, W, and the launch t_s in quarter nanoseconds (R191). -/
def launchesAhead (b : Blk) (n : Nat) : List ((Nat × Nat) × Int × Int) :=
  ((latchAhead b n).filter (fun q => !(b.str n).launched.contains q.1)).map (fun q =>
    (q.1, q.2, symFloor b n (fabric4 b (strMer b n) q.2 - strLead b n)))

/-! ### The Row plan (R181, R182) -/

/-- A frame number `g` at or before `f` (R59). -/
def frameLe (g f : Nat) : Bool := decide (frameDiff g f ≤ 0)

/-- The first slot of `len` at or after `t` that crosses no LATCH interval of `iv` from its launch (R181). -/
def clearSlot (iv : Int) (launches : List Int) (t len : Int) : Int :=
  launches.foldl (fun t s => if s < t + len && t < s + iv then s + iv else t) t

/-- The launch of LATCH(`g`): the first launch after the last Row of `g` is planned (R192), none where it is not known. -/
def latchOf (b : Blk) (n g : Nat) (launches : List Int) : Option Int :=
  let m := strMer b n
  let planned := rowInstant b m g (merRows b m - 1) 0
  launches.find? (fun s => decide (planned < s))

/-- LATCH(`g`) has been launched. -/
def latchGone (b : Blk) (n g : Nat) : Bool :=
  match (b.str n).latchF with
  | some f => frameLe g f
  | none => false

/-- The lines of a Row as (offset, bytes): LINE_BYTES each, the last one shorter (R180). -/
def rowLines (b : Blk) (n : Nat) : List (Nat × Nat) :=
  let len := min 8192 (b.fld (Reg.STR_n_LAYOUT n) 13 0)
  let lb := limit 1 1016 (b.fld (Reg.STR_n_LAYOUT n) 25 16)
  (List.range ((len + lb - 1) / lb)).map (fun l => (l * lb, min lb (len - l * lb)))

/-- Symbols of the reserved slots of Row `row` (R181). -/
def reservedSyms (b : Blk) (n row : Nat) : List Nat :=
  let c := b.rdN (Reg.STR_n_CTRL n)
  (if bit c 2 && row = 0 then [22] else []) ++ (if bit c 4 then [26] else []) ++ (if bit c 5 then [86] else [])

/-- The reserved slots of a Row from `t` on, of `syms` symbols of time `ts` each, none across a LATCH interval of `iv` (R181): their starts and
ends. -/
def resvSlots (iv ts : Int) (launches : List Int) (t : Int) : List Nat → List (Int × Int)
  | [] => []
  | s :: ss =>
    let a := clearSlot iv launches t (s * ts)
    (a, a + s * ts) :: resvSlots iv ts launches (a + s * ts) ss

/-- The rate the plan uses: RATE_MAX with RATE_AUTO, else the rate in use. -/
def planRate (b : Blk) (n : Nat) : Nat :=
  if b.flag (Reg.STR_n_CTRL n) 2 then b.fld (Reg.STR_n_RATE n) 5 4 else strRate b n

/-- The plan of Row `row` of frame `frame` (R181, R182). -/
def rowPlan (b : Blk) (n frame row : Nat) : RowPlan :=
  let m := strMer b n
  let ts : Int := tsymOf (planRate b n) * nsUnit
  let t1 := rowInstant b m frame row 1
  let t2 := rowInstant b m frame row 2
  let launches := (launchesAhead b n).map (fun q => unFabric4 b m q.2.2)
  let iv := 34 * ts
  let next := if row + 1 = merRows b m then 0 else row + 1
  let t := ((resvSlots iv ts launches t1 (reservedSyms b n next)).getLast?.map (·.2)).getD t1
  let own := if latchGone b n frame then some t1 else latchOf b n frame launches
  let g := (frame + 2 ^ 32 - 2) % 2 ^ 32
  let waits := (b.str n).planned.contains g && !latchGone b n g
  let old := latchOf b n g launches
  let skip (fin : Int) : Bool :=
    decide (t2 < fin)
      || (match own with | some l => decide (l < fin) | none => false)
      || (waits && (match old with | some l => decide (fin < l) | none => true))
  let step (acc : Int × List LinePlan) (l : Nat × Nat) : Int × List LinePlan :=
    let len := (26 + l.2 : Nat) * ts
    let s := clearSlot iv launches acc.1 len
    let sk := skip (s + len)
    let dl := if sk then t1 else max (s - 2000 * nsUnit) t1
    (s + len, acc.2 ++ [{ ofs := l.1, n := l.2, launch := s, deadline := dl, skipped := sk }])
  { frame, row, lines := if strSecondary b n || strMirror b n then [] else ((rowLines b n).foldl step (t, [])).2 }

/-- The least lead at rate `r`: C + 24 (nodes - 1) Tsym + 32 Tsym, in quarter nanoseconds (R190). -/
def leadAt (ck nodes r : Nat) : Nat := ck + (24 * (nodes - 1) + 32) * 4 * tsymOf r

/-- Every line of the plan would end before its LATCH at rate `r` with the lead of that rate (R197). -/
def planFits (b : Blk) (n frame row r : Nat) : Bool :=
  let m := strMer b n
  let ts : Int := tsymOf r * nsUnit
  let fin := rowInstant b m frame row 1
    + (((reservedSyms b n 0).foldl (· + ·) 0 + ((rowLines b n).map (fun l => 26 + l.2)).foldl (· + ·) 0 : Nat) : Int) * ts
  let lead := match (b.str n).leadIn with | some x => leadAt x.1 x.2 r | none => 0
  let planned := rowInstant b m frame (merRows b m - 1) 0
  match ((latchAhead b n).map (fun q => q.2 - (lead : Int) * nsUnit / 4)).find? (fun s => decide (planned < s)) with
  | some l => decide (fin ≤ l)
  | none => true

/-- The Swatch interval of port `n` goes into the plan `p` (R417): 22 Tsym + 2 C_0 + 54 µs, in the first stretch of the Row that is free
of planned frames and LATCH intervals. After 64 Rows without room the job ends with NO_GAP (log entry 54). -/
def strSwatchRow (b : Blk) (n : Nat) (p : RowPlan) : Blk :=
  match swJob b n with
  | none => b
  | some j =>
    if j.placed.isSome then b
    else
      let m := strMer b n
      let us : Int := tsymOf (strRate b n) * nsUnit
      let ts : Int := tsymOf (planRate b n) * nsUnit
      let t1 := rowInstant b m p.frame p.row 1
      let t2 := rowInstant b m p.frame p.row 2
      let len := 22 * us + (2 * j.hop : Nat) * nsUnit / 4 + 54000 * nsUnit
      let next := if p.row + 1 = merRows b m then 0 else p.row + 1
      let latches := (launchesAhead b n).map (fun q => unFabric4 b m q.2.2)
      let busy : List (Int × Int) := resvSlots (34 * ts) ts latches t1 (reservedSyms b n next) ++ (p.lines.filter (fun l => !l.skipped)).map (fun l =>
        (l.launch, l.launch + (26 + l.n : Nat) * ts)) ++ latches.map (fun l => (l, l + 34 * us))
      let ok (t : Int) : Bool := decide (t1 ≤ t) && decide (t + len ≤ t2)
        && busy.all (fun x => decide (x.2 ≤ t) || decide (t + len ≤ x.1))
      let found := if b.flag (Reg.STR_n_STATUS n) 9 then none
        else (sortOn (fun t => t) ((t1 :: busy.map (·.2)).filter ok)).head?
      match found with
      | some t =>
        let q := symCeil b n (fabric4 b m t)
        setSwJob b n (some { j with rows := 0, placed := some (q, q + len * 4 / nsUnit), sent := false })
      | none => swNoGap b n

/-- START_ROW of Row `row` at a running port: the plan of its lines; skipped lines are counted (R181, R182, R192). -/
def strPlanRow (b : Blk) (n frame row : Nat) : Blk :=
  let p := rowPlan b n frame row
  let skips := (p.lines.filter (·.skipped)).length
  let x := b.str n
  let lower := min 3 (strRate b n + 1)
  let x := { x with plans := (x.plans.filter (fun q => q.lines.any (fun l => l.stage != 2))) ++ [p]
                    planned := (frame :: x.planned.filter (· != frame)).take 4
                    autoSkip := x.autoSkip || skips != 0
                    autoFit := x.autoFit && planFits b n frame row lower }
  let x := if row + 1 = merRows b (strMer b n) then { x with lastFull := some frame, fullAt := now4 b, fullWas := x.lastFull } else x
  let b := (b.setStr n x).setFlag (Reg.STR_n_STATUS n) 10 (skips != 0)
  let b := strSwatchRow b n p
  if skips = 0 then b else (b.count (Reg.STR_n_LINE_SKIP n) skips).irq (Reg.STR_n_INT_STATUS n) 5

/-! ### Emission and line moves (R125, R179, R180, R184 to R187) -/

/-- The Pool address of strand `n`'s emit ring (Table 1-7). -/
def ringBase (n : Nat) : Nat := 0x10E40000 + 0x2000 * n

/-- Spans `[a, a + k)` and `[c, c + l)` meet. -/
def spansMeet (a k c l : Nat) : Bool := a < c + l && c < a + k

/-- The framer has freed offsets `ofs` to `ofs + len` of every Row planned before frame `frame`, Row `row` (R179). -/
def ringFree (b : Blk) (n frame row ofs len : Nat) : Bool :=
  ((b.str n).plans.takeWhile (fun p => !(p.frame == frame && p.row == row))).all (fun p =>
    p.lines.all (fun l => l.stage == 2 || !spansMeet ofs len l.ofs l.n))

/-- A batch's span of the Row stream is delivered with the pieces `ps` written: bytes for lines that have moved are late (R125, R184); the
others go to the ring, at their offsets modulo its 8,192 bytes, those past ROW_LEN too (DESIGN CHOICE, log entry 66). -/
def strDeliver (b : Blk) (n frame row : Nat) (span : Nat × Nat) (ps : List (Nat × List Byte)) : Blk × List Host.Cell :=
  let x := b.str n
  let bs := ps.flatMap (fun p => (List.range p.2.length).map (fun i => (p.1 + i, p.2.getD i 0#8)))
  match x.plans.find? (fun p => p.frame == frame && p.row == row) with
  | none => (b.count (Reg.STR_n_LATE_BYTES n) bs.length, [])
  | some p =>
    let gone (o : Nat) : Bool := p.lines.any (fun l => l.stage != 0 && l.ofs ≤ o && o < l.ofs + l.n)
    let late := (bs.filter (fun c => gone c.1)).length
    let q := { p with spans := p.spans ++ [span] }
    let x := { x with plans := x.plans.map (fun r => if r.frame == frame && r.row == row then q else r) }
    let cells := (bs.filter (fun c => !gone c.1)).map (fun c => (ringBase n + c.1 % 8192, c.2))
    ((b.setStr n x).count (Reg.STR_n_LATE_BYTES n) late, cells)

/-- Offset `o` of a plan has been delivered. -/
def RowPlan.has (p : RowPlan) (o : Nat) : Bool := p.spans.any (fun s => s.1 ≤ o && o < s.1 + s.2)

/-- Every byte of a line has been delivered. -/
def RowPlan.full (p : RowPlan) (l : LinePlan) : Bool := (List.range l.n).all (fun i => p.has (l.ofs + i))

/-- The background byte at Row-stream offset `o` (R184). -/
def bgByte (b : Blk) (n o : Nat) : Byte :=
  let j := o % limit 1 24 (b.fld (Reg.STR_n_STITCH_BYTES n) 4 0)
  BitVec.ofNat 8 (b.fld (Reg.STR_n_BGx n (j / 4)) (8 * (j % 4) + 7) (8 * (j % 4)))

/-- The bytes of a line as they stand, background for what has not been delivered. -/
def lineBytes (m : Mem) (b : Blk) (n : Nat) (p : RowPlan) (l : LinePlan) : List Byte :=
  (List.range l.n).map (fun i =>
    if p.has (l.ofs + i) then Mem.byte m (ringBase n + (l.ofs + i)) else bgByte b n (l.ofs + i))

/-- The DATA frame of a line, with the CRC of the line (Table 7-5, R186). -/
def dataFrame (p : RowPlan) (l : LinePlan) (bs : List Byte) (crc : Nat) (fill refresh : Bool) : TxFrame :=
  { type := 3, flags := b2n fill + 2 * b2n refresh, lineCrc := some crc
    payload := toLE 4 p.frame ++ toLE 1 p.row ++ toLE 1 0 ++ toLE 2 l.ofs ++ bs }

/-- Bytes of lines in the port buffer. -/
def bufferUsed (x : StrPort) : Nat := ((x.queue.filter (·.type == 3)).map (fun f => f.payload.length - 8)).foldl (· + ·) 0

/-- Line number `l` of plan number `i` reaches stage `st`. -/
def setStage (x : StrPort) (i l st : Nat) : StrPort :=
  { x with plans := modAt x.plans i (fun p => { p with lines := modAt p.lines l (fun y => { y with stage := st }) }) }

/-- The line and FILL of the frame before, where the shadow table holds it (R187). -/
def prevLine (x : StrPort) (frame row l : Nat) : Option (Nat × Bool) :=
  ((Tab.at [] x.crcs (8192 * row + l)).find? (fun e => e.1 == (frame + 2 ^ 32 - 1) % 2 ^ 32)).map (·.2)

/-- What a comparison of a line of the active unit with the standby's own says (R300). -/
def shadowSay (b : Blk) (n crc : Nat) (own : Nat × Bool) : Blk :=
  if own.2 then b.count Reg.PAIR_SHADOW_SKIPPED
  else if own.1 = crc then b.count Reg.PAIR_SHADOW_COMPARED
  else
    let p := b.pair
    let b := (b.count Reg.PAIR_SHADOW_MISMATCH).irq Reg.PAIR_INT_STATUS 4
    { b with pair := { p with shFrame := Tab.upd 0 p.shFrame n (p.frames + 1), holdFrom := none } }

/-- The standby's own move of a line settles the comparison that waits for it (R300). -/
def shadowMoved (b : Blk) (n frame row ofs crc : Nat) (fill : Bool) : Blk :=
  match b.pair.waits.find? (fun w => w.port == n && w.frame == frame && w.row == row && w.ofs == ofs) with
  | some w => shadowSay { b with pair := { b.pair with waits := b.pair.waits.erase w } } n w.crc (crc, fill)
  | none => b

/-- FRAME, ROW and OFS of a DATA frame. -/
def TxFrame.place (f : TxFrame) : Nat × Nat × Nat := (leAt f.payload 0 4, leAt f.payload 4 1, leAt f.payload 6 2)

/-- A place in the stream lies before another: by FRAME, Row and offset. -/
def streamBefore (x y : Nat × Nat × Nat) : Bool :=
  decide (frameDiff x.1 y.1 < 0) || (x.1 == y.1 && (x.2.1 < y.2.1 || (x.2.1 == y.2.1 && x.2.2 < y.2.2)))

/-- A line that has moved takes its place in the port buffer, in stream order (R183). -/
def queueLine (q : List TxFrame) (f : TxFrame) : List TxFrame :=
  q.takeWhile (fun g => !streamBefore f.place g.place) ++ f :: q.dropWhile (fun g => !streamBefore f.place g.place)

/-- Every line before that of DATA frame `f` in the stream has moved or is never sent (R183). -/
def streamHead (x : StrPort) (f : TxFrame) : Bool :=
  f.seq.isSome || x.plans.all (fun p => p.lines.all (fun l =>
    l.stage == 2 || l.skipped || !streamBefore (p.frame, p.row, l.ofs) f.place))

/-- A line moves with the bytes `bs` (R180, R186, R187, R299): its CRC is kept; it goes to the port buffer unless it is unchanged
or the port sends CLAIM frames only; where the buffer is full its content waits. -/
def strMove (b : Blk) (n i l : Nat) (p : RowPlan) (y : LinePlan) (bs : List Byte) (fill : Bool) : Blk :=
  let x := b.str n
  let crc := crc32 bs
  let prev := prevLine x p.frame p.row l
  let key := 8192 * p.row + l
  let x := { x with crcs := Tab.upd [] x.crcs key (((p.frame, crc, fill) :: Tab.at [] x.crcs key).take 2) }
  let b := shadowMoved b n p.frame p.row y.ofs crc fill
  let g := Tab.at none b.pairG n
  let whole := match g with | some f => p.frame = f || p.frame = (f + 1) % 2 ^ 32 | none => false
  let same := b.flag (Reg.STR_n_CTRL n) 3 && prev == some (crc, fill) && !whole
  let refresh := (p.frame + 17 * p.row + l) % max 1 (b.fld (Reg.STR_n_REFRESH n) 7 0) == 0
  if strClaimOnly b n then b.setStr n (setStage x i l 2)
  else if same && !refresh then (b.setStr n (setStage x i l 2)).count (Reg.STR_n_LINE_UNCHANGED n)
  else
    let f := dataFrame p y bs crc fill same
    if bufferUsed x + y.n ≤ 8192 then b.setStr n { setStage x i l 2 with queue := queueLine x.queue f }
    else b.setStr n { setStage x i l 1 with fixed := x.fixed ++ [f] }

/-- The lines, in plan order, that satisfy `ok`: plan number, line number, plan and line. -/
def findLines (x : StrPort) (ok : RowPlan → LinePlan → Bool) : List (Nat × Nat × RowPlan × LinePlan) :=
  (List.range x.plans.length).flatMap (fun i =>
    match x.plans[i]? with
    | some p => (List.range p.lines.length).filterMap (fun l =>
        match p.lines[l]? with
        | some y => if ok p y then some (i, l, p, y) else none
        | none => none)
    | none => [])

/-- The first of them. -/
def findLine (x : StrPort) (ok : RowPlan → LinePlan → Bool) : Option (Nat × Nat × RowPlan × LinePlan) := (findLines x ok).head?

/-- A line moves with background for what its plan `p` lacks: a missing byte is an underrun (R184). -/
def moveFill (m : Mem) (b : Blk) (n i l : Nat) (p : RowPlan) (y : LinePlan) : Blk :=
  let miss := ((List.range y.n).filter (fun k => !p.has (y.ofs + k))).length
  let bs := lineBytes m b n p y
  let b := if miss = 0 then b
    else ((b.count (Reg.STR_n_UNDERRUN n)).count (Reg.STR_n_BG_BYTES n) miss).irq (Reg.STR_n_INT_STATUS n) 4
  strMove b n i l p y bs (miss != 0)

/-- A line moves after its ring bytes were read: after an uncorrectable word at ring offset `ofs` the rest of its bytes are background
(Table 1-13). -/
def moveFound (found : EccResult) (ofs : Nat) (m : Mem) (b : Blk) (n i l : Nat) (p : RowPlan) (y : LinePlan) : Blk :=
  let b := eccFound b found (ringBase n + ofs) n 0
  let p := if found = .uncorrectable && y.ofs ≤ ofs then
      { p with spans := p.spans.map (fun e => (e.1, min e.2 (ofs - e.1))) } else p
  moveFill m b n i l p y

/-- A fully delivered line moves from the ring into the port buffer, where it has room (R180, R186). -/
def lineMove (n : Nat) (found : EccResult) (ofs : Nat) (m : Mem) (b : Blk) : Blk :=
  let x := b.str n
  match findLine x (fun p y => y.stage == 0 && !y.skipped && p.full y) with
  | some (i, l, p, y) =>
    if bufferUsed x + y.n ≤ 8192 then moveFound found ofs m b n i l p y else b
  | none => b

/-- LINE_MOVE (R180). -/
def execLineMove (n : Fin 32) (found : EccResult) (ofs : Fin 8192) (s : State) : Result := inDom (strDom n) (onView (lineMove n found ofs)) s

/-- The deadline of a line still in the ring comes, the earliest first (R182, R184): a skipped line's bytes are discarded; undelivered bytes
become background and the line moves with FILL. Before the deadline nothing happens. -/
def lineDeadline (n : Nat) (found : EccResult) (ofs : Nat) (m : Mem) (b : Blk) : Blk :=
  let x := b.str n
  let due := findLines x (fun _ y => y.stage == 0 && decide (y.deadline < merTime b (strMer b n) + nsUnit))
  match (sortOn (fun e => e.2.2.2.deadline) due).head? with
  | some (i, l, p, y) => if y.skipped then b.setStr n (setStage x i l 2) else moveFound found ofs m b n i l p y
  | none => b

/-- LINE_DEADLINE (R184). -/
def execLineDeadline (n : Fin 32) (found : EccResult) (ofs : Fin 8192) (s : State) : Result :=
  inDom (strDom n) (onView (lineDeadline n found ofs)) s

/-- Each line of the plans takes the stage that `g` gives it. -/
def restage (x : StrPort) (g : RowPlan → LinePlan → Nat) : StrPort :=
  { x with plans := x.plans.map (fun p => { p with lines := p.lines.map (fun y => { y with stage := g p y }) }) }

/-- Space in the port buffer frees: the lines `fs` whose content is fixed move in order, as many as fit (R180). -/
def admitFrom (x : StrPort) : List TxFrame → StrPort
  | [] => { x with fixed := [] }
  | f :: fs =>
    if bufferUsed x + (f.payload.length - 8) ≤ 8192 then
      admitFrom { restage x (fun p y => if (p.frame, p.row, y.ofs) == f.place then 2 else y.stage) with queue := queueLine x.queue f } fs
    else { x with fixed := f :: fs }

/-- The lines that wait with fixed content move where they fit. -/
def admitFixed (x : StrPort) : StrPort := admitFrom x x.fixed

/-- The port sends none of its DATA: what stands in the port buffer is gone, and the lines that waited for it free their ring bytes. -/
def dropLines (x : StrPort) : StrPort := { restage x (fun _ y => if y.stage = 1 then 2 else y.stage) with queue := [], fixed := [] }

/-! ### The wire (R183) -/

/-- The effects of a frame that leaves a port by its own TYPE: counters, the outstanding question, PARK, ASSIGN, RATE. -/
def strSentType (b : Blk) (n : Nat) (f : TxFrame) (seq : Nat) (start : Int) : Blk :=
  let x := b.str n
  let ask (survey : Bool) (addr : Nat) : Blk :=
    (b.setStr n { x with ask := some { survey, addr, seq, stamp := stampAt b (merTbSel b (strMer b n)) start.toNat, sent := start } }).setFlag
      (Reg.STR_n_STATUS n) 9 true
  match f.type with
  | 1 => ask true (leAt f.payload 0 2)
  | 8 => ask false f.addr
  | 3 => b.count (Reg.STR_n_LINES_TX n)
  | 4 => b.count (Reg.STR_n_LATCHES n)
  | 2 => if leAt f.payload 0 1 = 0 && 0 < x.assigns then b.setStr n { x with assigns := x.assigns - 1 } else b
  | 7 => b.setStr n { x with rateSent := some (leAt f.payload 0 1) }
  | 11 =>
    if x.parkSent + 1 = 4 then
      let x := { x with parkSent := 0, plans := [], queue := [], fixed := [], resv := [], hw := [], fw := none }
      ((b.setStr n x).irq (Reg.STR_n_INT_STATUS n) 13).setFld (Reg.STR_n_STATUS n) 2 0 4
    else b.setStr n { x with parkSent := x.parkSent + 1 }
  | _ => b

/-- The mirrors of port `n` (R171), and the active secondary of its ring (R199): the ports that clone its DATA frames. -/
def strCloners (b : Blk) (n : Nat) : List Nat :=
  (List.range 32).filter (fun k =>
    (strMirror b k && b.fld (Reg.STR_n_MIRROR k) 4 0 == n && k != n)
      || (strSecondary b k && strJoined b k && b.fld (Reg.STR_n_RING k) 5 1 == n && b.flag (Reg.STR_n_RING n) 0))

/-- A frame starts on the wire of port `n` at `start` (quarter nanoseconds of the fabric clock): it leaves with its SEQ and CRC, the
wire is taken for its symbols and 4 more, read-back expects its CRC, and DATA is handed to the ports that clone it. -/
def strSend (b : Blk) (n : Nat) (f : TxFrame) (start : Int) : Blk :=
  let x := b.str n
  let seq := f.seq.getD x.seq
  let body := itrenBody f seq
  let crc := itrenCrc f seq
  let syms := frameSyms f.payload.length
  let x := { x with seq := if f.seq.isSome then x.seq else (x.seq + 1) % 65536
                    wireFree := start + ((syms + 4) * strTsym4 b n : Nat)
                    airSyms := x.airSyms + syms
                    rbExpect := if b.flag (Reg.STR_n_CTRL n) 6 then x.rbExpect ++ [crc] else x.rbExpect }
  let b := ((b.setStr n x).emit (.strandTx n (body ++ toLE 4 crc))).count (Reg.STR_n_FRAMES_TX n)
  let b := strSentType b n f seq start
  if f.type = 3 && f.seq.isNone then
    (strCloners b n).foldl (fun b k =>
      if strSends b k then b.setStr k { b.str k with queue := (b.str k).queue ++ [{ f with seq := some seq, after := start }] } else b) b
  else b

/-- The next Row start at or after `q` on port `n`'s Meridian; none while it is OFF. -/
def nextRow4 (b : Blk) (n : Nat) (q : Int) : Option Int :=
  let m := strMer b n
  if merState b m = 0 then none
  else
    let r := fabric4 b m (rowStartNow b m)
    let len : Int := max 1 (rowSpan b m * 4 / nsUnit)
    some (if q < r then r else r + ((q - r) / len + 1) * len)

/-- A frame of `len` payload bytes that starts at `q` ends, with its 4 symbols, before the next LATCH launch and the next Row start
(R183), and lies outside the Swatch interval (R417). -/
def strFits (b : Blk) (n : Nat) (q : Int) (len : Nat) : Bool :=
  let fin := q + ((frameSyms len + 4) * strTsym4 b n : Nat)
  (match nextRow4 b n q with | some r => decide (fin ≤ r) | none => true)
    && (strClaimOnly b n || (launchesAhead b n).all (fun l => decide (fin ≤ l.2.2)))
    && (match swInterval b n with | some i => decide (fin ≤ i.1) || decide (i.2 ≤ q) | none => true)

/-- The CALIB frame of a Swatch is due at `q`: its interval has begun (R416). -/
def calibDue (b : Blk) (n : Nat) (q : Int) : Option SwJob :=
  (swJob b n).filter (fun j => !j.sent && (match j.placed with | some i => decide (i.1 ≤ q) | none => false))

/-- The CALIB frame of port `n` (R416, Table 7-5). -/
def calibFrame (b : Blk) (n : Nat) : TxFrame :=
  { type := 10, addr := b.fld (Reg.CAL_STRn_CFG n) 10 0, payload := toLE 2 1 ++ toLE 2 48 ++ toLE 2 4 ++ toLE 2 0 }

/-- The CALIB frame leaves at `q`, from where its interval is measured (R417). -/
def calibSend (b : Blk) (n : Nat) (j : SwJob) (q : Int) : Blk :=
  let len := match j.placed with | some i => i.2 - i.1 | none => 0
  strSend (setSwJob b n (some { j with sent := true, placed := some (q, q + len) })) n (calibFrame b n) q

/-- A reply-soliciting frame may leave: none is outstanding, not while both ends of a ring send, and not while a Swatch interval is
planned (R190, R199, R417). -/
def strMayAsk (b : Blk) (n : Nat) : Bool :=
  (b.str n).ask.isNone && (match swInterval b n with | some i => decide (i.2 ≤ now4 b) | none => true) && !strRingActive b n
    && (match strPartner b n with | some k => !strRingActive b k | none => true)

/-- A frame may start now: the wire's time is free for it, and its own conditions hold. -/
def strMayStart (b : Blk) (n : Nat) (q : Int) (f : TxFrame) : Bool :=
  strFits b n q f.payload.length && decide (f.after ≤ q)
    && ((f.type != 1 && f.type != 8) || strMayAsk b n) && (f.type != 7 || (b.str n).ask.isNone)
    && (f.type != 3 || streamHead (b.str n) f)

/-- A clone that would end after its port's own LATCH for the frame is not sent (R172, R199). -/
def cloneLate (b : Blk) (n : Nat) (q : Int) (f : TxFrame) : Bool :=
  let g := leAt f.payload 0 4
  let fin := q + (frameSyms f.payload.length * strTsym4 b n : Nat)
  f.seq.isSome
    && (latchGone b n g
      || (match latchOf b n g ((launchesAhead b n).map (fun l => unFabric4 b (strMer b n) l.2.2)) with
          | some t => decide (fabric4 b (strMer b n) t < fin)
          | none => false))

/-- When the line `f` at the head of the port buffer would start: a clone at the launch instant of its source where the wire is free then and
the clone fits, whatever the grids are; any other, and a clone that waits, at `q`, the first symbol boundary at which the wire is free (R172). -/
def lineStart (b : Blk) (n : Nat) (q : Int) (f : TxFrame) : Int :=
  if f.seq.isSome && (b.str n).wireFree ≤ f.after && now4 b < f.after + 4 && strFits b n f.after f.payload.length then f.after else q

/-- The next frame in the order of R183 starts at the first symbol boundary at which the wire is free (log entry 25): reserved
frames, lines in stream order, hardware control frames, the firmware control frame. None starts between a RATE frame and the switch of the TX
(R196). -/
def frameLaunch (n : Nat) (b : Blk) : Blk :=
  if !strSends b n || (b.str n).rateSent.isSome then b
  else
    let only := strClaimOnly b n
    let b := if merWithheld b (strMer b n) || only then b.setStr n (dropLines (b.str n)) else b
    let x := b.str n
    let q := symCeil b n (max (now4 b) x.wireFree)
    match calibDue b n q, x.queue with
    | some j, _ => calibSend b n j q
    | none, f :: fs =>
      if cloneLate b n (lineStart b n q f) f then
        (((b.setStr n { x with queue := fs }).count (Reg.STR_n_LINE_SKIP n)).irq (Reg.STR_n_INT_STATUS n) 5).setFlag
          (Reg.STR_n_STATUS n) 10 true
      else frameLaunchFrom b n x q
    | none, [] => frameLaunchFrom b n x q
where
  /-- The first queue of R183 whose head may start gives it to the wire. -/
  frameLaunchFrom (b : Blk) (n : Nat) (x : StrPort) (q : Int) : Blk :=
    let may (l : List TxFrame) : Option TxFrame := l.head?.filter (strMayStart b n q)
    let standby := b.flag (Reg.STR_n_CTRL n) 7 && !strJoined b n
    match may (if strClaimOnly b n then x.resv.filter (·.type == 6) else x.resv) with
    | some f => strSend (b.setStr n { x with resv := x.resv.erase f }) n f q
    | none =>
      match x.queue.head?.filter (fun f => strMayStart b n (lineStart b n q f) f) with
      | some f => strSend (b.setStr n (admitFixed { x with queue := x.queue.tail })) n f (lineStart b n q f)
      | none =>
        if standby then b
        else
          match may x.hw with
          | some f => strSend (b.setStr n { x with hw := x.hw.tail }) n f q
          | none =>
            if strClaimOnly b n then b
            else
              match may x.fw.toList with
              | some f =>
                ((strSend (b.setStr n { x with fw := none }) n f q).setFlag (Reg.STR_n_STATUS n) 8 false).irq
                  (Reg.STR_n_INT_STATUS n) 2
              | none => b

/-- FRAME_LAUNCH (R183). -/
def execFrameLaunch (n : Fin 32) (s : State) : Result := inDom (strDom n) (onBlk (frameLaunch n)) s

/-! ### LATCH frames (R188, R191, R192, R293) -/

/-- The LATCH frame of port `n` for latch instant W at `w` (quarter nanoseconds), with FINE (Table 7-5). -/
def latchFrame (b : Blk) (n frame : Nat) (rep : Bool) (w : Int) (fine : Nat) : TxFrame :=
  let m := strMer b n
  let per4 := ticks4 b m (merTpf b m)
  let fs := fabric4 b m (merInstant b m (((merPos b m).1 + 1) % 2 ^ 32, 0))
  let next := fs + (if fs ≤ w then ((w - fs) / max 1 per4 + 1) * per4 else 0)
  { type := 4, flags := b2n rep
    payload := toLE 4 frame ++ toLE 4 per4 ++ toLE 4 (next - w).toNat ++ toLE 2 fine ++ toLE 1 (merRows b m)
      ++ toLE 1 (b.fld (Reg.STR_n_NODES n) 31 24) }

/-- A LATCH frame for a Waypoint leaves at `start`: FRAME and REPEAT by R192, and by R293 before frame G; nothing is sent while the
port sends CLAIM frames only, in a gap or while SUPPRESS is set. -/
def strLatch (b : Blk) (n : Nat) (start w : Int) (fine : Nat) : Blk :=
  let x := b.str n
  let full := if x.fullAt < start then x.lastFull else x.fullWas
  let x := { x with latchF := match full with | some f => some f | none => x.latchF }
  let b := b.setStr n x
  if strClaimOnly b n || merWithheld b (strMer b n) then b
  else
    let fresh := match full, x.lastLatch with
      | some f, some l => decide (0 < frameDiff f l)
      | some _, none => true
      | none, _ => false
    let early := match full, Tab.at none b.pairG n with
      | some f, some g => decide (frameDiff f g < 0)
      | _, _ => false
    if fresh && early then strSend b n (latchFrame b n (full.getD 0) true w fine) start
    else if fresh then
      strSend (b.setStr n { x with lastLatch := full }) n (latchFrame b n (full.getD 0) false w fine) start
    else strSend b n (latchFrame b n (x.lastLatch.getD 0) true w fine) start

/-- The first symbol boundary at which a LATCH frame can start: the wire is free, and it does not run into a Swatch interval (R191, R417). -/
def latchFree (b : Blk) (n : Nat) : Int :=
  let q := symCeil b n (max (now4 b) (b.str n).wireFree)
  match swInterval b n with
  | some i => if i.1 < q + 34 * strTsym4 b n && q < i.2 then symCeil b n i.2 else q
  | none => q

/-- The next LATCH of port `n` is launched: at t_s with FINE, for which nothing starts between t_s and its row; or, for one that was late, at
the first free symbol with FINE 0 (R191). Before t_s nothing happens. -/
def latchLaunch (n : Nat) (b : Blk) : Blk :=
  if !strSends b n then b
  else
    let x := b.str n
    if 0 < x.late then
      let b := (b.setStr n { x with late := x.late - 1 }).count (Reg.STR_n_LATCH_LATE n)
      let b := b.irq (Reg.STR_n_INT_STATUS n) 10
      let q := latchFree b n
      strLatch b n q (q + strLead b n) 0
    else
      match launchesAhead b n with
      | [] => b
      | (pos, w, ts) :: _ =>
        let w4 := fabric4 b (strMer b n) w
        if now4 b + 4 ≤ ts then b
        else strLatch (b.setStr n { x with launched := (pos :: x.launched).take 8 }) n ts w4 (w4 - strLead b n - ts).toNat

/-- LATCH_LAUNCH (R191). -/
def execLatchLaunch (n : Fin 32) (s : State) : Result := inDom (strDom n) (onBlk (latchLaunch n)) s

/-- A STRAND_LATCH action at position `pos` for port `n` (R82, R83, R191): an instance whose LATCH has not left is late, and is sent only
with LATE_OK. -/
def strLatchAction (b : Blk) (n : Nat) (pos : Nat × Nat) (lateOk : Bool) : Blk :=
  let x := b.str n
  if !strSends b n || x.launched.contains pos then b
  else b.setStr n { x with late := x.late + b2n lateOk, launched := (pos :: x.launched).take 8 }

/-- During a gap or SUPPRESS the port sends a LATCH with REPEAT at the Row start (R188). -/
def strRepeatLatch (b : Blk) (n : Nat) : Blk :=
  let x := b.str n
  if strClaimOnly b n then b
  else
    let q := latchFree b n
    strSend (b.setStr n (dropLines x)) n
      (latchFrame b n (x.lastLatch.getD 0) true (q + strLead b n) 0) q

/-- START_ROW at port `n` of Meridian `m` (R181, R188); a Row that plans nothing has no room for a Swatch interval either (R417). -/
def strStartRow (m frame row : Nat) (b : Blk) (n : Nat) : Blk :=
  if strMer b n != m then b
  else if !strSends b n then swNoGap b n
  else if merWithheld b m then swNoGap (strRepeatLatch b n) n
  else strPlanRow b n frame row

/-- STRAND_SHUTTER at port `n`: a SHUTTER frame waits for its slot (Table 3-8). -/
def strShutterAction (b : Blk) (n : Nat) : Blk := b.setStr n { b.str n with shutter := true }

/-! ### Row starts and frame boundaries -/

/-- A Row of the ring watch ends (R199, R297). -/
def ringWatch (x : StrPort) : StrPort :=
  { x with claimGap := if x.claimSeen then 0 else x.claimGap + 1
           healRows := if x.claimSeen then x.healRows + 1 else 0, claimSeen := false }

/-- A new Row at port `n` of Meridian `m` (R181, R196, R198, R204): its reserved frames and a PARK frame are queued. While the port is limited
to CLAIM frames its SHUTTER waits, and the one that leaves later is made then (R293). -/
def strRowStart (m row : Nat) (b : Blk) (n : Nat) : Blk :=
  if !strSends b n || strMer b n != m then b
  else
    let c := b.rdN (Reg.STR_n_CTRL n)
    let b := b.setStr n { b.str n with joinDue := false }
    let x := ringWatch (b.str n)
    let rate := if (bit c 2 && row != 0) || x.ask.isSome then none else x.rateDue
    let only := strClaimOnly b n
    let x := if only then { x with shutter := x.shutter || x.resv.any (fun f => f.type == 5) } else x
    let x := { x with resv := x.resv.filter (fun f => f.type != 6 && !(only && f.type == 5))
                        ++ (match rate with | some r => [rateFrame r] | none => [])
                        ++ (if bit c 4 || strSecondary b n then [claimFrame b n] else [])
                        ++ (if bit c 5 && x.shutter && !only then [shutterFrame b n] else [])
                      rateDue := if rate.isSome then none else x.rateDue
                      shutter := x.shutter && (only || !bit c 5) }
    let x := if 0 < x.parkLeft && !only then
        { x with parkLeft := x.parkLeft - 1, hw := x.hw ++ [parkFrame b n] }
      else x
    b.setStr n x

/-- A new lead takes effect (R190): STR_n_LEAD and the epoch in force. -/
def strLeadUpdate (b : Blk) (n : Nat) : Blk :=
  let x := b.str n
  match x.leadDue with
  | some (ck, nodes, epoch) =>
    if x.assigns = 0 then
      let b := b.setStr n { x with leadDue := none, leadIn := some (ck, nodes) }
      (b.wrN (Reg.STR_n_LEAD n) (leadAt ck nodes (strRate b n))).setFld (Reg.STR_n_NODES n) 31 24 epoch
    else b
  | none => b

/-- Rate `r` is in use at port `n`: RATE_IN_USE and the lead at that rate (R196, Table 7-11). -/
def strRateTo (b : Blk) (n r : Nat) : Blk :=
  let b := b.setFld (Reg.STR_n_STATUS n) 4 3 r
  match (b.str n).leadIn with
  | some (ck, nodes) => b.wrN (Reg.STR_n_LEAD n) (leadAt ck nodes r)
  | none => b

/-- A port whose EN waits starts RUNNING; the symbol grid is anchored here (R189; log entry 24). -/
def strStart (b : Blk) (n : Nat) : Blk :=
  let x := b.str n
  if x.startDue && !x.stopDue then
    let b := b.setStr n { x with startDue := false, grid := now4 b, wireFree := now4 b }
    let b := strRateTo b n (b.fld (Reg.STR_n_RATE n) 1 0)
    strSync (b.setFld (Reg.STR_n_STATUS n) 2 0 2) n
  else b

/-- RATE_AUTO at a frame boundary (R197): utilisation is measured and a rate move decided. -/
def strRateAuto (b : Blk) (n : Nat) : Blk :=
  let x := b.str n
  let per := max 1 (merTpf16 b (strMer b n) * merPeriod b (strMer b n))
  -- utilisation at rate `r`, in units of 2^-16
  let u (r : Nat) : Nat := x.airSyms * tsymOf r * nsUnit * 65536 / per
  let rate := strRate b n
  let top := b.fld (Reg.STR_n_RATE n) 5 4
  let bot := b.fld (Reg.STR_n_RATE n) 9 8
  let b := b.setFld (Reg.STR_n_UTIL n) 7 0 (min 255 (u rate * 100 / 65536))
  let run := if rate < bot && u (rate + 1) < 16384 && x.autoFit then x.autoRun + 1 else 0
  let want :=
    if x.autoSkip then some top
    else if 32768 ≤ u rate then some (((List.range 4).reverse.find? (fun r => top ≤ r && r ≤ rate && u r < 32768)).getD top)
    else if 64 ≤ run then some (rate + 1)
    else none
  let x := { x with airSyms := 0, autoSkip := false, autoFit := true, autoRun := if want.isSome then 0 else run
                    rateDue := match want with | some r => if r = rate then x.rateDue else some r | none => x.rateDue }
  b.setStr n x

/-- A frame boundary commits what is staged for STR_n_RATE, whatever the state of the port (Table 7-9, R8). Where the port runs as no end of a
ring, a RATE that is not the rate in use makes a change due, and one that is makes none (R196). -/
def strRateCommit (b : Blk) (n : Nat) : Blk :=
  match b.ripe (Reg.STR_n_RATE n) with
  | none => b
  | some v =>
    let r := bits v.toNat 1 0
    let b := commitStaged b (Reg.STR_n_RATE n)
    if strFunc b n = 0 && strRuns b n && !b.flag (Reg.STR_n_RING n) 0 then
      b.setStr n { b.str n with rateDue := if r = strRate b n then none else some r }
    else b

/-- A frame boundary of Meridian `m` at port `n`: RUNNING starts, a lead takes effect, a heal ends, the rate is decided (R189, R190,
R196, R197, R199). -/
def strBoundary (m : Nat) (b : Blk) (n : Nat) : Blk :=
  if strMer b n != m then b
  else if strFunc b n != 0 then strRateCommit b n
  else
    let b := strLeadUpdate (strStart b n) n
    let x := b.str n
    let b := if x.healDue then
        strSync (((b.setStr n { x with healDue := false }).setFlag (Reg.STR_n_STATUS n) 11 false).irq (Reg.STR_n_INT_STATUS n) 12) n
      else b
    let b := strRateCommit b n
    if !strRuns b n then b
    else if b.flag (Reg.STR_n_CTRL n) 2 && !b.flag (Reg.STR_n_RING n) 0 then strRateAuto b n
    else b.setStr n { b.str n with airSyms := 0, autoSkip := false, autoFit := true }

/-- The port switches its TX to the rate of the RATE frame 16 idle symbols after it, then sends 8 µs of idle; the lead follows (R196). -/
def rateTxSwitch (n : Nat) (b : Blk) : Blk :=
  let x := b.str n
  match x.rateSent with
  | none => b
  | some r =>
    -- the wire is free 4 symbols after the frame
    if now4 b + 4 ≤ x.wireFree + 12 * strTsym4 b n then b
    else
    let b := hopsKeep b n (strRate b n)
    let b := b.setStr n { x with rateSent := none, grid := now4 b, wireFree := now4 b + 32000 }
    swAbort (((strRateTo b n r).count (Reg.STR_n_RATE_CHANGES n)).irq (Reg.STR_n_INT_STATUS n) 9) n

/-- RATE_TX_SWITCH (R196). -/
def execRateTxSwitch (n : Fin 32) (s : State) : Result := inDom (strDom n) (onBlk (rateTxSwitch n)) s

/-! ### Control (R189, R196, R204, R206) -/

/-- RUNNING ends (R189): nothing more is sent; a start that waits turns the port IDLE. -/
def strStop (b : Blk) (n : Nat) : Blk :=
  let x := b.str n
  let keep : StrPort := { seq := x.seq, wireFree := x.wireFree, grid := x.grid, epoch := x.epoch, leadIn := x.leadIn
                          leadDue := x.leadDue, crcs := x.crcs, rbExpect := x.rbExpect, startDue := x.startDue }
  ((b.setStr n keep).clearN (Reg.STR_n_STATUS n) 0x00000F87).setFld (Reg.STR_n_STATUS n) 2 0 (b2n x.startDue)

/-- A staged STR_n_RATE takes effect at once while EN is 0 (Table 7-9); the rate in use and the hops follow once the wire is quiet (R173). -/
def strRateNow (b : Blk) (n : Nat) : Blk :=
  if b.flag (Reg.STR_n_CTRL n) 0 then b
  else
    let v := b.stagedLast (Reg.STR_n_RATE n)
    let b := { b with staged := b.staged.filter (fun e => e.1 != Reg.STR_n_RATE n) }.wrN (Reg.STR_n_RATE n) v
    if (b.str n).stopDue then b else hopsFollow (strRateTo b n (bits v 1 0)) n

/-- A frame is on the wire of port `n`. -/
def strSending (b : Blk) (n : Nat) : Bool := decide (now4 b + 4 * strTsym4 b n < (b.str n).wireFree)

/-- The frame in progress on the wire has ended after EN was cleared (R189). -/
def strTick (b : Blk) (n : Nat) : Blk :=
  if (b.str n).stopDue && !strSending b n then
    let b := strStop b n
    strRateNow b n
  else b

/-- A write of STR_n_CTRL that would assign a Meridian outside the range of R62 leaves EN and MER_SEL as they were and sets
CONFIG_ERR. -/
def strRangeCheck (b : Blk) (n old : Nat) : Blk :=
  if b.flag (Reg.STR_n_CTRL n) 0 && (!bit old 0 || bits old 1 1 != strMer b n) && !merInRange b (strMer b n) then
    ((b.setFld (Reg.STR_n_CTRL n) 1 0 (bits old 1 0))).irq (Reg.STR_n_INT_STATUS n) 14
  else b

/-- A write of STR_n_CTRL in FUNC 0 (R189, R198, R204): EN starts at the next frame boundary, and stops after the frame in progress. -/
def strCtrlWritten (b : Blk) (n old : Nat) : Blk :=
  let en := b.flag (Reg.STR_n_CTRL n) 0
  if en && !bit old 0 then
    let b := b.setStr n { b.str n with startDue := true }
    if (b.str n).stopDue then b else b.setFld (Reg.STR_n_STATUS n) 2 0 1
  else if !en && bit old 0 then
    let b := swAbort b n
    let b := b.setStr n { b.str n with startDue := false, stopDue := strRuns b n }
    if strRuns b n then strTick b n else strRateNow (strStop b n) n
  else swStandby (strSync b n) n

/-- STR_n_CTRL.PARK: four PARK frames, one per Row (R204). -/
def parkStart (n : Nat) (b : Blk) : Blk :=
  if strSends b n then b.setStr n { b.str n with parkLeft := 4, parkSent := 0 } else b

/-- PARK_START (R204). -/
def execParkStart (n : Fin 32) (s : State) : Result := inDom (strDom n) (onBlk (parkStart n)) s

/-- STR_n_CTRL.CLR_COUNTS clears the port's counters (R206). -/
def strClrCounts (n : Nat) (b : Blk) : Blk := b.zero ((List.range 17).map (fun i => Reg.STR_n_FRAMES_TX n + 4 * i))

/-- STR_CLR_COUNTS (R206). -/
def execStrClrCounts (n : Fin 32) (s : State) : Result := inDom (strDom n) (onBlk (strClrCounts n)) s

/-- A firmware control frame waits for the wire, and CTL_BUSY is set (R206). -/
def itrenAsk (n : Nat) (f : TxFrame) (b : Blk) : Blk :=
  (b.setStr n { b.str n with fw := some f }).setFlag (Reg.STR_n_STATUS n) 8 true

/-- STR_n_CTL_CMD.GO in FUNC 0: the control frame at CTL_ADDR is queued; ignored while CTL_BUSY is set (R206). -/
def itrenCtlGo (n : Nat) (m : Mem) (b : Blk) : Blk :=
  if b.flag (Reg.STR_n_STATUS n) 8 then b
  else
    let a := b.rdN (Reg.STR_n_CTL_ADDR n)
    itrenAsk n { type := Mem.le m a 1, flags := Mem.le m (a + 1) 1, addr := Mem.le m (a + 2) 2
                 payload := Mem.bytes m (a + 8) (min 1024 (Mem.le m (a + 6) 2)) } b

/-! ### Rings (R199, R297) -/

/-- No CLAIM of the primary for 2 Rows: the secondary becomes active and sends from the next Row start (R199). -/
def ringBreak (n : Nat) (b : Blk) : Blk :=
  if strSecondary b n && strSends b n && !strRingActive b n && 2 ≤ (b.str n).claimGap then
    let b := b.setStr n { b.str n with joinDue := true }
    let b := (b.setFlag (Reg.STR_n_STATUS n) 11 true).irq (Reg.STR_n_INT_STATUS n) 11
    strSync (b.count (Reg.STR_n_RING_SWITCH n)) n
  else b

/-- RING_BREAK (R199). -/
def execRingBreak (n : Fin 32) (s : State) : Result := inDom (strDom n) (onBlk (ringBreak n)) s

/-- 16 Rows in a row with the primary's, or the active unit's, CLAIM: back to CLAIM frames only at the next frame boundary (R199,
R297). -/
def ringHeal (n : Nat) (b : Blk) : Blk :=
  if strRingActive b n && 16 ≤ (b.str n).healRows then b.setStr n { b.str n with healDue := true } else b

/-- RING_HEAL (R199). -/
def execRingHeal (n : Fin 32) (s : State) : Result := inDom (strDom n) (onBlk (ringHeal n)) s

/-! ### Read-back and loss of signal (R175, R201) -/

/-- Read-back checks an originated frame: `bytes` is what the receiver decoded at the pin, none where it decodes nothing (R201); a
check-value unit may snoop it, whether or not read-back is enabled (R355). -/
def readbackCheck (n : Nat) (bytes : Option (List Byte)) (b : Blk) : Blk :=
  let b := match bytes with
    | some bs => crcSnoop b 1 n 0 bs
    | none => b
  let crc := bytes.map (fun bs => leAt bs (bs.length - 4) 4)
  let x := b.str n
  match x.rbExpect with
  | [] => b
  | want :: rest =>
    let b := ((b.setStr n { x with rbExpect := rest }).count (Reg.STR_n_RB_FRAMES n)).setFlag (Reg.STR_n_STATUS n) 6 crc.isNone
    if crc = some want then b
    else
      let b := { b with pair := { b.pair with rbFrame := Tab.upd 0 b.pair.rbFrame n (b.pair.frames + 1) } }
      (b.count (Reg.STR_n_RB_MISMATCH n)).irq (Reg.STR_n_INT_STATUS n) 6

/-- READBACK_CHECK (R201). -/
def execReadbackCheck (n : Fin 32) (bytes : Option (List Byte)) (s : State) : Result :=
  inDom (strDom n) (onBlk (readbackCheck n bytes)) s

/-- The receiver of port `n` declares loss of signal (R175). -/
def portRxLos (n : Nat) (b : Blk) : Blk :=
  if b.flag (Reg.STR_n_STATUS n) 5 then b
  else ((b.setFlag (Reg.STR_n_STATUS n) 5 true).count (Reg.STR_n_RX_LOS_COUNT n)).irq (Reg.STR_n_INT_STATUS n) 7

/-! ### Survey (R190, R193) -/

/-- The next SURVEY is queued. -/
def surveyAsk (b : Blk) (n k : Nat) : Blk := b.setStr n { b.str n with hw := (b.str n).hw ++ [surveyFrame k] }

/-- Survey is over: SURVEYING clears and SURVEY_DONE sets. -/
def surveyOver (b : Blk) (n : Nat) : Blk :=
  ((b.setStr n { b.str n with survey := none }).setFlag (Reg.STR_n_STATUS n) 7 false).irq (Reg.STR_n_INT_STATUS n) 0

/-- Survey has counted its nodes (R190): NODES, the epoch, the ASSIGN frames with the latch offsets, the lead to come. -/
def surveyDone (b : Blk) (n : Nat) (v : Survey) (closed : Bool) : Blk :=
  let x := b.str n
  let nodes := v.cks.length
  let epoch := (x.epoch + 1) % 256
  let last := v.cks.getD (nodes - 1) 0
  let frames := if b.flag (Reg.STR_n_SURVEY_CTRL n) 2 then
      (List.range nodes).map (fun k =>
        assignFrame k (strSide b n) epoch (24 * (nodes - 1 - k)) ((last + 2 ^ 32 - v.cks.getD k 0) % 2 ^ 32))
    else []
  let b := b.setStr n { x with epoch, hw := x.hw ++ frames, assigns := frames.length
                               leadDue := if nodes = 0 then none else some (last, nodes, epoch) }
  let b := (b.setFld (Reg.STR_n_NODES n) 11 0 nodes).setFlag (Reg.STR_n_NODES n) 16 closed
  surveyOver (b.wrN (Reg.STR_n_CHAIN_CK n) last) n

/-- STR_n_SURVEY_CTRL.START (R190); a Swatch job of the port, which runs only without a Survey, ends (R416; log entry 54). -/
def surveyStart (n : Nat) (b : Blk) : Blk :=
  if b.flag (Reg.STR_n_STATUS n) 7 || !strSends b n then b
  else
    let b := (swAbort b n).setStr n { b.str n with survey := some {} }
    surveyAsk (b.setFlag (Reg.STR_n_STATUS n) 7 true) n 0

/-- SURVEY_START (R190). -/
def execSurveyStart (n : Fin 32) (s : State) : Result := inDom (strDom n) (onBlk (surveyStart n)) s

/-- STR_n_SURVEY_CTRL.ABORT: Survey ends after the outstanding reply; at once where none is outstanding (R190). -/
def surveyAbort (n : Nat) (b : Blk) : Blk :=
  let x := b.str n
  match x.survey with
  | none => b
  | some v =>
    if x.ask.any (·.survey) then b.setStr n { x with survey := some { v with abort := true } }
    else surveyOver (b.setStr n { x with hw := x.hw.filter (fun f => f.type != 1) }) n

/-- SURVEY_ABORT (R190). -/
def execSurveyAbort (n : Fin 32) (s : State) : Result := inDom (strDom n) (onBlk (surveyAbort n)) s

/-- An entry of the reply ring (Table 7-13), or a drop where the ring is full (R207). -/
def replyEntry (b : Blk) (port flags addr seq rt : Nat) (payload : List Byte) : Blk × List Host.Cell :=
  let size := limit 16 4096 (b.fld Reg.STR_REPLY_SIZE 12 0)
  let head := b.fld Reg.STR_REPLY_HEAD 11 0
  if (head + 1) % size = b.fld Reg.STR_REPLY_TAIL 11 0 % size then
    ((b.count Reg.STR_REPLY_LOST).irq Reg.STR_INT_STATUS 1, [])
  else
    let bs := toLE 1 port ++ toLE 1 flags ++ toLE 2 addr ++ toLE 2 seq ++ toLE 2 payload.length ++ toLE 4 rt ++ toLE 4 0
      ++ slice payload 0 48
    ((b.setFld Reg.STR_REPLY_HEAD 11 0 ((head + 1) % size)).irq Reg.STR_INT_STATUS 0,
      cellsAt (b.rdN Reg.STR_REPLY_BASE + 64 * head) bs)

/-- The outstanding question is answered or given up. -/
def strAnswered (b : Blk) (n : Nat) : Blk :=
  (b.setStr n { b.str n with ask := none }).setFlag (Reg.STR_n_STATUS n) 9 false

/-- STR_n_HOP_MAX in nanoseconds, 0 standing for the value of the rate in use (Tables 7-1 and 7-9). -/
def hopMax (b : Blk) (n : Nat) : Nat :=
  let v := b.fld (Reg.STR_n_HOP_MAX n) 15 0
  if v = 0 then (match strRate b n with | 0 => 150 | 1 => 400 | 2 => 1250 | _ => 3000) else v

/-- timeout(k) of a Survey with C of the nodes before k, in quarter nanoseconds (R190). -/
def surveyTimeout (b : Blk) (n : Nat) (cks : List Nat) : Nat :=
  let t4 := strTsym4 b n
  let rt := match cks.getLast? with | some c => 64 * t4 + 48 * (cks.length - 1) * t4 + 2 * c | none => 0
  rt + 64 * t4 + 176 * t4 + 8 * hopMax b n + 8000

/-- timeout(k) has passed since the outstanding SURVEY; a QUERY has no stated timeout (R190; log entry 38). -/
def replyLate (b : Blk) (n : Nat) (a : Ask) : Bool :=
  match a.survey, (b.str n).survey with
  | true, some v => decide (a.sent + surveyTimeout b n v.cks < now4 b + 4)
  | _, _ => true

/-- No reply came (R190, R207): a TIMEOUT entry; a Survey ends with the nodes so far. -/
def replyTimeout (n : Nat) (b : Blk) : Blk × List Host.Cell :=
  match (b.str n).ask.filter (replyLate b n) with
  | none => (b, [])
  | some a =>
    let b := ((strAnswered b n).count (Reg.STR_n_REPLY_TIMEOUT n)).irq (Reg.STR_n_INT_STATUS n) 3
    let e := replyEntry b n (1 + 2 * b2n a.survey) a.addr a.seq 0 []
    match (b.str n).survey with
    | some v => if !a.survey then e else if v.abort then (surveyOver e.1 n, e.2) else (surveyDone e.1 n v false, e.2)
    | none => e

/-- REPLY_TIMEOUT (R190). -/
def execReplyTimeout (n : Fin 32) (s : State) : Result := inDom (strDom n) (onMem (fun _ b => replyTimeout n b)) s

end Sys2Proof.Machine
end

