-- ==== Sys2Proof/Machine/StitchRun.lean ====
section
/-!
DEFINITION. The running Stitch engine (R119, R120, R124 to R132, R140 to R143): the trace writer, release, contexts, dispatch and
retire of nodes, emission and cancels.
-/
namespace Sys2Proof.Machine

/-- The Stitch engine takes `x`. -/
def Blk.setStc (b : Blk) (x : Stitch) : Blk := { b with stc := x }

/-- The primary Meridian: MER_SEL of STC_CTRL. -/
def stcMer (b : Blk) : Nat := b.fld Reg.STC_CTRL 1 1
/-- RUN of STC_STATUS: 0 STOPPED, 1 STARTING, 2 RUNNING, 3 STOPPING. -/
def stcRun (b : Blk) : Nat := b.fld Reg.STC_STATUS 1 0
/-- ACTIVE_BUF. -/
def stcBuf (b : Blk) : Nat := b.fld Reg.STC_PROG_STATUS 0 0
/-- An event of Table 5-12. -/
def stcIrq (b : Blk) (i : Nat) : Blk := b.irq Reg.STC_INT_STATUS i

/-! ### The trace (R140, R141, R143) -/

/-- The writer has stored what it shall after the trigger. -/
def trcFull (b : Blk) : Bool := b.flag Reg.TRC_CTRL 2 && b.flag Reg.TRC_STATUS 17 && b.stc.trcPost == 0

/-- An event of TRC_TRIG_MASK sets TRIGGERED and loads TRC_TRIG_INDEX with its record's index, or with that of the next record where it
has none (R141; log entry 22). -/
def trcHit (b : Blk) (ev : Nat) (race : Bool) : Blk :=
  if bit (b.rdN Reg.TRC_TRIG_MASK) ev || (race && bit (b.rdN Reg.TRC_TRIG_MASK) 7) then
    let idx := (b.fld Reg.TRC_STATUS 12 0 + b.stc.trcBuf.length) % 8192
    let b := if b.flag Reg.TRC_STATUS 17 then b else b.setStc { b.stc with trcPost := b.fld Reg.TRC_POST_COUNT 12 0 }
    ((b.setFlag Reg.TRC_STATUS 17 true).wrN Reg.TRC_TRIG_INDEX idx).irq Reg.TRC_INT_STATUS 0
  else b

/-- A record enters the buffer; its event may trigger, and one after the trigger is a further record (R141). -/
def trcTake (b : Blk) (ev : Nat) (race : Bool) (bs : Nat → List Byte) : Blk :=
  let was := b.flag Reg.TRC_STATUS 17
  let b := trcHit b ev race
  let x := b.stc
  b.setStc { x with trcBuf := x.trcBuf ++ [bs x.trcSeq], trcSeq := (x.trcSeq + 1) % 65536
                    trcPost := if was then x.trcPost - 1 else x.trcPost }

/-- An event is traced where TRC_CTRL, the event mask and the flow filter let it (R140, R141): with the buffer full its source is
held under STALL, and the record is lost without it. An event without a record may trigger too. -/
def trcPut (b : Blk) (ev : Nat) (race : Bool) (flow : Option Nat) (bs : Nat → List Byte) : Blk :=
  let other := match flow with
    | some f => b.flag Reg.TRC_FLOW_FILTER 16 && b.fld Reg.TRC_FLOW_FILTER 9 0 != f
    | none => false
  if !b.flag Reg.TRC_CTRL 0 || b.flag Reg.TRC_STATUS 18 || trcFull b then b
  else if !bit (b.rdN Reg.TRC_EVENT_MASK) ev || other then trcHit b ev race
  else if b.stc.trcBuf.length < 256 && b.stc.trcHeld.isEmpty then trcTake b ev race bs
  else if b.flag Reg.TRC_CTRL 1 then
    b.setStc { b.stc with trcHeld := b.stc.trcHeld ++ [toLE 1 ev ++ toLE 1 (b2n race) ++ bs 0] }
  else ((trcHit b ev race).count Reg.TRC_LOST).irq Reg.TRC_INT_STATUS 2

/-- The 32 bytes of a record (Table 5-7). -/
def trcBytes (b : Blk) (pos : Nat × Nat) (ev info run idx flowWord node laneCtx first arg prog seq : Nat) : List Byte :=
  toLE 4 b.now ++ toLE 4 pos.1 ++ toLE 2 (pos.2 / 65536) ++ toLE 1 ev ++ toLE 1 info ++ toLE 2 run ++ toLE 2 idx
    ++ toLE 2 flowWord ++ toLE 1 node ++ toLE 1 laneCtx ++ toLE 4 first ++ toLE 4 arg ++ toLE 2 seq ++ toLE 2 prog

/-- An event of a batch is traced. -/
def trcBatch (b : Blk) (t : Batch) (ev cause : Nat) (race : Bool) (node arg : Nat) : Blk :=
  let info := cause + 64 * b2n (t.bank != b.stc.bank) + 128 * b2n race
  trcPut b ev race (some t.flow) (trcBytes b (merPos b t.mer) ev info t.run t.idx (t.flow + 4096 * t.prio + 32768 * t.mer) node
    (t.lane + 16 * t.ctx) t.first arg t.prog)

/-- The READY record of batch `t` of this clock takes the RACE bit (R132). -/
def trcRace (b : Blk) (t : Batch) : Blk :=
  let mark (o : Nat) (r : List Byte) : List Byte :=
    if leAt r o 4 == b.now % 2 ^ 32 && leAt r (o + 10) 1 == 1 && leAt r (o + 12) 2 == t.run && leAt r (o + 14) 2 == t.idx then
      r.set (o + 11) ((r.getD (o + 11) 0#8) ||| 0x80#8)
    else r
  b.setStc { b.stc with trcBuf := b.stc.trcBuf.map (mark 0), trcHeld := b.stc.trcHeld.map (mark 2) }

/-- Held records enter the buffer while it has room; a writer that has stored what it shall takes no more, and lets the source go (R141). -/
def trcAdmit : Nat → Blk → Blk
  | 0, b => b
  | k + 1, b =>
    match b.stc.trcHeld with
    | r :: rs =>
      if trcFull b || b.flag Reg.TRC_STATUS 18 then b.setStc { b.stc with trcHeld := [] }
      else if b.stc.trcBuf.length < 256 then
        let b := b.setStc { b.stc with trcHeld := rs }
        trcAdmit k (trcTake b (leAt r 0 1) (leAt r 1 1 == 1) (fun seq => slice r 2 28 ++ toLE 2 seq ++ slice r 32 2))
      else b
    | [] => b

/-- The writer stores up to `k` records of earlier clocks in the ring of 8,192 at 0x10E0_0000, and wraps over the oldest (R140, R141). -/
def trcDrain (k : Nat) (b : Blk) : Blk × List Host.Cell :=
  let rs := (b.stc.trcBuf.takeWhile (fun r => leAt r 0 4 != b.now % 2 ^ 32)).take k
  let at_ := b.fld Reg.TRC_STATUS 12 0
  let cells := (List.range rs.length).flatMap (fun i =>
    cellsAt (0x10E00000 + 32 * ((at_ + i) % 8192)) (rs.getD i []))
  let b := b.setStc { b.stc with trcBuf := b.stc.trcBuf.drop rs.length }
  let b := (b.setFld Reg.TRC_STATUS 12 0 ((at_ + rs.length) % 8192))
  (trcAdmit 2 (if 8192 ≤ at_ + rs.length then b.setFlag Reg.TRC_STATUS 16 true else b), cells)

/-- TRC_POST_COUNT further records have been stored: the writer stops (R141). -/
def traceStop (b : Blk) : Blk × List Host.Cell :=
  if trcFull b && !b.flag Reg.TRC_STATUS 18 then
    let r := trcDrain 256 b
    ((r.1.setFlag Reg.TRC_STATUS 18 true).irq Reg.TRC_INT_STATUS 1, r.2)
  else (b, [])

/-- TRACE_STOP (R141). -/
def execTraceStop (s : State) : Result := inDom 5 (onMem (fun _ b => traceStop b)) s

/-- Space frees in the buffer: one Pool burst of two records leaves it, and the held source resumes (R141). -/
def execTraceStallRelease (s : State) : Result := inDom 5 (onMem (fun _ b => trcDrain 2 b)) s

/-- TRC_CTRL.CLEAR empties the ring and clears TRC_STATUS (R143). -/
def traceClear (b : Blk) : Blk :=
  (b.setStc { b.stc with trcBuf := [], trcHeld := [], trcPost := 0 }).wr Reg.TRC_STATUS 0#32

/-- TRACE_CLEAR (R143). -/
def execTraceClear (s : State) : Result := inDom 1 (onBlk traceClear) s

/-! ### Batches -/

/-- Batch `id`. -/
def findBatch (b : Blk) (id : Nat) : Option Batch := b.stc.batches.find? (fun t => t.id == id)

/-- Batch `t` replaces the one of its number. -/
def putBatch (b : Blk) (t : Batch) : Blk :=
  b.setStc { b.stc with batches := b.stc.batches.map (fun u => if u.id == t.id then t else u) }

/-- A batch that has neither retired nor been cancelled. -/
def Batch.live (t : Batch) : Bool := t.state != .cancelled

/-- Nodes of the batch in flight. -/
def Batch.flying (t : Batch) : Nat := (t.nodes.filter (fun e => e.2 != .retired)).length

/-- Nodes in flight on lane `l`, and on the device. -/
def laneFlying (b : Blk) (l : Nat) : Nat :=
  ((b.stc.batches.filter (fun t => (t.state == .active || t.state == .cancelled) && t.lane == l)).map Batch.flying).foldl (· + ·) 0
def stcFlying (b : Blk) : Nat := ((List.range 8).map (laneFlying b)).foldl (· + ·) 0

/-- Contexts of lane `l` in use: by ACTIVE batches, and by cancelled ones with nodes in flight (R131). -/
def laneBusy (b : Blk) (l : Nat) : List Nat :=
  (b.stc.batches.filter (fun t => (t.state == .active || t.state == .cancelled) && t.lane == l)).map (·.ctx)

/-- Event sources are held: no batch moves on while a record waits for the buffer, or what waited for it has not come about (R141). -/
def stcHeld (b : Blk) : Bool := !b.stc.trcHeld.isEmpty || !b.stc.acts.isEmpty

/-- A batch becomes READY in this clock. -/
def batchReady (b : Blk) (t : Batch) : Blk :=
  let t := { t with state := .ready, readyAt := b.now }
  trcBatch (putBatch b t) t 1 0 false 0xFF 0

/-- The batches whose clock has come are READY now (R126, R127). -/
def stcPromote (b : Blk) : Blk :=
  (sortOn (fun t => (t.flow : Int)) (b.stc.batches.filter (fun t => t.state == .due && decide (t.readyAt ≤ b.now)))).foldl batchReady b

/-- The oldest BLOCKED batch of a flow with none READY or ACTIVE becomes READY in the next cycle (R126, R130). -/
def flowNext (b : Blk) (flow : Nat) : Blk :=
  let ts := b.stc.batches.filter (fun t => t.flow == flow && t.live)
  if ts.any (fun t => t.state != .blocked) then b
  else match ts.head? with
    | some t => putBatch b { t with state := .due, readyAt := b.now + 1 }
    | none => b

/-- OLD_DRAINING clears once no batch of the old program is left (R137). -/
def stcDrained (b : Blk) : Blk :=
  if b.flag Reg.STC_PROG_STATUS 3 && !b.stc.batches.any (fun t => t.live && t.bank != b.stc.bank) then
    stcIrq (b.setFlag Reg.STC_PROG_STATUS 3 false) 11
  else b

/-- The counters and the trace of a cancel with its cause (R131, R132, Table 5-11). -/
def cancelCount (b : Blk) (t : Batch) (cause : Nat) (race : Bool) : Blk :=
  let b := if race then stcIrq (trcRace (b.count Reg.STC_RACE_COUNT) t) 4 else b
  let b := trcBatch b t 4 cause race 0xFF 0
  let b := b.count Reg.STC_CANCEL_COUNT
  match cause with
  | 2 => stcIrq (b.count Reg.STC_LATE_COUNT) 3
  | 3 => stcIrq (b.count Reg.STC_ECC_CANCEL_COUNT) 5
  | _ => b

/-- Batches are cancelled with one cause (R131): none dispatches further; one with nodes in flight keeps its context until they
complete; a batch made READY in this clock is a race (R132). -/
def cancelAll (b : Blk) (cause : Nat) (ids : List Nat) : Blk :=
  let b := ids.foldl (fun b id =>
    match findBatch b id with
    | some t =>
      if !t.live then b
      else
        let b := cancelCount b t cause ((t.state == .ready || t.state == .active) && t.readyAt == b.now)
        if t.state == .active && t.flying != 0 then putBatch b { t with state := .cancelled }
        else b.setStc { b.stc with batches := b.stc.batches.filter (fun u => u.id != id) }
    | none => b) b
  stcDrained b

/-- A batch is cancelled and its flow goes on. -/
def batchCancel (b : Blk) (t : Batch) (cause : Nat) : Blk := flowNext (cancelAll b cause [t.id]) t.flow

/-- A deadline of Meridian `m` as an instant of it. -/
def deadlineInstant (b : Blk) (m : Nat) : Deadline → Int
  | .pos f s => merInstant b m (f, s)
  | .inst t => t

/-- A deadline of Meridian `m` has passed. -/
def deadlinePassed (b : Blk) (m : Nat) : Deadline → Bool
  | .pos f s => decide (posDiff (merTpf16 b m) (f, s) (merPos b m) < 0)
  | .inst t => decide (t < merTime b m)

/-- An event source of the engine waits behind what the trace holds (R141). -/
def stcWait (b : Blk) (a : StcAct) : Blk := b.setStc { b.stc with acts := b.stc.acts ++ [a] }

/-- The batch's deadline has passed before it retired (R131). -/
def deadlineCancel (id : Nat) (b : Blk) : Blk :=
  match findBatch b id with
  | some t => if t.live && deadlinePassed b t.mer t.deadline then batchCancel b t 2 else b
  | none => b

/-- BATCH_DEADLINE (R131, R141): before the deadline nothing happens. -/
def batchDeadline (id : Nat) (b : Blk) : Blk := if stcHeld b then stcWait b (.deadline id) else deadlineCancel id b

/-- BATCH_DEADLINE (R131). -/
def execBatchDeadline (batch : Nat) (s : State) : Result := inDom 5 (onBlk (batchDeadline batch)) s

/-- Every BLOCKED, READY or ACTIVE batch of the flow is cancelled (R131), those that this clock still releases among them (R132). -/
def flowCancelNow (flow : Nat) (b : Blk) : Blk :=
  let ts := b.stc.batches.filter (fun t => t.flow == flow)
  let old := if b.stc.cancelAt = b.now then b.stc.cancelFlows else []
  cancelAll (b.setStc { b.stc with cancelAt := b.now, cancelFlows := (flow, ts.any Batch.live) :: old }) 4 (ts.map (·.id))

/-- STC_FLOW_CANCEL (R131, R141). -/
def flowCancel (flow : Nat) (b : Blk) : Blk := if stcHeld b then stcWait b (.flow flow) else flowCancelNow flow b

/-- FLOW_CANCEL (R131). -/
def execFlowCancel (flow : Fin 1024) (s : State) : Result := inDom 5 (onBlk (flowCancel flow)) s

/-- Every batch is cancelled with cause 1 (R138). -/
def haltCancel (b : Blk) : Blk := cancelAll b 1 (b.stc.batches.map (·.id))

/-- STC_CTRL.HALT (R138): release stops at once, every batch is cancelled with cause 1, EN clears. -/
def stcHalt (b : Blk) : Blk :=
  let ran := stcRun b
  let b := (b.setFlag Reg.STC_CTRL 0 false).setFld Reg.STC_STATUS 1 0 0
  let b := b.setStc { b.stc with acts := b.stc.acts.filter (fun a => match a with | .release _ _ _ => false | _ => true), releasing := [] }
  let b := if stcHeld b then stcWait b .halt else haltCancel b
  if ran = 2 || ran = 3 then stcIrq b 10 else b

/-- STITCH_HALT (R138). -/
def execStitchHalt (s : State) : Result := inDom 5 (onBlk stcHalt) s

/-! ### Release (R119, R120, R124) -/

/-- The nodes of a subgraph of program buffer `p`, in index order. -/
def subNodes (m : Mem) (p sub : Nat) : List Nat := (List.range (progNodes m p)).filter (fun i => (pnode m p i).sub == sub)

/-- The strand, and the Row-stream offset of Stitch k = `base`, that the first strand EMIT of a subgraph names (R124). -/
def emitTarget (m : Mem) (p sub base : Nat) : Option (Nat × Nat) :=
  ((subNodes m p sub).find? (fun i => (pnode m p i).op == 12 && (pnode m p i).mode == 0)).map (fun i =>
    let n := pnode m p i
    (n.word 0 % 32, n.word 1 + base * (pnode m p n.a).width))

/-- The deadline of a batch (R120): of the DATA frame that holds its first Stitch; else its run's position, which is the first tick
of the Row after next where the framer has planned no such frame (log entry 21). -/
def batchDeadlineOf (m : Mem) (b : Blk) (buf mer frame row : Nat) (r : PRun) (base : Nat) : Deadline :=
  let line := match emitTarget m buf r.sub base with
    | some (n, o) =>
      if strMer b n = mer then
        (((b.str n).plans.find? (fun q => q.frame == frame && q.row == row)).bind (fun q =>
          q.lines.find? (fun l => l.ofs ≤ o && o < l.ofs + l.n))).map (·.deadline)
      else none
    | none => none
  match line with
  | some t => .inst t
  | none =>
    let strand := (emitTarget m buf r.sub base).isSome
    let ticks := row * merRowLen b mer + (if r.deadline = 0 || strand then 2 * merRowLen b mer else r.deadline)
    let q := normPos (merTpf16 b mer) frame (ticks * 65536 : Nat)
    .pos q.1 q.2

/-- The spans of a released batch are expected by every DMX port that one of its EMITs names (R212). -/
def strWant (m : Mem) (b : Blk) (t : Batch) : Blk :=
  (subNodes m t.buf t.sub).foldl (fun b i =>
    let n := pnode m t.buf i
    let p := n.word 0 % 32
    if n.op = 12 && n.mode == 0 && strFunc b p == 1 then
      let w := (pnode m t.buf n.a).width
      let x := b.str p
      b.setStr p { x with plans := x.plans.map (fun q =>
        if q.frame == t.frame && q.row == t.row then { q with want := q.want ++ [(n.word 1 + t.base * w, t.count * w)] } else q) }
    else b) b

/-- The flow is cancelled in this clock: whether a batch of it is, or was, READY or ACTIVE in it (R132). -/
def flowCancelled (b : Blk) (flow : Nat) : Option Bool :=
  if b.stc.cancelAt = b.now then (b.stc.cancelFlows.find? (fun x => x.1 == flow)).map (·.2) else none

/-- A batch becomes READY in the clock in which a cancel targets its flow: the cancel wins, and it is a race (R132). -/
def batchRace (b : Blk) (t : Batch) : Blk :=
  let b := b.setStc { b.stc with cancelFlows := (t.flow, true) :: b.stc.cancelFlows }
  cancelAll (batchReady b t) 4 [t.id]

/-- One batch is released: cancelled at once where its deadline has passed or its flow is cancelled in this clock, READY where its flow is
idle, else BLOCKED (R119, R120, R126, R130, R132). -/
def batchRelease (m : Mem) (b : Blk) (e : Release) : Blk :=
  let x := b.stc
  let r := prun m e.buf e.run
  let dl := batchDeadlineOf m b e.buf e.mer e.frame e.row r e.base
  let t : Batch := { id := x.nextId, run := e.run, idx := e.idx, flow := r.flow, sub := r.sub, prio := r.prio, mer := e.mer, frame := e.frame
                     row := e.row, first := r.first + 64 * e.idx, count := min 64 (r.count - 64 * e.idx), base := e.base, deadline := dl
                     state := .blocked, buf := e.buf, bank := e.bank, prog := e.prog, released := e.clock, regions := b.regionBlock
                     snap := x.snap }
  let b := strWant m ((b.setStc { x with nextId := x.nextId + 1 }).count Reg.STC_BATCH_COUNT) t
  if deadlinePassed b e.mer dl then cancelCount b t 2 false
  else
    let idle := !x.batches.any (fun u => u.flow == r.flow && u.live)
    let b' := b.setStc { b.stc with batches := b.stc.batches ++ [t] }
    match flowCancelled b r.flow with
    | some ran => if idle && !ran then batchRace b' t else cancelCount b t 4 false
    | none => if idle then batchReady b' t else b'

/-- The scheduler releases up to `k` of the batches that are due, and no more than 8 in a clock (R119); none while a record is held. -/
def stcPump (m : Mem) : Nat → Blk → Blk
  | 0, b => b
  | k + 1, b =>
    let n := if b.stc.entered.1 = b.now then b.stc.entered.2 else 0
    match b.stc.releasing with
    | [] => b
    | e :: es =>
      if stcHeld b || 8 ≤ n then b
      else stcPump m k (batchRelease m (b.setStc { b.stc with releasing := es, entered := (b.now, n + 1) }) e)

/-- The batches of one run, after the counts per flow so far. -/
def runRelease (b : Blk) (mer frame row : Nat) (acc : List Release × Tab Nat) (e : Nat × PRun) : List Release × Tab Nat :=
  let k0 := Tab.at 0 acc.2 e.2.flow
  let one (i : Nat) : Release :=
    { mer, frame, row, run := e.1, idx := i, base := k0 + 64 * i, buf := stcBuf b, bank := b.stc.bank, prog := b.rdN Reg.STC_PROG_ID, clock := b.now }
  (acc.1 ++ (List.range ((e.2.count + 63) / 64)).map one, Tab.upd 0 acc.2 e.2.flow (k0 + e.2.count))

/-- The release of Row `row` of Meridian `mer` (R119): every run of the Row in run-table order, after what is still to be released. -/
def stcRelease (m : Mem) (mer frame row : Nat) (b : Blk) : Blk :=
  if (stcRun b == 2 || stcRun b == 3) && b.stc.loaded then
    let p := stcBuf b
    let rs := ((List.range (progRunCount m p)).map (fun i => (i, prun m p i))).filter (fun e => e.2.mer == mer && e.2.row == row)
    stcPump m 8 (b.setStc { b.stc with releasing := b.stc.releasing ++ (rs.foldl (runRelease b mer frame row) ([], [])).1 })
  else b

/-- The release of a Row comes about, or waits behind what the trace holds (R141). -/
def stcReleaseOrWait (m : Mem) (mer frame row : Nat) (b : Blk) : Blk :=
  if stcHeld b then
    if stcRun b == 2 || stcRun b == 3 then stcWait b (.release mer frame row) else b
  else stcRelease m mer frame row b

/-! ### Contexts, dispatch and retire (R127, R128) -/

/-- The READY batch whose turn it is: priority, then the order of becoming READY, then flow. -/
def readyHead (b : Blk) : Option Batch :=
  let rs := b.stc.batches.filter (fun t => t.state == .ready)
  (sortOn (fun t => (t.prio : Int)) (sortOn (fun t => (t.readyAt : Int)) (sortOn (fun t => (t.flow : Int)) rs))).head?

/-- The enabled lane with a free context and the fewest ACTIVE batches, the lower number on a tie. -/
def freeLane (b : Blk) : Option Nat :=
  let active (l : Nat) : Nat := (b.stc.batches.filter (fun t => t.state == .active && t.lane == l)).length
  (sortOn (fun l => (active l : Int))
    ((List.range 8).filter (fun l => b.flag Reg.STC_LANE_EN l && (laneBusy b l).length < 4))).head?

/-- The retirement of a batch: counters, slack and busy time, the next of its flow (R126, Table 5-9). -/
def batchRetire (b : Blk) (t : Batch) : Blk :=
  let b := (b.setStc { b.stc with batches := b.stc.batches.filter (fun u => u.id != t.id) }).count Reg.STC_RETIRE_COUNT
  let slack := (deadlineInstant b t.mer t.deadline - merTime b t.mer) / nsUnit
  let b := b.wrN Reg.STC_ROW_SLACK_MIN (min (b.rdN Reg.STC_ROW_SLACK_MIN) slack.toNat)
  let b := b.wrN Reg.STC_ROW_BUSY_MAX (max (b.rdN Reg.STC_ROW_BUSY_MAX) (sat32 (b.now - t.released)))
  flowNext (stcDrained b) t.flow

/-- A READY batch takes a lane context; the ninth of a clock waits (R127). -/
def batchActivate (b : Blk) : Blk :=
  let n := if b.stc.given.1 = b.now then b.stc.given.2 else 0
  if stcHeld b || 8 ≤ n then b
  else
    match readyHead b, freeLane b with
    | some t, some l =>
      let ctx := ((List.range 4).find? (fun c => !(laneBusy b l).contains c)).getD 0
      let b := b.setStc { b.stc with nextSeq := b.stc.nextSeq + 1, given := (b.now, n + 1) }
      putBatch b { t with state := .active, lane := l, ctx, seq := b.stc.nextSeq }
    | _, _ => b

/-- BATCH_ACTIVATE (R127). -/
def execBatchActivate (s : State) : Result := inDom 5 (onBlk batchActivate) s

/-- The node of an ACTIVE batch that may dispatch: the lowest not dispatched, once its inputs have retired (R128). -/
def nextNode (m : Mem) (t : Batch) : Option Nat :=
  let st (i : Nat) : NodeState := Tab.at .waiting t.nodes i
  match (subNodes m t.buf t.sub).find? (fun i => st i == .waiting) with
  | some i =>
    let n := pnode m t.buf i
    if (n.a == 0xFF || st n.a == .retired) && (n.b == 0xFF || st n.b == .retired) then some i else none
  | none => none

/-- LIMIT adds every input component, clamped to full scale, to its set's demand (R157). -/
def limitDemand (b : Blk) (t : Batch) (n : PNode) : Blk :=
  let set := n.word 0 % 64
  let vs := Tab.at [] t.values n.a
  let sum := (vs.map (fun v => (v.map (min lin24)).foldl (· + ·) 0)).foldl (· + ·) 0
  b.setStc { b.stc with demand := Tab.upd 0 b.stc.demand set (Tab.at 0 b.stc.demand set + sum) }

/-- MAT passes a reference Stitch's untrimmed emitter values to the DRIVE sequencer, while that is on (R156). -/
def matRefs (m : Mem) (b : Blk) (t : Batch) (n : PNode) : Blk :=
  (List.range 32).foldl (fun b g =>
    let i := b.fld (Reg.TRIM_t_REF g) 17 0
    if domOn b 8 && t.first ≤ i && i < t.first + t.count then
      let x := atlasEntry m (atlasAddr t.regions i)
      let v := (Tab.at [] t.values n.a).getD (i - t.first) []
      let us := (List.range 8).map (fun e =>
        if e < n.width && e < x.emitters then matUntrimmed m x v e else 0)
      let old := Tab.at ([], 0) b.drv.refs g
      let sum := (List.range 8).map (fun e => old.1.getD e 0 + us.getD e 0)
      { b with drv := { b.drv with refs := Tab.upd ([], 0) b.drv.refs g (sum, old.2 + 1) } }
    else b) b

/-- The earliest ACTIVE batch of lane `l` with a node that may dispatch, and the node. -/
def laneNext (m : Mem) (b : Blk) (l : Nat) : Option (Batch × Nat) :=
  (sortOn (fun t => (t.seq : Int)) (b.stc.batches.filter (fun t => t.state == .active && t.lane == l))).findSome?
    (fun t => (nextNode m t).map (fun i => (t, i)))

/-- Lane `l` begins a node, one in a clock (R128): its values are computed from its inputs, the parameters in effect and the frame's
snapshots. -/
def nodeDispatch (l : Nat) (found : EccResult) (addr : Nat) (m : Mem) (b : Blk) : Blk :=
  if stcHeld b || Tab.at none b.stc.began l == some b.now then b
  else
    match laneNext m b l with
    | none => b
    | some (t, i) =>
      if 24 ≤ laneFlying b l || 192 ≤ stcFlying b then b
      else
        let n := pnode m t.buf i
        let b := eccFound b found addr (0x30 + l) 1
        let st : NodeState := if found = .uncorrectable then .failed else .inFlight
        let b := if n.op = 8 then limitDemand b t n else if n.op = 6 then matRefs m b t n else b
        let t := { t with nodes := Tab.upd .waiting t.nodes i st, values := Tab.upd [] t.values i (nodeEval m b t n) }
        let b := (putBatch b t).count (Reg.STC_LANEl_BUSY l) (computeClocks n)
        let b := b.setStc { b.stc with began := Tab.upd none b.stc.began l (some b.now) }
        let fly := stcFlying b
        let b := b.wrN Reg.STC_INFLIGHT_MAX (max (b.rdN Reg.STC_INFLIGHT_MAX) fly)
        trcBatch b t 2 0 false i fly

/-- NODE_DISPATCH (R128). -/
def execNodeDispatch (lane : Fin 8) (found : EccResult) (addr : BitVec 32) (s : State) : Result :=
  inDom 5 (onView (nodeDispatch lane found addr.toNat)) s

/-! ### Emission (R124, R125, R236) -/

/-- The bytes of Stitch number `j` at EMIT node `n`; MUTE gives zeros (R147). -/
def emitBytes (m : Mem) (t : Batch) (n : PNode) (j : Nat) : List Byte :=
  let x := atlasEntry m (atlasAddr t.regions (t.first + j))
  ((Tab.at [] t.values n.a).getD j []).map (fun v => BitVec.ofNat 8 (if x.mute then 0 else v))

/-- The Atlas port of Stitch number `j`. -/
def emitPort (m : Mem) (t : Batch) (j : Nat) : Nat := (atlasEntry m (atlasAddr t.regions (t.first + j))).port

/-- Consecutive pieces of a byte stream, joined where they meet. -/
def joinSpans (ps : List (Nat × List Byte)) : List (Nat × List Byte) :=
  ps.foldl (fun acc p =>
    match acc.getLast? with
    | some q => if q.1 + q.2.length = p.1 then acc.dropLast ++ [(q.1, q.2 ++ p.2)] else acc ++ [p]
    | none => [p]) []

/-- The Row-stream span of the batch, which its EMIT reports as delivered (R125). -/
def emitSpan (m : Mem) (t : Batch) (n : PNode) : Nat × Nat :=
  let w := (pnode m t.buf n.a).width
  (n.word 1 + t.base * w, t.count * w)

/-- The pieces of it that a strand EMIT writes (R124). -/
def emitSpans (m : Mem) (t : Batch) (n : PNode) : List (Nat × List Byte) :=
  let w := (pnode m t.buf n.a).width
  joinSpans (((List.range t.count).filter (fun j => emitPort m t j == n.word 0 % 32)).map (fun j =>
    (n.word 1 + (t.base + j) * w, emitBytes m t n j)))

/-- The ring has space for every span of the EMIT (R125, R179). -/
def emitFits (m : Mem) (b : Blk) (t : Batch) (n : PNode) : Bool :=
  n.mode != 0 || (emitSpans m t n).all (fun p => ringFree b (n.word 0 % 32) t.frame t.row p.1 p.2.length)

/-- Stitches that the EMIT does not write (R124). -/
def emitSkips (m : Mem) (t : Batch) (n : PNode) : Nat :=
  ((List.range t.count).filter (fun j =>
    if n.mode = 0 then emitPort m t j != n.word 0 % 32
    else if n.mode = 1 then !(32 ≤ emitPort m t j && emitPort m t j < 48) else false)).length

/-- The EMIT of a batch retires: its bytes are placed and reported (R124, R125, R236, R224). -/
def emitDeliver (m : Mem) (b : Blk) (t : Batch) (n : PNode) : Blk × List Host.Cell :=
  let skips := emitSkips m t n
  let b := if skips = 0 then b else stcIrq (b.count Reg.STC_EMIT_SKIP_COUNT skips) 9
  if n.mode = 0 then
    strDeliver b (n.word 0 % 32) t.frame t.row (emitSpan m t n) (emitSpans m t n)
  else if n.mode = 1 then
    let js := (List.range t.count).filter (fun j => 32 ≤ emitPort m t j && emitPort m t j < 48)
    let got := js.map (fun j => (emitPort m t j - 32, t.frame))
    ({ b with drvGot := b.drvGot.filter (fun e => !got.contains e) ++ got.eraseDups },
      js.flatMap (fun j => cellsAt (0x10EA0000 + 0x2000 * (t.frame % 2) + 4 * (emitPort m t j - 32)) ((emitBytes m t n j).take 3)))
  else
    let w := max 1 (pnode m t.buf n.a).width
    let s := 512 / w
    (b, (List.range t.count).flatMap (fun j =>
      let k := t.base + j
      let u := n.word 0 % 2048 + k / s
      if u < 2048 then cellsAt (b.rdN Reg.E131_TX_BASE / 512 * 512 + 512 * u + k % s * w) (emitBytes m t n j) else []))

/-- Node `i` of a batch has completed: it is retired, and with the last node the batch (R126, R128). -/
def nodeDone (m : Mem) (b : Blk) (t : Batch) (i : Nat) : Blk :=
  let t := { t with nodes := Tab.upd .waiting t.nodes i .retired }
  let b := trcBatch (putBatch b t) t 3 0 false i (computeClocks (pnode m t.buf i))
  if (subNodes m t.buf t.sub).all (fun j => Tab.at .waiting t.nodes j == .retired) then batchRetire b t else b

/-- Node `i` of batch `t` completes (R125, R128, R131): the result of a cancelled batch is dropped, an uncorrectable read cancels the
batch, an EMIT without ring space waits in flight. Neither a node whose result is dropped nor one whose read failed writes a RETIRE record
(DESIGN CHOICE, log entry 66). -/
def nodeComplete (m : Mem) (b : Blk) (t : Batch) (i : Nat) : Blk × List Host.Cell :=
  let n := pnode m t.buf i
  let st := Tab.at .waiting t.nodes i
  if st = .waiting || st = .retired then (b, [])
  else if t.state = .cancelled then
    let t := { t with nodes := Tab.upd .waiting t.nodes i .retired }
    (if t.flying = 0 then b.setStc { b.stc with batches := b.stc.batches.filter (fun u => u.id != t.id) } else putBatch b t, [])
  else if st = .failed then
    let t := { t with nodes := Tab.upd .waiting t.nodes i .retired }
    (batchCancel (putBatch b t) t 3, [])
  else if n.op = 12 && !emitFits m b t n then
    (putBatch b { t with nodes := Tab.upd .waiting t.nodes i .ringWait }, [])
  else if n.op = 12 then
    let r := emitDeliver m b t n
    (nodeDone m r.1 t i, r.2)
  else (nodeDone m b t i, [])

/-- NODE_RETIRE (R128): node `i` of the batch in context `c` of lane `l` completes. -/
def nodeRetire (l c i : Nat) (m : Mem) (b : Blk) : Blk × List Host.Cell :=
  if stcHeld b then (b, [])
  else
    match b.stc.batches.find? (fun t => (t.state == .active || t.state == .cancelled) && t.lane == l && t.ctx == c) with
    | some t => nodeComplete m b t i
    | none => (b, [])

/-- NODE_RETIRE (R128). -/
def execNodeRetire (lane : Fin 8) (ctx : Fin 4) (node : Fin 256) (s : State) : Result := inDom 5 (onMem (nodeRetire lane ctx node)) s

/-- The framer has freed ring space: the waiting EMIT of a batch goes on where it fits, and one whose batch is cancelled completes (R125,
R131). -/
def emitRingSpace (id : Nat) (m : Mem) (b : Blk) : Blk × List Host.Cell :=
  if stcHeld b then (b, [])
  else match findBatch b id with
  | some t =>
    match (subNodes m t.buf t.sub).find? (fun i => Tab.at .waiting t.nodes i == .ringWait
        && (!t.live || emitFits m b t (pnode m t.buf i))) with
    | some i => nodeComplete m b t i
    | none => (b, [])
  | none => (b, [])

/-- EMIT_RING_SPACE (R125). -/
def execEmitRingSpace (batch : Nat) (s : State) : Result := inDom 5 (onMem (emitRingSpace batch)) s

/-! ### One fabric clock of the engine (R125 to R128, R141) -/

/-- EMITs that wait for ring space. -/
def emitWaiting (b : Blk) : Nat :=
  ((b.stc.batches.map (fun t => (t.nodes.filter (fun e => e.2 == .ringWait)).length))).foldl (· + ·) 0

/-- A node may dispatch but for the device's limit (R128). -/
def inflightFull (m : Mem) (b : Blk) : Bool :=
  192 ≤ stcFlying b && (List.range 8).any (fun l => laneFlying b l < 24 && (laneNext m b l).isSome)

/-- The clocks that EMITs, held event sources and full limits cost. -/
def stcCounts (m : Mem) (b : Blk) : Blk :=
  let b := b.count Reg.STC_EMIT_WAIT_CYCLES (emitWaiting b)
  let b := if inflightFull m b then b.count Reg.STC_INFLIGHT_FULL_CYCLES else b
  if b.stc.trcHeld.isEmpty then b else b.count Reg.TRC_STALL_CYCLES

end Sys2Proof.Machine
end

