-- ==== Sys2Proof/Machine/Stitch.lean ====
section
/-!
DEFINITION. The Stitch engine's frames and commands (R19, R119, R133 to R139, R142, R148, R156, R157, R166, R167): START_ROW and
START_FRAME, the parameter file, cues and delay lists, program load and swap, the Atlas.
-/
namespace Sys2Proof.Machine

/-! ### The Atlas (R19, R139, R148) -/

/-- The stage of Atlas region `r`. -/
def regionStageOf (b : Blk) (r : Nat) : RegionStage := Tab.at .none b.regionStage r
/-- Region `r` takes stage `x`. -/
def setRegionStage (b : Blk) (r : Nat) (x : RegionStage) : Blk := { b with regionStage := Tab.upd .none b.regionStage r x }

/-- A batch that has neither retired nor been cancelled reads block `k` (R139). -/
def blockRead (b : Blk) (k : Nat) : Bool :=
  b.stc.batches.any (fun t => t.live &&
    (Tab.get id t.regions (t.first / 4096) == k || Tab.get id t.regions ((t.first + t.count - 1) / 4096) == k))

/-- The spare block a write can fill now: the lowest-numbered one that no batch reads. -/
def spareNow (b : Blk) : Option Nat :=
  (sortOn (fun (k : Nat) => (k : Int)) (b.spareBlocks.filter (fun k => !blockRead b k))).head?

/-- The cells by which `len` bytes at `src` are copied to `dst`. -/
def copyCells (m : Mem) (src dst len : Nat) : List Host.Cell :=
  (m.filter (fun c => dst ≤ c.1 && c.1 < dst + len)).map (fun c => (c.1, Mem.dflt c.1))
    ++ (m.filter (fun c => src ≤ c.1 && c.1 < src + len)).map (fun c => (c.1 - src + dst, c.2))

/-- Atlas entries in block `k`, by index in the region. -/
def entryCells (k : Nat) (es : List (Nat × List Byte)) : List Host.Cell :=
  es.flatMap (fun e => cellsAt (atlasBlock k + 16 * e.1) e.2)

/-- The first write to region `r` since its last commit fills spare block `k`: the region is copied there first (R19, Table 12-10). -/
def stageRegion (m : Mem) (b : Blk) (r k : Nat) (es : List (Nat × List Byte)) : Blk × List Host.Cell :=
  (setRegionStage { b with spareBlocks := b.spareBlocks.filter (· != k) } r (.staged k),
    copyCells m (atlasBlock (Tab.get id b.regionBlock r)) (atlasBlock k) 0x10000 ++ entryCells k es)

/-- An ATLAS_COMMIT has named region `r` and is not in effect. -/
def atlasPending (b : Blk) (r : Nat) : Bool := b.atlasCommit.contains r || b.atlasWaiting.any (fun w => w.region == r && w.commitWaits)

/-- ATLAS_WRITE of entries of region `r`: none where two other regions are staged (R19). The spec does not say whether a write to a
region whose commit is pending joins that commit: here it does (DESIGN CHOICE, log entry 65). -/
def atlasPut (m : Mem) (b : Blk) (r : Nat) (es : List (Nat × List Byte)) : Option (Blk × List Host.Cell) :=
  match regionStageOf b r with
  | .staged k => some (b, entryCells k es)
  | .waiting => some ({ b with atlasWaiting := b.atlasWaiting.map (fun w =>
      if w.region = r then { w with entries := w.entries ++ es } else w) }, [])
  | .none =>
    if 2 ≤ b.regionStage.length then none
    else match spareNow b with
      | some k => some (stageRegion m b r k es)
      | none => some (setRegionStage { b with atlasWaiting := b.atlasWaiting ++ [{ region := r, entries := es, commitWaits := false }] }
          r .waiting, [])

/-- A waiting write lands once its spare block is read no more; a commit that waited for it is due (R19, R139). -/
def atlasWriteLand (r : Nat) (m : Mem) (b : Blk) : Blk × List Host.Cell :=
  match b.atlasWaiting.find? (fun w => w.region == r), spareNow b with
  | some w, some k =>
    let b := { b with atlasWaiting := b.atlasWaiting.filter (fun v => v.region != r)
                      atlasCommit := if w.commitWaits then b.atlasCommit ++ [r] else b.atlasCommit }
    stageRegion m b r k w.entries
  | _, _ => (b, [])

/-- ATLAS_WRITE_LAND (R139). -/
def execAtlasWriteLand (region : Fin 64) (s : State) : Result := inDom 1 (onMem (atlasWriteLand region)) s

/-- Emitter channels of the entry at `a` (R148). -/
def entryChannels (m : Mem) (a : Nat) : Nat :=
  let x := atlasEntry m a
  if x.port < 48 then x.emitters else 0

/-- Emitter channels of Atlas block `k` with the waiting entries `es` laid over it (R148). An entry with nothing listed counts 1. -/
def blockChannels (m : Mem) (k : Nat) (es : List (Nat × List Byte)) : Nat :=
  let a := atlasBlock k
  let listed := ((m.filter (fun c => a ≤ c.1 && c.1 < a + 0x10000)).map (fun c => (c.1 - a) / 16)).eraseDups
  let latest (i : Nat) : Option (List Byte) := ((es.filter (fun e => e.1 == i)).getLast?).map (·.2)
  let idx := (listed ++ es.map (·.1)).eraseDups
  let one (i : Nat) : Nat :=
    match latest i with
    | some bs => if leAt bs 4 1 % 64 < 48 then leAt bs 7 1 % 8 + 1 else 0
    | none => entryChannels m (a + 16 * i)
  (idx.map one).foldl (· + ·) 0 + (4096 - idx.length)

/-- Emitter channels of the Atlas after a commit of the regions `rs`, and of those committed before and not yet in effect (R148). -/
def atlasChannels (m : Mem) (b : Blk) (rs : List Nat) : Nat :=
  let rs := rs ++ b.atlasCommit ++ (b.atlasWaiting.filter (·.commitWaits)).map (·.region)
  ((List.range 64).map (fun r =>
    let cur := Tab.get id b.regionBlock r
    if rs.contains r then
      match regionStageOf b r with
      | .staged k => blockChannels m k []
      | .waiting => blockChannels m cur ((b.atlasWaiting.filter (fun w => w.region == r)).flatMap (·.entries))
      | .none => blockChannels m cur []
    else blockChannels m cur [])).foldl (· + ·) 0

/-- ATLAS_COMMIT of regions: those staged are due at the next START_FRAME, those whose write waits after it has landed, the others
are ignored (R19); none where the channels would exceed 1,048,576 (R148). -/
def atlasCommitOf (m : Mem) (b : Blk) (rs : List Nat) : Option Blk :=
  if 1048576 < atlasChannels m b rs then none
  else
    let now := rs.filter (fun r => match regionStageOf b r with | .staged _ => !b.atlasCommit.contains r | _ => false)
    some { b with atlasCommit := b.atlasCommit ++ now
                  atlasWaiting := b.atlasWaiting.map (fun w => if rs.contains w.region then { w with commitWaits := true } else w) }

/-- A write to region `r` that would join its pending commit takes the Atlas over 1,048,576 channels (R148; log entry 65). -/
def atlasOver (m : Mem) (b : Blk) (r : Nat) (es : List (Nat × List Byte)) : Bool :=
  atlasPending b r &&
    (match atlasPut m b r es with
     | some x => decide (1048576 < atlasChannels (m.write x.2) x.1 [])
     | none => false)

/-- Committed regions take their new blocks, and the replaced blocks become spares (R19). -/
def atlasSwitch (b : Blk) : Blk :=
  let b' := b.atlasCommit.foldl (fun b r =>
    match regionStageOf b r with
    | .staged k =>
      setRegionStage { b with regionBlock := Tab.set id b.regionBlock r k
                              spareBlocks := b.spareBlocks ++ [Tab.get id b.regionBlock r] } r .none
    | _ => b) b
  { b' with atlasCommit := [] }

/-! ### Parameters (R133) -/

/-- What a boundary of this clock takes of a staged write: one of an earlier clock, or the one that it has replaced in this clock (R8). -/
def ParamStage.due (x : ParamStage) (now : Nat) : Option (Nat × Nat) := if x.clock < now then some (x.mode, x.value) else x.before

/-- Staged writes with APPLY_AT `mode` take effect, those of this clock at the boundary after (R133, R8). -/
def paramApply (b : Blk) (mode : Nat) : Blk :=
  let one (b : Blk) (e : Nat × Option ParamStage) : Blk :=
    match e.2 with
    | none => b
    | some x =>
      match (x.due b.now).filter (fun d => d.1 == mode) with
      | some d =>
        (b.wrN (Reg.STC_PARAM_i e.1) d.2).setStc
          { b.stc with staged := Tab.upd none b.stc.staged e.1 (if x.clock < b.now then none else some { x with before := none }) }
      | none => b
  b.stc.staged.foldl one b

/-- The parameter writes of this clock. -/
def paramClock (b : Blk) : ParamClock := if b.stc.params.clock = b.now then b.stc.params else { clock := b.now }

/-- A parameter write (R133): NOW takes effect for the nodes of the next clock on, ROW and FRAME are staged and a later staged write
replaces. Within a clock a register write (`reg`) wins over what delay expiries write. -/
def paramPut (b : Blk) (i v mode : Nat) (reg : Bool) : Blk :=
  let pc := paramClock b
  let now := mode == 0
  if !reg && pc.reg.contains (i, now) then b
  else
    let pc := if reg then { pc with reg := (i, now) :: pc.reg } else pc
    if now then
      (b.setStc { b.stc with params := { pc with was := Tab.upd none pc.was i (some (paramSeen b i)) } }).wrN (Reg.STC_PARAM_i i) v
    else
      let before := ((Tab.at none b.stc.staged i).bind (fun x => x.due b.now))
      b.setStc { b.stc with params := pc, staged := Tab.upd none b.stc.staged i (some { mode := min mode 2, value := v, clock := b.now, before }) }

/-- PARAM_WRITE (R133): STC_PARAM_CMD.WRITE with the value in STC_PARAM_DATA. -/
def paramWrite (i mode : Nat) (b : Blk) : Blk := paramPut b i (b.rdN Reg.STC_PARAM_DATA) mode true

/-- PARAM_WRITE (R133). -/
def execParamWrite (index : Fin 1024) (applyAt : Fin 4) (s : State) : Result := inDom 5 (onBlk (paramWrite index applyAt)) s

/-! ### Motif engines (R166, R167) -/

/-- Motif engine `e`. -/
def motifOf (b : Blk) (e : Nat) : MotifLive := Tab.at {} b.stc.motifs e
/-- Motif engine `e` takes `x`. -/
def setMotif (b : Blk) (e : Nat) (x : MotifLive) : Blk := b.setStc { b.stc with motifs := Tab.upd {} b.stc.motifs e x }

/-- The page SELECT names. -/
def motifSelect (m : Mem) (e : Nat) : Nat := w32 m (motifPage e 0) / 2 ^ 31

/-- A MOTIF_STEP (R167): STEP_ADV to T for WAVE 0 to 2; STEP by 1 modulo COUNT for WAVE 3. -/
def motifStep (m : Mem) (b : Blk) (e : Nat) : Blk :=
  let p := motifPage e (motifSelect m e)
  let x := motifOf b e
  if w32 m p % 4 = 3 then setMotif b e { x with step := (x.step + 1) % (bits (w32 m p) 11 8 + 1) }
  else setMotif b e { x with t := (x.t + w32 m (p + 16)) % 2 ^ 64 }

/-- A MOTIF_RUN item or MOTIF_START sets or clears RUNNING (R167). -/
def motifRun (b : Blk) (e : Nat) (on : Bool) : Blk := setMotif b e { motifOf b e with running := on }

/-- The snapshot of one engine at START_FRAME of its Meridian, with its status bytes (R167): T advances by the ticks of the frame that was
processed last. -/
def motifSnapshot (m : Mem) (mer : Nat) (acc : Blk × List Host.Cell) (e : Nat) : Blk × List Host.Cell :=
  let b := acc.1
  let pg := motifSelect m e
  let ctrl := w32 m (motifPage e pg)
  if bits ctrl 6 6 != mer then acc
  else
    let x := motifOf b e
    let x := if bit ctrl 30 && pg != x.page then { x with t := 0, step := 0 } else x
    let x := { x with page := pg, t := if x.running then (x.t + Tab.at 0 b.stc.frameTpf mer) % 2 ^ 64 else x.t }
    let b := setMotif b e x
    let b := b.setStc { b.stc with snap := { b.stc.snap with motifs := Tab.upd (0, 0, 0) b.stc.snap.motifs e (x.t, x.step, pg) } }
    (b, acc.2 ++ cellsAt (motifPage e 0 + 148) (toLE 8 x.t ++ toLE 1 x.step ++ toLE 1 (b2n x.running) ++ toLE 2 0))

/-! ### Frames and Rows (R119, R133, R137, R138, R156, R157) -/

/-- B and D of a budget set (R157): strands from their LIMIT registers, drive channels with their derating D_th (R244). -/
def limitBudget (b : Blk) (set : Nat) : Nat × Nat :=
  if set < 32 then (b.rdN (Reg.STR_n_LIMIT_B set), b.fld (Reg.STR_n_LIMIT_D set) 15 0)
  else (b.rdN (Reg.DRV_c_LIMIT_B (set - 32)), b.fld (Reg.DRV_c_DERATE (set - 32)) 15 0)

/-- Every budget set takes its scale for the frame and its demand restarts (R157). -/
def limitTake (b : Blk) : Blk :=
  let scales := (List.range 48).foldl (fun t s =>
    let x := limitBudget b s
    Tab.upd 65536 t s (limitScale x.1 x.2 (Tab.at 0 b.stc.demand s))) b.stc.snap.scales
  b.setStc { b.stc with demand := [], snap := { b.stc.snap with scales } }

/-- The lanes take the trims of the groups in SENSOR mode; none while DRIVE is off (R155, R156). -/
def trimTake (b : Blk) : Blk :=
  let trims := (List.range 32).foldl (fun t g =>
    let ts := if domOn b 8 && b.flag (Reg.TRIM_t_CTRL g) 0 then
        (List.range 8).map (fun e => b.fld (Reg.TRIM_t_TRIM g (e / 2)) (16 * (e % 2) + 15) (16 * (e % 2)))
      else []
    Tab.upd [] t g ts) b.stc.snap.trims
  b.setStc { b.stc with snap := { b.stc.snap with trims } }

/-- The frame's batches read the bank that each E1.31 universe now presents (R222). -/
def bankTake (b : Blk) : Blk := b.setStc { b.stc with snap := { b.stc.snap with banks := b.e131Bank } }

/-- The staged program takes effect: buffers and Contour banks exchange roles (R137). STC_PROG_STAGED_ID keeps its value though nothing is
staged any more (DESIGN CHOICE, log entry 66). -/
def swapNow (b : Blk) : Blk :=
  if !b.flag Reg.STC_PROG_STATUS 1 then b
  else
    let old := b.stc.loaded && b.stc.batches.any Batch.live
    let b := b.setStc { b.stc with bank := 1 - b.stc.bank, loaded := true }
    let b := ((b.setFlag Reg.STC_PROG_STATUS 1 false).setFld Reg.STC_PROG_STATUS 0 0 b.stc.stagedBuf).setFlag Reg.STC_PROG_STATUS 3 old
    let id := b.rdN Reg.STC_PROG_STAGED_ID
    let b := stcIrq (b.wrN Reg.STC_PROG_ID id) 2
    trcPut b 6 false none (trcBytes b (merPos b (stcMer b)) 6 0 0xFFFF 0xFFFF (32768 * stcMer b) 0xFF 0 0 id id)

/-- The swap of START_FRAME, which waits behind what the trace holds (R141); a program that was STAGED in this very clock waits for the
following one (R137, R8). -/
def programSwap (b : Blk) : Blk :=
  if !b.flag Reg.STC_PROG_STATUS 1 || b.now ≤ b.stc.stagedAt then b
  else if stcHeld b then stcWait b .swap else swapNow b

/-- START_FRAME of the primary Meridian (R133, R137, R138, R156, R157, R19, R222). -/
def primaryFrame (b : Blk) : Blk :=
  let b := bankTake <| trimTake (atlasSwitch (programSwap (limitTake (paramApply b 2))))
  match stcRun b with
  | 1 => b.setFld Reg.STC_STATUS 1 0 2
  | 3 => stcIrq (b.setFld Reg.STC_STATUS 1 0 0) 10
  | _ => b

/-- START_FRAME of Meridian `mer` at position `p` (R82, R119): Motif snapshots, the primary's frame work, then the releases that waited
for it. A withheld START_FRAME does nothing (R72, R79). While STITCH is off nothing happens at it: a committed Atlas region waits for the first
START_FRAME with STITCH on (DESIGN CHOICE, log entry 65). -/
def stitchStartFrame (mer : Nat) (p : Nat × Nat) (m : Mem) (b : Blk) : Blk × List Host.Cell :=
  if merWithheld b mer || !domOn b 5 then (b, [])
  else
    let r := (List.range 64).foldl (motifSnapshot m mer) (b, [])
    let b := if stcMer r.1 = mer then primaryFrame r.1 else r.1
    let wait := b.stc.relWait.filter (fun e => e.1 == mer)
    let b := b.setStc { b.stc with frameAt := Tab.upd none b.stc.frameAt mer (some p)
                                   frameTpf := Tab.upd 0 b.stc.frameTpf mer (merTpf b mer)
                                   relWait := b.stc.relWait.filter (fun e => e.1 != mer) }
    (wait.foldl (fun b e => stcReleaseOrWait m mer e.2.1 e.2.2 b) b, r.2)

/-- An armed START_FRAME entry of Meridian `mer` fires at position `p` and has not taken effect (R119). -/
def frameStartDue (b : Blk) (mer : Nat) (p : Nat × Nat) : Bool :=
  Tab.at none b.stc.frameAt mer != some p && b.wpts.any (fun e =>
    match e.2 with
    | some w => w.armed && w.action = 2 && w.mer = mer &&
        (if w.period = 0 then (w.w0, w.sub) == p
         else p.1 % w.fdiv == w.fphase && w.sub ≤ p.2 && (p.2 - w.sub) % (w.period * 65536) == 0)
    | none => false)

/-- START_ROW of Row `row` at position `p` (R119, R133): ROW parameters take effect and the Row's batches are released, after a
START_FRAME of the same position. A withheld START_ROW releases nothing (R72, R79, R138). -/
def stitchStartRow (mer : Nat) (p : Nat × Nat) (row : Nat) (m : Mem) (b : Blk) : Blk :=
  if merWithheld b mer || !domOn b 5 then b
  else
    let b := if stcMer b = mer then paramApply b 1 else b
    if frameStartDue b mer p then b.setStc { b.stc with relWait := b.stc.relWait ++ [(mer, p.1, row)] }
    else stcReleaseOrWait m mer p.1 row b

/-- What a held event source waited to do (R141). -/
def stcAct (m : Mem) (b : Blk) (a : StcAct) : Blk :=
  match a with
  | .release mer frame row => stcRelease m mer frame row b
  | .deadline id => deadlineCancel id b
  | .flow f => flowCancelNow f b
  | .halt => haltCancel b
  | .swap => swapNow b

/-- What waited comes about in order, until a record is held again (R141). -/
def stcResume (m : Mem) : Nat → Blk → Blk
  | 0, b => b
  | k + 1, b =>
    if !b.stc.trcHeld.isEmpty then b
    else match b.stc.acts with
      | a :: as => stcResume m k (stcAct m (b.setStc { b.stc with acts := as }) a)
      | [] => b

/-- One fabric clock of the engine: what was held, the batches that become READY, and those that are released (R119, R125 to R128, R141). -/
def stcTick (m : Mem) (b : Blk) : Blk :=
  let b := stcResume m b.stc.acts.length b
  if stcHeld b then b else stcPump m 8 (stcPromote b)

/-- A write of STC_CTRL: EN starts and stops release at the next START_FRAME (R138). -/
def stcCtrlWritten (b : Blk) : Blk :=
  let run := stcRun b
  let next := if b.flag Reg.STC_CTRL 0 then (if run = 0 then 1 else if run = 3 then 2 else run)
    else (if run = 1 then 0 else if run = 2 then 3 else run)
  b.setFld Reg.STC_STATUS 1 0 next

/-! ### Cues and delay lists (R134 to R136) -/

/-- A cue fires at position `p` of Meridian `mer`: 0 entered whole, 1 ignored, 2 refused for lack of entries (R135). -/
def cueEnter (mer : Nat) (p : Nat × Nat) (cue : Nat) (m : Mem) (b : Blk) : Blk × Nat :=
  let e := b.rdN Reg.STC_CUE_BASE + 8 * cue
  let n := Mem.le m (e + 4) 2
  if 4095 < cue || n = 0 || 4096 < n then (stcIrq (b.count Reg.STC_CUE_BAD_COUNT) 8, 1)
  else if 4096 < b.stc.delays.length + n then (stcIrq (b.count Reg.STC_DELAY_OVF_COUNT) 6, 2)
  else
    let used := b.stc.delays.map (·.slot)
    let free := ((List.range 4096).filter (fun i => !used.contains i)).take n
    let item (k slot : Nat) : DelayEntry :=
      let a := w32 m e + 16 * k
      let due := normPos (merTpf16 b mer) p.1 (p.2 + 65536 * w32 m a : Nat)
      { slot, mer, frame := due.1, sub := due.2, kind := Mem.le m (a + 4) 1, flags := Mem.le m (a + 5) 1
        target := Mem.le m (a + 6) 2, value := w32 m (a + 8), period := w32 m (a + 12) }
    let ds := b.stc.delays ++ (List.range n).map (fun k => item k (free.getD k 0))
    ((b.setStc { b.stc with delays := ds }).wrN Reg.STC_DELAY_USED ds.length, 0)

/-- STC_CUE (R135): the cue fires at the primary Meridian's position. -/
def stcCue (cue : Nat) (m : Mem) (b : Blk) : Blk := (cueEnter (stcMer b) (merPos b (stcMer b)) cue m b).1

/-- STC_CUE (R135). -/
def execStcCue (cue : Fin 4096) (s : State) : Result := inDom 5 (onView (stcCue cue)) s

/-- A STITCH_CUE Waypoint at position `p`, withheld as R72 and R79 say (R135). -/
def cueAction (mer : Nat) (p : Nat × Nat) (cue : Nat) (m : Mem) (b : Blk) : Blk :=
  if merWithheld b mer || !domOn b 5 then b else (cueEnter mer p cue m b).1

/-- STC_DELAY_FLUSH empties lists without expiring their entries (R134). -/
def delayFlush (m0 m1 : Bool) (b : Blk) : Blk :=
  let ds := b.stc.delays.filter (fun d => if d.mer = 0 then !m0 else !m1)
  (b.setStc { b.stc with delays := ds }).wrN Reg.STC_DELAY_USED ds.length

/-- DELAY_FLUSH (R134). -/
def execDelayFlush (m0 m1 : Bool) (s : State) : Result := inDom 5 (onBlk (delayFlush m0 m1)) s

/-- What an item does at expiry (R136). TARGET counts modulo the number of parameters or engines, and VALUE of a MOTIF_RUN item by its low
bit: the spec gives neither a meaning beyond its range (DESIGN CHOICE, log entry 66). -/
def delayItem (m : Mem) (b : Blk) (d : DelayEntry) : Blk :=
  match d.kind with
  | 1 => paramPut b (d.target % 1024) d.value (d.flags % 4) false
  | 2 =>
    let b := motifStep m b (d.target % 64)
    if d.period = 0 then b
    else
      let due := normPos (merTpf16 b d.mer) d.frame (d.sub + 65536 * d.period : Nat)
      b.setStc { b.stc with delays := b.stc.delays ++ [{ d with frame := due.1, sub := due.2 }] }
  | 3 => motifRun b (d.target % 64) (d.value % 2 == 1)
  | 4 => stcIrq (b.wrN Reg.STC_CUE_TAG (d.value % 65536)) 7
  | _ => b

/-- The earliest entry of a Meridian's list: by due position, then order of insertion (R134). -/
def delayHead (b : Blk) (mer : Nat) : Option DelayEntry :=
  (sortOn (fun d => posDiff (merTpf16 b mer) (d.frame, d.sub) (merPos b mer)) (b.stc.delays.filter (fun d => d.mer == mer))).head?

/-- Its Meridian's position has reached or passed the due position of an entry (R134). -/
def delayDue (b : Blk) (d : DelayEntry) : Bool :=
  decide (posDiff (merTpf16 b d.mer) (d.frame, d.sub) (merPos b d.mer) ≤ 0)

/-- The earliest entry expires, up to four in a clock, once it is due: it is counted and traced and its item acts (R134, R136, R140). -/
def delayExpire (mer : Nat) (m : Mem) (b : Blk) : Blk :=
  if stcHeld b || (b.stc.expired.1 == b.now && 4 ≤ b.stc.expired.2) then b
  else match (delayHead b mer).filter (delayDue b) with
    | none => b
    | some d =>
      let b := b.setStc { b.stc with expired := (b.now, if b.stc.expired.1 = b.now then b.stc.expired.2 + 1 else 1) }
      let b := (b.setStc { b.stc with delays := b.stc.delays.filter (fun x => x.slot != d.slot) }).count Reg.STC_DELAY_EXPIRE_COUNT
      let b := trcPut b 5 false none (trcBytes b (merPos b mer) 5 0 0xFFFF 0xFFFF (32768 * mer) 0xFF 0 0
        (d.slot + 65536 * d.kind) (b.rdN Reg.STC_PROG_ID))
      let b := delayItem m b d
      b.wrN Reg.STC_DELAY_USED b.stc.delays.length

/-- DELAY_EXPIRE (R134). -/
def execDelayExpire (mer : Fin 2) (s : State) : Result := inDom 5 (onView (delayExpire mer)) s

/-! ### Program load (R121, R137) -/

/-- STC_CTRL.LOAD: refused while STAGED, CHECKING or OLD_DRAINING is set, else the check begins (R137). -/
def programLoad (b : Blk) : Blk :=
  if b.fld Reg.STC_PROG_STATUS 3 1 != 0 then
    stcIrq ((b.setFld Reg.STC_PROG_STATUS 15 8 0x0E).setFld Reg.STC_PROG_STATUS 23 16 0) 1
  else (b.setStc { b.stc with stagedBuf := b.fld Reg.STC_PROG_STAGE 0 0 }).setFlag Reg.STC_PROG_STATUS 2 true

/-- PROGRAM_LOAD (R137). -/
def execProgramLoad (s : State) : Result := inDom 5 (onBlk programLoad) s

/-- The 4,096 entries of Contour `c` in the Pool (R18, R150). -/
def contourIn (m : Mem) (c : Nat) : List Nat := (List.range 4096).map (fun i => w32 m (0x10C10000 + 16384 * c + 4 * i) % 2 ^ 24)

/-- The check ends (R121, R137): LOAD_ERR and PROG_ERR; or the Contours go to the inactive bank, STAGED and PROG_READY set. -/
def programCheckDone (m : Mem) (b : Blk) : Blk :=
  if !b.flag Reg.STC_PROG_STATUS 2 then b
  else
    let p := b.stc.stagedBuf
    let b := b.setFlag Reg.STC_PROG_STATUS 2 false
    match progCheck m p (b.fld Reg.STC_PROG_STAGE 29 16) (domOn b 4) with
    | some (e, n) => stcIrq ((b.setFld Reg.STC_PROG_STATUS 15 8 e).setFld Reg.STC_PROG_STATUS 23 16 n) 1
    | none =>
      let cs := (List.range 4).foldl (fun t k =>
        Tab.upd none t (4 * (1 - b.stc.bank) + k) ((progContour m p k).map (contourIn m))) b.stc.contours
      let b := (b.setStc { b.stc with contours := cs, stagedAt := b.now }).wrN Reg.STC_PROG_STAGED_ID (progId m p)
      stcIrq ((b.setFld Reg.STC_PROG_STATUS 23 8 0).setFlag Reg.STC_PROG_STATUS 1 true) 0

/-- PROGRAM_CHECK_DONE (R137). -/
def execProgramCheckDone (s : State) : Result := inDom 5 (onView programCheckDone) s

/-- DISCARD_STAGED drops a staged image or abandons the check (R137). -/
def discardStaged (b : Blk) : Blk := b.setFld Reg.STC_PROG_STATUS 2 1 0

/-- DISCARD_STAGED (R137). -/
def execDiscardStaged (s : State) : Result := inDom 5 (onBlk discardStaged) s

/-- CLR_COUNTS clears the counters and restores STC_ROW_SLACK_MIN (R142). -/
def stcClrCounts (b : Blk) : Blk :=
  (b.zero ((List.range 15).map (fun i => Reg.STC_BATCH_COUNT + 4 * i) ++ (List.range 8).map Reg.STC_LANEl_BUSY)).wrN
    Reg.STC_ROW_SLACK_MIN 0xFFFFFFFF

/-- STC_CLR_COUNTS (R142). -/
def execStcClrCounts (s : State) : Result := inDom 5 (onBlk stcClrCounts) s

/-- A reset or power-off of the STITCH domain clears the engine; its registers reset with the domain (R138). -/
def stcReset (b : Blk) : Blk := b.setStc {}

end Sys2Proof.Machine
end

