-- ==== Sys2Proof/Machine/Alt.lean ====
section
/-!
DEFINITION. Strand ports as DMX512-A and RDM controllers and as DALI-2 application controllers (R208 to R219), and the firmware
control frames and transactions of any port (R206, R211).
-/
namespace Sys2Proof.Machine

/-- The alternate function of port `n` takes `x`. -/
def Blk.setAlt (b : Blk) (n : Nat) (x : AltPort) : Blk := { b with alts := Tab.upd {} b.alts n x }

/-- The port's alternate-function record (Table 8-2). -/
def altRecAt (b : Blk) (n : Nat) : Nat := b.rdN (Reg.STR_n_SURVEY_ADDR n)

/-- The values of bytes 0 to 31 of a record, each clamped to its range (R210). -/
def altRecOf (m : Mem) (a : Nat) : AltRec :=
  { brk := limit 92 176 (Mem.le m a 2), mab := limit 12 255 (Mem.le m (a + 2) 2), idt := Mem.le m (a + 4) 1
    rowdiv := limit 1 255 (Mem.le m (a + 5) 1), keep := limit 100 1000 (Mem.le m (a + 6) 2), flags := Mem.le m (a + 8) 1
    retry := limit 0 7 (Mem.le m (a + 9) 1), rdmBrk := limit 176 352 (Mem.le m (a + 10) 2)
    rdmMab := limit 12 88 (Mem.le m (a + 12) 2), respWait := limit 2800 10000 (Mem.le m (a + 14) 2)
    rdmWait := limit 1 1000 (Mem.le m (a + 16) 2) }

/-- RDM_EN. -/
def AltPort.rdmEn (x : AltPort) : Bool := bit x.cfg.flags 0
/-- MULTI_MASTER. -/
def AltPort.multi (x : AltPort) : Bool := bit x.cfg.flags 1

/-- The port runs its alternate function `f`. -/
def altRuns (b : Blk) (n f : Nat) : Bool := strState b n == 5 && strFunc b n == f

/-- One more in the counter at offset `o` of the record (Table 8-2). -/
def recCount (m : Mem) (b : Blk) (n o : Nat) : List Host.Cell :=
  leCells (altRecAt b n + o) 4 (sat32 (w32 m (altRecAt b n + o) + 1))

/-! ### FUNC (R208 to R210) -/

/-- A FUNC that the device accepts on port `n`. -/
def funcOk (n f : Nat) : Bool := f ≤ 1 || (f == 2 && n < 8)

/-- The levels of TXP, TXN and RXN under FUNC 1 or 2, outside the bits of a packet or frame (R209, Table 8-1). FUNC 1: DI high, DE high
while transmitting, /RE high while EN is clear. FUNC 2: TX_ACT active while the bus is held after a collision (R218), inverted by TX_POL. -/
def altPads (b : Blk) (n : Nat) : Option (Bool × Bool × Bool) :=
  let x := b.alt n
  match strFunc b n with
  | 1 => some (true, x.line == .packet || x.line == .request, !b.flag (Reg.STR_n_CTRL n) 0)
  | 2 => some (x.holdTo.isSome != bit x.cfg.flags 2, false, false)
  | _ => none

/-- The pads take the levels that the port now gives them. -/
def altShow (b : Blk) (n : Nat) : Blk :=
  let p := altPads b n
  if (b.alt n).pads = p then b else (b.setAlt n { b.alt n with pads := p }).emit (.strandPads n p)

/-- A level at STRn_RXP means an active bus (Table 8-1): low, or high where RX_POL is set. -/
def daliActive (b : Blk) (n : Nat) (rxp : Bool) : Bool := rxp == bit (b.alt n).cfg.flags 3

/-- EN set under FUNC 1 or 2: the record is read, the slot buffer cleared, STATE is ALT; a refused FUNC stays OFF (R208, R210,
R212). -/
def altStart (m : Mem) (b : Blk) (n : Nat) : Blk :=
  let f := strFunc b n
  if funcOk n f then
    let x := b.alt n
    let b := b.setAlt n { func := f, cfg := altRecOf m (altRecAt b n), lastBreak := b.now, busDown := x.busDown, busEnd := x.busEnd, pads := x.pads }
    b.setFld (Reg.STR_n_STATUS n) 2 0 5
  else b.setFld (Reg.STR_n_STATUS n) 2 0 0

/-- The port with nothing under way, after `func`: what the record gave last stands, so that TX_POL holds while EN is 0 (R209). -/
def AltPort.stopped (x : AltPort) (func : Nat) : AltPort :=
  { func, cfg := x.cfg, busDown := x.busDown, busEnd := x.busEnd, pads := x.pads }

/-- EN cleared under FUNC 1 or 2. -/
def altStop (b : Blk) (n : Nat) : Blk :=
  let b := b.setAlt n ((b.alt n).stopped (strFunc b n))
  (b.setStr n { b.str n with plans := [] }).clearN (Reg.STR_n_STATUS n) 0x00000107

/-- A write of STR_n_CTRL (R189, R208): FUNC takes effect at once while EN is 0 and in the clock in which EN is cleared. -/
def strCtrlWrite (m : Mem) (b : Blk) (n old : Nat) : Blk :=
  let b := strRangeCheck b n old
  let en := b.flag (Reg.STR_n_CTRL n) 0
  let was := bit old 0
  if was && en then if strFunc b n = 0 then strCtrlWritten b n old else b
  else
    let b := if was then if strFunc b n = 0 then strCtrlWritten b n old else altStop b n else b
    let f := b.fld (Reg.STR_n_CTRL n) 10 8
    let b := if strFunc b n = f then b else b.setAlt n ((b.alt n).stopped f)
    altShow (if en then if f = 0 then strCtrlWritten b n old else altStart m b n else b) n

/-! ### DMX512-A (R212, R213) -/

/-- The slot count. -/
def dmxSlots (b : Blk) (n : Nat) : Nat := limit 1 512 (b.fld (Reg.STR_n_LAYOUT n) 13 0)

/-- START_ROW at a DMX port: the Row's stream is open until its end (R212). -/
def dmxStartRow (mer frame row : Nat) (b : Blk) (n : Nat) : Blk :=
  if altRuns b n 1 && strMer b n == mer && !merWithheld b mer then
    let fin := rowInstant b mer frame row 1
    let line : LinePlan := { ofs := 0, n := dmxSlots b n, launch := fin, deadline := fin, skipped := false }
    let x := b.str n
    b.setStr n { x with plans := x.plans.filter (fun p => !(p.frame == frame && p.row == row)) ++ [{ frame, row, lines := [line] }] }
  else b

/-- The Row that has ended is taken into the slot buffer (R212). -/
def dmxSlotUpdate (m : Mem) (b : Blk) (n frame row : Nat) : Blk :=
  let x := b.str n
  match x.plans.find? (fun p => p.frame == frame && p.row == row) with
  | none => b
  | some p =>
    let inWant (o : Nat) : Bool := p.want.any (fun s => s.1 ≤ o && o < s.1 + s.2)
    let os := List.range (dmxSlots b n)
    let miss := (os.filter (fun o => inWant o && !p.has o)).length
    let slots := os.foldl (fun t o =>
      if p.has o then Tab.upd 0 t o (Mem.byte m (ringBase n + o)).toNat
      else if inWant o then Tab.upd 0 t o (bgByte b n o).toNat else t) (b.alt n).slots
    let b := b.setStr n { x with plans := x.plans.filter (fun q => !(q.frame == frame && q.row == row)) }
    let b := b.setAlt n { b.alt n with slots }
    if miss = 0 then b
    else ((b.count (Reg.STR_n_UNDERRUN n)).count (Reg.STR_n_BG_BYTES n) miss).irq (Reg.STR_n_INT_STATUS n) 4

/-- The fabric clocks of a packet of `k` slots with its break, mark after break and inter-slot mark in microseconds (R213, R214). -/
def dmxClocks (brk mab idt k : Nat) : Nat := 1000 * (brk + mab + k * (44 + idt))

/-- A null start code packet starts its break: it takes the whole slot buffer (R213). -/
def dmxStart (b : Blk) (n : Nat) : Blk :=
  let x := b.alt n
  let brk := if x.rdmEn then max 176 x.cfg.brk else x.cfg.brk
  let bytes := 0#8 :: (List.range (dmxSlots b n)).map (fun o => BitVec.ofNat 8 (Tab.at 0 x.slots o))
  altShow ((b.emit (.dmxTx n brk x.cfg.mab x.cfg.idt bytes)).setAlt n
    { x with line := .packet, lastBreak := b.now, lineEnd := b.now + dmxClocks brk x.cfg.mab x.cfg.idt bytes.length
             notBefore := b.now + 1204000, held := false, late := false }) n

/-- The 16-bit sum of bytes (E1.20). -/
def sum16 (bs : List Byte) : Nat := bs.foldl (fun s x => (s + x.toNat) % 65536) 0

/-- The RDM request starts (R214). -/
def rdmStart (b : Blk) (n : Nat) : Blk :=
  let x := b.alt n
  match x.rdm with
  | some q => altShow ((b.emit (.dmxTx n x.cfg.rdmBrk x.cfg.rdmMab 0 (q.msg ++ toBE 2 (sum16 q.msg)))).setAlt n
      { x with line := .request, lastBreak := b.now, lineEnd := b.now + dmxClocks x.cfg.rdmBrk x.cfg.rdmMab 0 (q.msg.length + 2)
               notBefore := b.now + 1204000, held := false, heldRdm := false }) n
  | none => b

/-- A null start code packet is due (R213, R214). -/
def dmxDue (m : Mem) (b : Blk) (n : Nat) : Blk × List Host.Cell :=
  let x := b.alt n
  match x.line with
  | .response => (b.setAlt n { x with dues := x.dues ++ [b.now] }, [])
  | .idle =>
    if x.rdm.any (·.take) then
      (if b.now < x.notBefore then b.setAlt n { x with held := true, heldRdm := true } else rdmStart b n, recCount m b n 36)
    else if b.now < x.notBefore then (b.setAlt n { x with held := true }, [])
    else (dmxStart b n, [])
  | _ => (b, recCount m b n 36)

/-- A Row start at a DMX port of Meridian `mer`: the Row before is taken, and every ROWDIV Row starts a packet is due (R212, R213). -/
def dmxRowStart (mer : Nat) (m : Mem) (acc : Blk × List Host.Cell) (n : Nat) : Blk × List Host.Cell :=
  let b := acc.1
  if altRuns b n 1 && strMer b n == mer then
    let f := (merPos b mer).1
    let r := merRow b mer
    let b := if r = 0 then dmxSlotUpdate m b n ((f + 2 ^ 32 - 1) % 2 ^ 32) (merRows b mer - 1) else dmxSlotUpdate m b n f (r - 1)
    let x := b.alt n
    let b := b.setAlt n { x with rows := x.rows + 1 }
    if x.rows % x.cfg.rowdiv = 0 then
      let d := dmxDue m b n
      (d.1, acc.2 ++ d.2)
    else (b, acc.2)
  else acc

/-- A packet, or the request in its place, that waited for the spacing of breaks starts (R213, R214); the bus is no longer held after a collision (R218). -/
def altTick (b : Blk) (n : Nat) : Blk :=
  let x := b.alt n
  if x.held && x.line == .idle && x.notBefore ≤ b.now && altRuns b n 1 then if x.heldRdm then rdmStart b n else dmxStart b n
  else match x.holdTo with
    | some t => if t ≤ b.now then altShow (b.setAlt n { x with holdTo := none }) n else b
    | none => b

/-- A packet completes on the line: it is counted as sent (R210, R211, R213). Before its last slot has ended nothing happens. -/
def dmxPacketEnd (n : Nat) (m : Mem) (b : Blk) : Blk × List Host.Cell :=
  let x := b.alt n
  if altRuns b n 1 && x.line == .packet && x.lineEnd ≤ b.now then
    (altShow ((b.setAlt n { x with line := .idle, gapFrom := b.now + 176000 }).count (Reg.STR_n_FRAMES_TX n)) n, recCount m b n 32)
  else (b, [])

/-- DMX_PACKET_END (R213). -/
def execDmxPacketEnd (n : Fin 32) (s : State) : Result := inDom (strDom n) (onMem (dmxPacketEnd n)) s

/-- No packet has started for KEEPALIVE_MS: one starts at once, or as soon as the spacing lets it (R213). -/
def dmxKeepalive (n : Nat) (b : Blk) : Blk :=
  let x := b.alt n
  if altRuns b n 1 && x.line == .idle && x.lastBreak + 1000000 * x.cfg.keep ≤ b.now then
    if b.now < x.notBefore then b.setAlt n { x with held := true } else dmxStart b n
  else b

/-- DMX_KEEPALIVE (R213). -/
def execDmxKeepalive (n : Fin 32) (s : State) : Result := inDom (strDom n) (onBlk (dmxKeepalive n)) s

/-- The packet that fell due during a response starts, 176 µs after it (R213). -/
def dmxLateStart (n : Nat) (m : Mem) (b : Blk) : Blk × List Host.Cell :=
  let x := b.alt n
  if altRuns b n 1 && x.late && x.line == .idle && x.notBefore ≤ b.now then (dmxStart b n, recCount m b n 40) else (b, [])

/-- DMX_LATE_START (R213). -/
def execDmxLateStart (n : Fin 32) (s : State) : Result := inDom (strDom n) (onMem (dmxLateStart n)) s

/-! ### Transactions (R211) -/

/-- The control frame or request has been sent: CTL_BUSY clears, CTL_DONE sets. -/
def ctlDone (b : Blk) (n : Nat) : Blk := (b.setFlag (Reg.STR_n_STATUS n) 8 false).irq (Reg.STR_n_INT_STATUS n) 2

/-- A transaction of port `n` ends: its reply-ring entry, its port counters and its record's counters (R210, R211). -/
def altResult (m : Mem) (b : Blk) (n flags tag rt : Nat) (payload : List Byte) : Blk × List Host.Cell :=
  let b := if bit flags 0 then (b.count (Reg.STR_n_REPLY_TIMEOUT n)).irq (Reg.STR_n_INT_STATUS n) 3 else b
  let b := if bit flags 2 then (b.count (Reg.STR_n_RX_CRC_ERR n)).irq (Reg.STR_n_INT_STATUS n) 8 else b
  let e := replyEntry b n flags 0 tag rt payload
  (e.1, e.2 ++ recCount m b n 44 ++ (if bit flags 0 then recCount m b n 48 else [])
    ++ (if bit flags 3 then recCount m b n 52 else []))

/-! ### RDM (R214, R215) -/

/-- A request block is taken where RDM_EN is set (R214); one that comes while another awaits its response follows that (R211). -/
def rdmTake (n : Nat) (q : RdmReq) (b : Blk) : Blk :=
  let x := b.alt n
  let q := { q with asked := b.now }
  if altRuns b n 1 && x.rdmEn then
    (b.setAlt n (if x.rdm.isSome then { x with rdmNext := some q } else { x with rdm := some q })).setFlag (Reg.STR_n_STATUS n) 8 true
  else b

/-- GO under FUNC 1 with RDM_EN: the request block is taken (R214). -/
def rdmGo (n : Nat) (m : Mem) (b : Blk) : Blk :=
  let a := b.rdN (Reg.STR_n_CTL_ADDR n)
  rdmTake n { tag := Mem.le m a 2, kind := Mem.le m (a + 2) 1, addr := w32 m (a + 4)
              msg := Mem.bytes m (a + 8) (limit 24 255 (Mem.le m (a + 3) 1)) } b

/-- The fabric clocks up to the next null start code packet: that of the next due Row start, or of the keep-alive while the Meridian is
OFF (R213). -/
def dmxGap (b : Blk) (n : Nat) : Nat :=
  let x := b.alt n
  let mer := strMer b n
  if merState b mer = 0 then x.lastBreak + 1000000 * x.cfg.keep - b.now
  else
    let k := merRow b mer + 1 + (x.cfg.rowdiv - x.rows % x.cfg.rowdiv) % x.cfg.rowdiv
    let due := rowInstant b mer (((merPos b mer).1 + k / merRows b mer) % 2 ^ 32) (k % merRows b mer) 0
    ((due - merTime b mer) / nsUnit).toNat

/-- The gap lets a request of `k` bytes start now: 176 µs after the packet before, with time for it and for RESP_WAIT_US (R214). -/
def rdmFits (b : Blk) (n k : Nat) : Bool :=
  let x := b.alt n
  x.gapFrom ≤ b.now && x.notBefore ≤ b.now && dmxClocks x.cfg.rdmBrk x.cfg.rdmMab 0 k + 1000 * x.cfg.respWait ≤ dmxGap b n

/-- The request starts in a gap that is long enough; in another it does not (R214). -/
def rdmRequestStart (n : Nat) (b : Blk) : Blk :=
  match (b.alt n).rdm with
  | some q => if altRuns b n 1 && (b.alt n).line == .idle && rdmFits b n (q.msg.length + 2) then rdmStart b n else b
  | none => b

/-- RDM_REQUEST_START (R214). -/
def execRdmRequestStart (n : Fin 32) (s : State) : Result := inDom (strDom n) (onBlk (rdmRequestStart n)) s

/-- No gap has come within RDM_WAIT_MS: the request takes the place of the next due packet (R214). -/
def rdmWaitExpiry (n : Nat) (b : Blk) : Blk :=
  let x := b.alt n
  match x.rdm with
  | some q =>
    if x.line = .request || x.line = .response || b.now < q.asked + 1000000 * x.cfg.rdmWait then b
    else b.setAlt n { x with rdm := some { q with take := true } }
  | none => b

/-- RDM_WAIT_EXPIRY (R214). -/
def execRdmWaitExpiry (n : Fin 32) (s : State) : Result := inDom (strDom n) (onBlk (rdmWaitExpiry n)) s

/-- The transaction leaves the line, which stays quiet for 176 µs; packets that fell due follow R213. -/
def rdmLeave (m : Mem) (b : Blk) (n : Nat) (respStart : Option Nat) : Blk × List Host.Cell :=
  let x := b.alt n
  let late := match respStart with | some t => x.dues.any (fun d => t ≤ d) | none => false
  let skips := match respStart with | some t => (x.dues.filter (fun d => d < t)).length | none => x.dues.length
  (b.setAlt n { x with line := .idle, rdm := x.rdmNext, rdmNext := none, dues := [], late, notBefore := max x.notBefore (b.now + 176000)
                       gapFrom := b.now + 176000 },
    if skips = 0 then [] else leCells (altRecAt b n + 36) 4 (sat32 (w32 m (altRecAt b n + 36) + skips)))

/-- DE falls 4 µs after the request: CTL_DONE; a broadcast is complete, the others await their response (R215). -/
def rdmRequestEnd (n : Nat) (m : Mem) (b : Blk) : Blk × List Host.Cell :=
  let x := b.alt n
  match x.rdm with
  | some q =>
    if x.line = .request && x.lineEnd + 4000 ≤ b.now then
      let b := (ctlDone (altShow (b.setAlt n { x with reqEnd := x.lineEnd, line := .response }) n) n).count (Reg.STR_n_FRAMES_TX n)
      if q.kind = 1 then
        let r := altResult m b n 0 q.tag 0 []
        let l := rdmLeave m r.1 n none
        (l.1, r.2 ++ l.2)
      else (b, [])
    else (b, [])
  | none => (b, [])

/-- RDM_REQUEST_END (R215). -/
def execRdmRequestEnd (n : Fin 32) (s : State) : Result := inDom (strDom n) (onMem (rdmRequestEnd n)) s

/-- A response is well formed (R215): the length its message length field gives, and its checksum. -/
def rdmGood (bs : List Byte) : Bool :=
  let l := leAt bs 2 1
  bs.length == l + 2 && beAt bs l 2 == sum16 (bs.take l)

/-- A discovery response is well formed (R215; the encoding of E1.20, log entry 29): after the separator 0xAA each byte stands as two,
one or 0xAA and one or 0x55; six bytes of the unique ID and their checksum. -/
def rdmDiscGood (bs : List Byte) : Bool :=
  let d (i : Nat) : Nat := leAt bs (1 + 2 * i) 1 &&& leAt bs (2 + 2 * i) 1
  17 ≤ bs.length && leAt bs 0 1 == 0xAA
    && (List.range 8).all (fun i => leAt bs (1 + 2 * i) 1 == (d i ||| 0xAA) && leAt bs (2 + 2 * i) 1 == (d i ||| 0x55))
    && d 6 * 256 + d 7 == sum16 (slice bs 1 12)

/-- The FLAGS of a response (Table 8-5). -/
def rdmFlags (kind : Nat) (bs : List Byte) (framed : Bool) : Nat :=
  if kind = 2 then if framed && rdmDiscGood bs then 16 else 24
  else if !framed then 8 else if rdmGood bs then 0 else 4

/-- No response within RESP_WAIT_US of the request's end (R215). -/
def rdmResponseTimeout (n : Nat) (m : Mem) (b : Blk) : Blk × List Host.Cell :=
  let x := b.alt n
  match x.rdm with
  | some q =>
    if x.line = .response && x.reqEnd + 1000 * x.cfg.respWait ≤ b.now then
      let r := altResult m b n (if q.kind = 2 then 17 else 1) q.tag 0 []
      let l := rdmLeave m r.1 n none
      (l.1, r.2 ++ l.2)
    else (b, [])
  | none => (b, [])

/-- A response completes: it goes to RESP_ADDR and its result to the reply ring (R214, R215); one that started after RESP_WAIT_US is none,
and the result is TIMEOUT. -/
def rdmResponseRx (n : Nat) (bs : List Byte) (framed : Bool) (rt : Nat) (m : Mem) (b : Blk) : Blk × List Host.Cell :=
  let x := b.alt n
  match x.rdm with
  | some q =>
    if 4000 * x.cfg.respWait < rt then rdmResponseTimeout n m b
    else if x.line = .response then
      let r := altResult m (b.count (Reg.STR_n_RX_FRAMES n)) n (rdmFlags q.kind bs framed) q.tag rt bs
      let l := rdmLeave m r.1 n (some (x.reqEnd + rt / 4))
      (l.1, cellsAt q.addr (bs.take 260) ++ r.2 ++ l.2)
    else (b, [])
  | none => (b, [])

/-- RDM_RESPONSE_RX (R215). -/
def execRdmResponseRx (n : Fin 32) (bytes : List Byte) (framed : Bool) (rt : BitVec 32) (s : State) : Result :=
  inDom (strDom n) (onMem (rdmResponseRx n bytes framed rt.toNat)) s

/-- RDM_RESPONSE_TIMEOUT (R215). -/
def execRdmResponseTimeout (n : Fin 32) (s : State) : Result := inDom (strDom n) (onMem (rdmResponseTimeout n)) s

/-! ### DALI-2 (R216 to R219) -/

/-- A request block is taken under FUNC 2 (R217); one that comes while another awaits its answer follows that (R211). -/
def daliTake (n : Nat) (q : DaliReq) (b : Blk) : Blk :=
  let x := b.alt n
  if altRuns b n 2 then
    (b.setAlt n (if x.dali.isSome then { x with daliNext := some q } else { x with dali := some q })).setFlag (Reg.STR_n_STATUS n) 8 true
  else b

/-- GO under FUNC 2: the request block is taken (R217). -/
def daliGo (n : Nat) (m : Mem) (b : Blk) : Blk :=
  let a := b.rdN (Reg.STR_n_CTL_ADDR n)
  daliTake n { tag := Mem.le m a 2, flags := Mem.le m (a + 2) 1, frame := Mem.le m (a + 4) 3 } b

/-- STR_n_CTL_CMD.GO (R206, R211): ignored while CTL_BUSY is set. -/
def ctlGo (n : Nat) (m : Mem) (b : Blk) : Blk :=
  if b.flag (Reg.STR_n_STATUS n) 8 then b
  else match strFunc b n with
    | 0 => itrenCtlGo n m b
    | 1 => rdmGo n m b
    | 2 => daliGo n m b
    | _ => b

/-- CTL_GO (R211). -/
def execCtlGo (n : Fin 32) (s : State) : Result := inDom (strDom n) (onView (ctlGo n)) s

/-- The bytes of a forward frame: 16 or 24 bits, sent from the top (R216). -/
def daliBytes (q : DaliReq) : List Byte := if bit q.flags 0 then toBE 3 q.frame else toBE 2 (q.frame % 65536)

/-- The fabric clocks of a forward frame: a start bit and 16 or 24 bits of two half-bits of 416.67 µs (R216). -/
def daliClocks (q : DaliReq) : Nat := ((if bit q.flags 0 then 24 else 16) + 1) * 833340

/-- The least settling time of a forward frame in fabric clocks (R217, Table 8-7): the second of two has priority 1. -/
def daliSettle (q : DaliReq) (second afterForward : Bool) : Nat :=
  if afterForward then 100000 * [135, 149, 163, 179, 195].getD (if second then 0 else limit 1 5 (bits q.flags 5 3) - 1) 195
  else 2400000

/-- The settling time of request `q` is over, and the bus is free for it (R217, R218). -/
def daliSettled (b : Blk) (x : AltPort) (q : DaliReq) (second : Bool) : Bool :=
  x.holdTo.isNone && (match x.busEnd with
    | some (t, fwd) => decide (t + daliSettle q second fwd ≤ b.now)
    | none => true)

/-- The DALI transaction ends with a result (R211, R217); CTL_DONE came before where it was in its answer window. -/
def daliEnd (m : Mem) (b : Blk) (n : Nat) (q : DaliReq) (flags rt : Nat) (payload : List Byte) : Blk × List Host.Cell :=
  let b := if q.phase = 2 then b else ctlDone b n
  altResult m (b.setAlt n { b.alt n with dali := (b.alt n).daliNext, daliNext := none }) n flags q.tag rt payload

/-- The forward frame starts after its settling time, before which nothing happens (R217); in multi-master mode the command comes after a
settling time drawn from the priority's range. The second of two that starts more than 100 ms after the first ends in COLLISION. -/
def daliForwardStart (n : Nat) (m : Mem) (b : Blk) : Blk × List Host.Cell :=
  let x := b.alt n
  match x.dali with
  | some q =>
    if !altRuns b n 2 || x.busDown || q.phase = 2 then (b, [])
    else if q.phase = 1 && !(bit q.flags 2 && !q.second) then (b, [])
    else
      let second := q.phase = 1 || q.second
      if !daliSettled b x q second then (b, [])
      else if second && q.first + 100000000 < b.now then daliEnd m b n q 8 0 []
      else
        let q := { q with phase := 1, second := second, first := if second then q.first else b.now }
        let fin := b.now + daliClocks q
        (((b.emit (.daliTx n (daliBytes q))).count (Reg.STR_n_FRAMES_TX n)).setAlt n
          { x with dali := some q, reqEnd := fin, busEnd := some (fin, true) }, [])
  | none => (b, [])

/-- DALI_FORWARD_START (R217). -/
def execDaliForwardStart (n : Fin 8) (s : State) : Result := inDom (strDom n) (onMem (daliForwardStart n)) s

/-- A frame on the DALI bus has ended in fabric clock `t` (R217). -/
def daliFrameOver (b : Blk) (n t : Nat) (fwd : Bool) : Blk := b.setAlt n { b.alt n with busEnd := some (t, fwd) }

/-- The answer window, 12.4 ms from the last bit of the forward frame, ends without a start (R217). -/
def daliAnswerTimeout (n : Nat) (m : Mem) (b : Blk) : Blk × List Host.Cell :=
  match (b.alt n).dali with
  | some q =>
    if altRuns b n 2 && q.phase != 0 && bit q.flags 1 && (b.alt n).reqEnd + 12400000 ≤ b.now then
      daliEnd m (daliFrameOver b n (b.alt n).reqEnd false) n q 1 0 []
    else (b, [])
  | none => (b, [])

/-- DALI_ANSWER_TIMEOUT (R217). -/
def execDaliAnswerTimeout (n : Fin 8) (s : State) : Result := inDom (strDom n) (onMem (daliAnswerTimeout n)) s

/-- A backward frame that starts in the answer window, 2.4 ms to 12.4 ms after the forward frame: the answer, or CRC_BAD where it is
malformed (R217). One outside the window answers nothing. -/
def daliBackwardRx (n : Nat) (byte : Byte) (valid : Bool) (rt : Nat) (m : Mem) (b : Blk) : Blk × List Host.Cell :=
  match (b.alt n).dali with
  | some q =>
    if altRuns b n 2 && q.phase != 0 && bit q.flags 1 && 9600000 ≤ rt && rt ≤ 49600000 then
      let b := daliFrameOver (b.count (Reg.STR_n_RX_FRAMES n)) n b.now false
      if valid then daliEnd m b n q 0 rt [byte] else daliEnd m b n q 4 rt []
    else (b, [])
  | none => (b, [])

/-- DALI_BACKWARD_RX (R217). -/
def execDaliBackwardRx (n : Fin 8) (byte : Byte) (valid : Bool) (rt : BitVec 32) (s : State) : Result :=
  inDom (strDom n) (onMem (daliBackwardRx n byte valid rt.toNat)) s

/-- The port stops its frame and holds the bus active for 1.3 ms, after which the settling time runs (R218). -/
def daliStop (b : Blk) (n : Nat) : Blk :=
  let t := b.now + 1300000
  altShow ((b.setAlt n { b.alt n with holdTo := some t, busEnd := some (t, true) }).emit (.daliStop n)) n

/-- A sample of RX, `rxp` at the pad, where the port drives idle (R218). An active bus is a collision: the frame stops; in multi-master mode
it is retried from the start DALI_RETRY times, in single-master mode COLLISION is reported at once. -/
def daliCollision (n : Nat) (rxp : Bool) (m : Mem) (b : Blk) : Blk × List Host.Cell :=
  let x := b.alt n
  match x.dali with
  | some q =>
    if !altRuns b n 2 || q.phase != 1 || !daliActive b n rxp then (b, [])
    else
      let b := daliStop b n
      if x.multi && q.tries < x.cfg.retry then
        (b.setAlt n { b.alt n with dali := some { q with tries := q.tries + 1, phase := 0, second := false } }, [])
      else daliEnd m b n q 8 0 []
  | none => (b, [])

/-- DALI_COLLISION (R218). -/
def execDaliCollision (n : Fin 8) (rxp : Bool) (s : State) : Result := inDom (strDom n) (onMem (daliCollision n rxp)) s

/-- A valid forward frame of another sender: HEARD; in multi-master mode a reply-ring entry, with the frame in PAYLOAD low byte first as R4 has it; a settling time starts again (R219). -/
def daliFrameHeard (n : Nat) (bits24 : Bool) (frame : Nat) (m : Mem) (b : Blk) : Blk × List Host.Cell :=
  if altRuns b n 2 then
    let b := daliFrameOver (b.count (Reg.STR_n_RX_FRAMES n)) n b.now true
    let c := recCount m b n 56
    if (b.alt n).multi then
      let e := replyEntry b n 32 0 0 0 (if bits24 then toLE 3 frame else toLE 2 (frame % 65536))
      (e.1, e.2 ++ c)
    else (b, c)
  else (b, [])

/-- DALI_FRAME_HEARD (R219). -/
def execDaliFrameHeard (n : Fin 8) (bits24 : Bool) (frame : BitVec 24) (s : State) : Result :=
  inDom (strDom n) (onMem (daliFrameHeard n bits24 frame.toNat)) s

/-- RX has been active for 500 ms: BUS_DOWN, and waiting transactions end in COLLISION (R219). -/
def daliBusDown (n : Nat) (rxp : Bool) (m : Mem) (b : Blk) : Blk × List Host.Cell :=
  if altRuns b n 2 && daliActive b n rxp then
    let b := b.setAlt n { b.alt n with busDown := true }
    let c := cellsAt (altRecAt b n + 60) [BitVec.ofNat 8 1]
    let fin (r : Blk × List Host.Cell) : Blk × List Host.Cell :=
      match (r.1.alt n).dali with
      | some q => let e := daliEnd (m.write r.2) r.1 n q 8 0 []; (e.1, r.2 ++ e.2)
      | none => r
    let r := fin (fin (b, []))
    (r.1, r.2 ++ c)
  else (b, [])

/-- DALI_BUS_DOWN (R219). -/
def execDaliBusDown (n : Fin 8) (rxp : Bool) (s : State) : Result := inDom (strDom n) (onMem (daliBusDown n rxp)) s

/-- 2.45 ms of idle: BUS_DOWN clears (R219), and a frame being sent has ended (R216): the second of two follows, the answer window
opens, or the transaction is complete. -/
def daliBusIdle (n : Nat) (rxp : Bool) (m : Mem) (b : Blk) : Blk × List Host.Cell :=
  if altRuns b n 2 && !daliActive b n rxp then
    let x := b.alt n
    let c := if x.busDown then cellsAt (altRecAt b n + 60) [0#8] else []
    let b := b.setAlt n { x with busDown := false }
    match x.dali with
    | some q =>
      if q.phase = 1 && x.reqEnd + 2450000 ≤ b.now then
        if bit q.flags 2 && !q.second then (b.setAlt n { b.alt n with dali := some { q with phase := 0, second := true } }, c)
        else if bit q.flags 1 then (ctlDone (b.setAlt n { b.alt n with dali := some { q with phase := 2 } }) n, c)
        else
          let r := daliEnd m b n q 0 0 []
          (r.1, r.2 ++ c)
      else (b, c)
    | none => (b, c)
  else (b, [])

/-- DALI_BUS_IDLE (R219). -/
def execDaliBusIdle (n : Fin 8) (rxp : Bool) (s : State) : Result := inDom (strDom n) (onMem (daliBusIdle n rxp)) s

end Sys2Proof.Machine
end

