-- ==== Sys2Proof/Machine/Bus.lean ====
section
/-!
DEFINITION. Where the addresses of the DMA engine's requester lead (R326, R332). What host memory returns is an operand of the
command that reads it; what is written to it leaves as `Output.hostWrite`.
-/
namespace Sys2Proof.Machine

/-- The target of a 64-bit address. -/
inductive BusTarget where
  | mem (a : Nat)
  | host (a : Nat)
  | error
  deriving DecidableEq, Repr

/-- The host can be reached: HOST is on, PCIe is selected and its link is up (R332). -/
def hostUp (b : Blk) : Bool := domOn b 9 && b.flag Reg.HST_STATUS 1 && !b.flag Reg.HST_STATUS 0

/-- The host address behind the outbound window (R326). -/
def outbound (b : Blk) (a : Nat) : Option Nat :=
  let k := (a - 0x80000000) / 2 ^ 29
  if b.flag (Reg.HST_OBk_BASE_LO k) 0 then
    some (b.rdN (Reg.HST_OBk_BASE_HI k) * 2 ^ 32 + b.fld (Reg.HST_OBk_BASE_LO k) 31 29 * 2 ^ 29 + a % 2 ^ 29)
  else none

/-- The SRAM array that an address lies in (Table 1-5, R376). -/
def arrayAt (a : Nat) : Option SramArray :=
  if 0x08000000 ≤ a && a < 0x08800000 then some .firmwareSram
  else if 0x10000000 ≤ a && a < 0x11000000 then some .pool
  else if 0x20000000 ≤ a && a < 0x23000000 then some .canvasStore
  else if 0x50000000 ≤ a && a < 0x50004040 then some .retained
  else none

/-- The array of an address is being wiped, and no requester reaches it (R375). -/
def wipedAt (b : Blk) (a : Nat) : Bool :=
  match arrayAt a with
  | some x => b.wiping.contains x
  | none => false

/-- The target of one address (R13, R14, R332, R375), the backup registers with retained memory (R376); the ROM is the fabric's alone
(`fabRead`). -/
def busAt (b : Blk) (write : Bool) (a : Nat) : BusTarget :=
  if 2 ^ 32 ≤ a then (if hostUp b then .host a else .error)
  else if 0x80000000 ≤ a then
    match outbound b a with
    | some h => if hostUp b then .host h else .error
    | none => .error
  else if memHas a && !(write && decide (0x60000000 ≤ a)) && (decide (a < 0x20000000) || decide (0x23000000 ≤ a) || domOn b 4)
      && !wipedAt b a then .mem a else .error

/-- The `k` bytes from `a` on, cut where an outbound window or the host's own address space begins: each window translates its own part. -/
def busParts (a k : Nat) : List (Nat × Nat) :=
  (List.range ((a + (k - 1)) / 2 ^ 29 - a / 2 ^ 29 + 1)).map (fun i =>
    let lo := max a ((a / 2 ^ 29 + i) * 2 ^ 29)
    (lo, min (a + k) ((a / 2 ^ 29 + i + 1) * 2 ^ 29) - lo))

/-- The target of a part: an error where either end is one. -/
def busPart (b : Blk) (write : Bool) (a k : Nat) : BusTarget :=
  match busAt b write (a + (k - 1)) with
  | .error => .error
  | _ => busAt b write a

/-- No part of the `k` bytes from `a` on answers with an error. -/
def busReach (b : Blk) (write : Bool) (a k : Nat) : Bool := (busParts a k).all (fun p => busPart b write p.1 p.2 != .error)

/-- How many of the `k` bytes from `a` on the host returns. -/
def busFromHost (b : Blk) (a k : Nat) : Nat :=
  ((busParts a k).map (fun p => match busPart b false p.1 p.2 with
    | .host _ => p.2
    | _ => 0)).sum

/-- A read: the bytes (none for an error), and what is left of what the host returns. -/
def busRead (m : Mem) (b : Blk) (a k : Nat) (host : List Byte) : Option (List Byte) × List Byte :=
  if !busReach b false a k then (none, host)
  else
    let r := (busParts a k).foldl (fun (r : List Byte × List Byte) p =>
      match busPart b false p.1 p.2 with
      | .mem a => (r.1 ++ m.bytes a p.2, r.2)
      | _ => (r.1 ++ slice r.2 0 p.2, r.2.drop p.2)) ([], host)
    (some r.1, r.2)

/-- Some of the `k` bytes at `a` lie in the half of firmware SRAM that is write-protected (R394). -/
def protectedAt (b : Blk) (a k : Nat) : Bool :=
  match b.fwu.protect with
  | some h => decide (a < 0x08400000 + 0x400000 * h) && decide (0x08000000 + 0x400000 * h < a + k)
  | none => false

/-- A write: cells of memory, or an output to the host; nothing where the target answers with an error, which a write to the
protected half does, setting PROTECT_VIOL (R394). -/
def busWrite (r : Blk × List Host.Cell) (a : Nat) (bs : List Byte) : Blk × List Host.Cell :=
  if protectedAt r.1 a bs.length then (r.1.irq Reg.FWU_INT_STATUS 3, r.2)
  else if !busReach r.1 true a bs.length then r
  else (busParts a bs.length).foldl (fun r p =>
    match busPart r.1 true p.1 p.2 with
    | .host h => (r.1.emit (.hostWrite h (slice bs (p.1 - a) p.2)), r.2)
    | _ => (r.1, r.2 ++ cellsAt p.1 (slice bs (p.1 - a) p.2))) r

/-- Whether an access to `k` bytes at `a` succeeds. -/
def busOk (b : Blk) (write : Bool) (a k : Nat) : Bool := busReach b write a k && !(write && protectedAt b a k)

end Sys2Proof.Machine
end

