-- ==== Sys2Proof/Machine/RecNet.lean ====
section
/-!
DEFINITION. The Cartouche (R407), and what the ROM in recovery mode takes of the frames that arrive at T0 (R398, R400).
-/
namespace Sys2Proof.Machine

/-- Bytes 0 to 27 of the Cartouche: those of the device, and REVISION 0x0A1 for A1 (R2, Table 15-13). -/
def cartBody : List Byte := (List.range 24).map (fun i => if i = 11 then 0#8 else Config.cartByte i) ++ toLE 2 0x0A1 ++ toLE 2 0

/-- The Cartouche, written to OTP at test with a good CRC (R407, Table 15-13). -/
def cartouche : List Byte := cartBody ++ toLE 4 (crc32 cartBody)

/-- Word `i` of the Cartouche. -/
def cartWord (i : Nat) : Nat := leAt cartouche (4 * i) 4

/-- UNIQUE_ID. -/
def uniqueId : Nat := leAt cartouche 16 8
/-- The ROM's MAC address. -/
def recMac : Nat := 0x020000000000 + uniqueId % 2 ^ 40
/-- The ROM's IPv4 address: the option word's, or the link-local one. -/
def recIp (b : Blk) : Nat :=
  if b.rdN Reg.FWU_REC_IP != 0 then b.rdN Reg.FWU_REC_IP
  else 0xA9FE0000 + 256 * (1 + uniqueId / 256 % 256 % 254) + (1 + uniqueId % 256 % 254)

/-- A message to the ROM: its source, TYPE, BLOCK and data; none where it is dropped (R400). -/
def recParse (b : Blk) (f : List Byte) : Option ((Nat × Nat × Nat) × Nat × Nat × List Byte) :=
  (udpOf f).bind fun u =>
    let p := u.payload
    let n := leAt p 4 2
    if b.pwr.stage = .recovery && u.dport == 47744 && u.dstIp == recIp b && leAt p 0 1 == 0xEC && decide (n ≤ 1024)
        && decide (n + 12 ≤ p.length) && crc32 (p.take (8 + n)) == leAt p (8 + n) 4 then
      some (((ethOf f).src, u.srcIp, u.sport), leAt p 1 1, leAt p 2 2, slice p 8 n)
    else none

/-- An ARP request for the ROM's address (the layout is RFC 826's, log entry 18). -/
def recAsks (b : Blk) (f : List Byte) : Bool :=
  let e := ethOf f
  let p := f.drop e.off
  b.pwr.stage = .recovery && e.etype == 0x0806 && beAt p 0 8 == 0x0001080006040001 && beAt p 24 4 == recIp b

/-- The ROM takes the frame: an ARP request for its address, or a message; it handles no other protocol (R400). -/
def recTakes (b : Blk) (f : List Byte) : Bool := recAsks b f || (recParse b f).isSome

end Sys2Proof.Machine
end

