-- ==== Sys2Proof/Machine/Trunk.lean ====
section
/-!
DEFINITION. The trunk (R255 to R278): frames received and sent, links, tables, receive and transmit rings, ring protection.
-/
namespace Sys2Proof.Machine

/-! ### Rings (R276 to R278) -/

/-- Ring `i` beside its registers. -/
def ringOf (b : Blk) (i : Nat) : RingState := Tab.at {} b.trk.rings i
/-- Ring `i` takes `r`. -/
def setRing (b : Blk) (i : Nat) (r : RingState) : Blk := b.setTrk { b.trk with rings := Tab.upd {} b.trk.rings i r }

/-- The ring that port `p` is a port of. -/
def ringOfPort (b : Blk) (p : Nat) : Option Nat := [0, 1].find? (fun i => ringSt b i != 0 && (ringA b i == p || ringB b i == p))

/-- The other ring port of ring `i`. -/
def ringOther (b : Blk) (i p : Nat) : Nat := if ringA b i = p then ringB b i else ringA b i

/-- The learned entries of the ring ports are flushed, which counts (R277, R278). -/
def ringFlush (b : Blk) (i : Nat) : Blk :=
  (fdbForget b (fun p => p == ringA b i || p == ringB b i)).count (Reg.TRK_RINGi_FLUSHES i)

/-- A ring frame of this device (Table 10-8); the source address is a free value, since the spec states none (log entry 33). -/
def ringBytes (b : Blk) (i kind state flags : Nat) : List Byte :=
  toBE 6 0x030000007740 ++ toBE 6 (Config.freeValue b.freeCount) ++ toBE 2 0x88B5
    ++ toLE 1 1 ++ toLE 1 1 ++ toLE 1 (b.fld (Reg.TRK_RINGi_CTRL i) 11 8) ++ toLE 1 kind ++ toLE 2 b.deviceId
    ++ toLE 1 state ++ toLE 1 flags ++ toLE 4 (ringOf b i).seq ++ List.replicate 34 0#8

/-- A ring frame leaves by the ports `ps` in queue 7 (R276). -/
def ringSend (b : Blk) (i kind flags : Nat) (ps : List Nat) : Blk :=
  let f := ringBytes b i kind (if kind = 0 then b2n (ringSt b i == 2) else 0) flags
  let r := ringOf b i
  trkSend (setRing b.drawn i { r with seq := (r.seq + 1) % 2 ^ 32 }) 7 f (some ps)

/-- A ring's status field takes `v`; the ports' states follow. -/
def ringPut (b : Blk) (i hi lo v : Nat) : Blk := trkSync (b.setFld (Reg.TRK_RINGi_STATUS i) hi lo v)

/-- The master's state changes: port B blocked when CLOSED, free when OPEN; flush, and three BEACONs with FLUSH (R277). -/
def ringChange (b : Blk) (i st : Nat) : Blk :=
  let b := ringPut (ringPut b i 4 4 (b2n (st == 2))) i 1 0 st
  let b := (b.count (Reg.TRK_RINGi_CHANGES i)).irq Reg.TRK_INT_STATUS (5 + i)
  let b := ringFlush b i
  setRing b i { ringOf b i with flushes := 3 }

/-- Held ports release, with a flush (R278). -/
def ringRelease (b : Blk) (i : Nat) : Blk :=
  if b.fld (Reg.TRK_RINGi_STATUS i) 3 2 != 0 then ringFlush (ringPut b i 3 2 0) i else b

/-- BEACON_US, in fabric clocks. -/
def ringBeacon (b : Blk) (i : Nat) : Nat := 1000 * limit 100 10000 (b.fld (Reg.TRK_RINGi_CTRL i) 31 16)

/-- TRK_RINGi_CTRL has been written: a ring that is switched off is DISABLED; one that is switched on starts OPEN as the master and
TRANSIT otherwise. -/
def ringCtrlWritten (b : Blk) (i old : Nat) : Blk :=
  let new := b.rdN (Reg.TRK_RINGi_CTRL i)
  if bits new 11 0 = bits old 11 0 then b
  else
    let b := setRing b i { timer := b.now, own := b.now }
    ringPut (ringPut b i 4 2 0) i 1 0 (if bit new 0 then (if bit new 1 then 1 else 3) else 0)

/-- Every BEACON_US: the master's BEACONs from both ports; a transit device's LINK_DOWN from the other port while a ring port is down
(R277, R278). -/
def ringBeaconTimer (i : Nat) (b : Blk) : Blk :=
  if ringSt b i = 0 || b.now < (ringOf b i).timer + ringBeacon b i then b
  else
  let b := setRing b i { ringOf b i with timer := b.now }
  if ringSt b i = 3 then
    [ringA b i, ringB b i].foldl (fun b p =>
      if b.flag Reg.TRK_STATUS p then b else ringSend b i 1 0 [ringOther b i p]) b
  else
    let r := ringOf b i
    ringSend (setRing b i { r with flushes := r.flushes - 1 }) i 0 (b2n (r.flushes != 0)) [ringA b i, ringB b i]

/-- RING_BEACON_TIMER (R277). -/
def execRingBeaconTimer (i : Fin 2) (s : State) : Result := inDom 3 (onBlk (ringBeaconTimer i)) s

/-- No own BEACON on port B for 3 x BEACON_US: a CLOSED master opens (R277). -/
def ringBeaconLoss (i : Nat) (b : Blk) : Blk :=
  if ringSt b i = 2 && decide ((ringOf b i).own + 3 * ringBeacon b i ≤ b.now) then ringChange b i 1 else b

/-- RING_BEACON_LOSS (R277). -/
def execRingBeaconLoss (i : Fin 2) (s : State) : Result := inDom 3 (onBlk (ringBeaconLoss i)) s

/-- A BEACON at a master's port: its own on port B closes an OPEN ring, unless a LINK_DOWN came in the same clock (R277). -/
def ringOwnBeacon (b : Blk) (i p origin state : Nat) : Blk :=
  let b := if state = 1 then ringRelease b i else b
  if origin = b.deviceId && p = ringB b i then
    let b := setRing b i { ringOf b i with own := b.now }
    if ringSt b i = 1 && (ringOf b i).down != some b.now then ringChange b i 2 else b
  else b

/-- A BEACON at a transit device: a CLOSED one releases held ports, a new one with FLUSH flushes (R278). -/
def ringTransitBeacon (b : Blk) (i state seq : Nat) (flush : Bool) : Blk :=
  let b := if state = 1 then ringRelease b i else b
  let r := ringOf b i
  if flush && !r.seen.contains seq then ringFlush (setRing b i { r with seen := seq :: r.seen }) i else b

/-- A LINK_DOWN: counted; one from another device releases held ports; a CLOSED master opens (R277, R278). -/
def ringLinkDown (b : Blk) (i origin : Nat) : Blk :=
  let b := b.count (Reg.TRK_RINGi_LINKDOWN_RX i)
  let b := setRing b i { ringOf b i with down := some b.now }
  let b := if origin = b.deviceId then b else ringRelease b i
  if ringSt b i = 2 then ringChange b i 1 else b

/-- A ring frame on port `p` (R276 to R278); `f` is the whole frame. -/
def ringFrameRx (p : Nat) (f : List Byte) (b : Blk) : Blk :=
  let e := ethOf f
  let y := fun k => (f.getD (e.off + k) 0#8).toNat
  match ringOfPort b p with
  | none => b
  | some i =>
    if y 2 != b.fld (Reg.TRK_RINGi_CTRL i) 11 8 then b
    else
      let origin := leAt f (e.off + 4) 2 % 4096
      let b' := if ringSt b i = 3 then trkAdmit { trkFrame f with inPort := p, directed := true } 7 b (ringOther b i p) else b
      if y 3 = 1 then ringLinkDown b' i origin
      else if y 3 = 0 then
        if ringSt b i = 3 then ringTransitBeacon b' i (y 6) (leAt f (e.off + 8) 4) (bit (y 7) 0)
        else ringOwnBeacon b' i p origin (y 6)
      else b'

/-- RING_FRAME_RX (R278). -/
def execRingFrameRx (p : Fin 4) (frame : List Byte) (s : State) : Result := inDom 3 (onBlk (ringFrameRx p frame)) s

/-! ### Links (R255, R256) -/

/-- The frames queued for port `p` are discarded and counted (R255, R256). -/
def portDiscard (b : Blk) (p : Nat) : Blk :=
  let n := ((List.range 8).map (fun q => (trkQueue b p q).length)).sum
  (List.range 8).foldl (fun b q => trkSetQueue b p q []) (b.count (Reg.TRK_Pp_TX_LINKDROP p) n)

/-- The link goes down: queued frames and learned entries go, and a transit device tells its ring (R256, R278). -/
def portDown (b : Blk) (p : Nat) : Blk :=
  let up := b.flag Reg.TRK_STATUS p
  let b := portDiscard b p
  let b := fdbForget b (fun x => x == p)
  if !up then b
  else
    let b := (b.setFlag Reg.TRK_STATUS p false).setFld (Reg.TRK_Pp_STATUS p) 0 0 0
    let b := (b.setFld (Reg.TRK_Pp_STATUS p) 4 4 0).setFld (Reg.TRK_Pp_STATUS p) 6 6 0
    let b := ((b.count (Reg.TRK_Pp_LINK_DOWN p)).irq (Reg.TRK_Pp_INT_STATUS p) 1).irq Reg.TRK_INT_STATUS p
    match ringOfPort b p with
    | none => b
    | some i => if ringSt b i = 3 then ringSend b i 1 0 [ringOther b i p] else b

/-- The link of port `p` turns to `up` in Dormant: LINK shows that of the wake port (R281, Table 10-13). -/
def wakeLink (p : Nat) (up : Bool) (b : Blk) : Blk :=
  if isDormant b && b.fld Reg.PWR_WAKE_CTRL 2 1 = p then b.setFlag Reg.PWR_WAKE_STATUS 0 up else b

/-- TRUNK_LINK_DOWN (R256). -/
def execTrunkLinkDown (p : Fin 4) (s : State) : Result :=
  onBlk (fun b => if domOn b 3 then portDown b p else wakeLink p false b) s

/-- The mode a port runs in: 5 and 6 act as 0 (Table 10-1). -/
def portMode (b : Blk) (p : Nat) : Nat :=
  let m := b.fld (Reg.TRK_Pp_CTRL p) 2 0
  if m = 5 || m = 6 then 0 else m

/-- The transmitter of port `p` runs, or is in electrical idle: in MODE 7, and without REFCLK (R255, R371). -/
def portPads (b : Blk) (p : Nat) : Blk := b.emit (.trunkIdle p (portMode b p == 7 || b.flag Reg.RST_STATUS 17))

/-- A port gains lock, which takes REFCLK, and completes what negotiation applies (R256); a ring port that comes up is held, but for a master's port B
(R278). -/
def portUp (p : Nat) (speedOk : Bool) (b : Blk) : Blk :=
  let mode := portMode b p
  if mode = 7 || !domOn b 3 || b.flag Reg.RST_STATUS 17 then b
  else if mode = 4 && !speedOk then b.setFlag (Reg.TRK_Pp_STATUS p) 5 true
  else
    let an := mode == 4 || (mode == 3 && b.flag (Reg.TRK_Pp_CTRL p) 3)
    let b := (b.setFlag (Reg.TRK_Pp_STATUS p) 5 false).setFlag (Reg.TRK_Pp_STATUS p) 4 an
    let b := (b.setFlag (Reg.TRK_Pp_STATUS p) 6 (mode == 1)).setFlag (Reg.TRK_Pp_STATUS p) 0 true
    let was := b.flag Reg.TRK_STATUS p
    let b := b.setFlag Reg.TRK_STATUS p true
    if was then b
    else
      let b := (b.irq (Reg.TRK_Pp_INT_STATUS p) 0).irq Reg.TRK_INT_STATUS p
      match ringOfPort b p with
      | none => trkSync b
      | some i =>
        if ringA b i = p then ringPut b i 2 2 1
        else if ringSt b i = 3 then ringPut b i 3 3 1
        else trkSync b

/-- TRUNK_LINK_UP (R256). -/
def execTrunkLinkUp (p : Fin 4) (speedOk : Bool) (s : State) : Result :=
  onBlk (fun b => if domOn b 3 then portUp p speedOk b else wakeLink p true b) s

/-- A write of MODE: the link drops at once and the port retrains (R255); a SyncE reference in SGMII mode or disabled is lost (R44). -/
def portModeChange (p mode : Nat) (b : Blk) : Blk :=
  let b := portPads (portDown (b.setFld (Reg.TRK_Pp_CTRL p) 2 0 mode) p) p
  synceSettle (b.setFlag (Reg.TRK_Pp_STATUS p) 5 false)

/-- TRUNK_MODE_CHANGE (R255). -/
def execTrunkModeChange (p : Fin 4) (mode : Fin 8) (s : State) : Result := inDom 3 (onBlk (portModeChange p mode)) s

/-! ### Reception -/

/-- The UDP packet of a frame, without its FCS. -/
def trkUdp (f : List Byte) : Option Udp := udpOf f.dropLast.dropLast.dropLast.dropLast

/-- The DSCP of an IPv4 frame. -/
def trkDscp (f : List Byte) (e : Eth) : Option Nat :=
  if e.etype = 0x0800 then some ((f.getD (e.off + 1) 0#8).toNat / 4) else none

/-- A frame matches an enabled canvas path (R100). -/
def canvasTakes (b : Blk) (port : Nat) (u : Udp) : Bool := pathTakes b 0 port u || pathTakes b 1 port u

/-- The fixed classification rules, first match first (Table 10-4). -/
def fixedQueue (b : Blk) (port : Nat) (f : List Byte) : Option Nat :=
  let e := ethOf f
  let sub := if e.etype = 0x88B5 then some (f.getD e.off 0#8).toNat else none
  let u := trkUdp f
  let dport := u.map (fun u => u.dport)
  if e.etype = 0x88F7 || dport == some 319 || dport == some 320 || dport == some 47741 then some 7
  else if sub == some 1 || sub == some 3 || sub == some 4 then some 7
  else if dport == some 47742 || dport == some 5568 then some 5
  else if (u.map (canvasTakes b port)).getD false
      || (u.isSome && trkDscp f e == some (b.fld Reg.TRK_FIX_CTRL 13 8)) then some 5
  else if dport == some 47740 || sub == some 2 || dport == some 47743 then some 4
  else none

/-- The queue of a received frame (R269, 2 to 5). -/
def trkClass (b : Blk) (port : Nat) (f : List Byte) : Nat :=
  let e := ethOf f
  let defQ := b.fld (Reg.TRK_Pp_CLASS port) 6 4
  let byMode :=
    match b.fld (Reg.TRK_Pp_CLASS port) 1 0 with
    | 0 =>
      match e.tags with
      | [] => defQ
      | t :: _ => b.fld (Reg.TRK_Pp_PCP_MAP port) (4 * (t / 8192) + 2) (4 * (t / 8192))
    | 1 =>
      match trkDscp f e with
      | some d => b.fld (Reg.TRK_Pp_DSCP_MAPx port (d / 8)) (4 * (d % 8) + 2) (4 * (d % 8))
      | none => defQ
    | _ => defQ
  if b.flag Reg.TRK_FIX_CTRL 0 then (fixedQueue b port f).getD byMode else byMode

/-- The PTP message type of an event message the transparent clock knows: EtherType 0x88F7 or UDP port 319, at most one tag (R54);
with the offset of the PTP header. -/
def ptpType (f : List Byte) : Option (Nat × Nat) :=
  let e := ethOf f
  if 1 < e.tags.length then none
  else if e.etype = 0x88F7 then some ((f.getD e.off 0#8).toNat % 16, e.off)
  else
    match trkUdp f with
    | some u =>
      if u.dport = 319 then
        let o := e.off + (f.getD e.off 0#8).toNat % 16 * 4 + 8
        some ((f.getD o 0#8).toNat % 16, o)
      else none
    | none => none

/-- A stamp in units of 2^-48 ns: the reading of time base `n` at the instant `q` quarter nanoseconds before now, corrected by the board delay
`adj` (1/64 ns), at a resolution of 0.25 ns; zero in state OFF (R48, R51; log entry 34). -/
def stampBack (b : Blk) (n q : Nat) (adj : Int) : Nat :=
  if tbState b n = 0 then 0
  else
    let t4 := 4 * b.now - q
    let t : Int := (tbAt b n (t4 / 4) : Int) + (t4 % 4 : Nat) * 2 ^ 46 + adj * 2 ^ 42
    quarterCut (t % tbModulus).toNat

/-- A flooded frame finds its tokens, or is dropped (R266). -/
def stormPass (b : Blk) (p len : Nat) : Bool × Blk :=
  let rate := b.fld (Reg.TRK_Pp_STORM p) 15 0
  if rate = 0 then (true, b)
  else
    let s := Tab.at (0, 0) b.trk.storm p
    let used := s.1 - rate * (b.now - s.2)
    let need := 8000 * len
    if used + need ≤ 524288000 then
      (true, b.setTrk { b.trk with storm := Tab.upd (0, 0) b.trk.storm p (used + need, b.now) })
    else
      (false, ((b.setTrk { b.trk with storm := Tab.upd (0, 0) b.trk.storm p (used, b.now) }).count
        (Reg.TRK_Pp_RX_STORM_DROP p)).irq (Reg.TRK_Pp_INT_STATUS p) 5)

/-- IGMP_TRAP adds the internal port to IPv4 frames with protocol 2 (R263); Pdelay messages are not forwarded (Table 2-8). -/
def routeTrap (b : Blk) (f : List Byte) (r : Route) : Route :=
  let e := ethOf f
  let igmp := b.flag Reg.TRK_CTRL 3 && b.flag Reg.TRK_CTRL 0 && e.etype == 0x0800 && (f.getD (e.off + 9) 0#8).toNat == 2
  let ps := if igmp && !r.ports.contains 4 then r.ports ++ [4] else r.ports
  let pdelay := (ptpType f).map (fun t => t.1 == 2 || t.1 == 3)
  { r with ports := if pdelay == some true then ps.filter (fun p => p == 4) else ps }

/-- The switch decides a received frame and queues it (R261, R263, R266); the lookup sees the table before the frame is learned (R265). -/
def trkSwitch (p : Nat) (f : TrkFrame) (b : Blk) : Blk :=
  let e := ethOf f.bytes
  let r := routeTrap b f.bytes (trkRoute b p e.dst (e.tags.headD 0 % 4096))
  if portState b p < 3 && !(macReserved e.dst || e.etype == 0x88B5) then b.count (Reg.TRK_Pp_RX_FILTERED p)
  else
    let s := if r.flooded then stormPass b p f.bytes.length else (true, b)
    if !s.1 then s.2
    else
      let b := if r.filtered then s.2.count (Reg.TRK_Pp_RX_FILTERED p) else s.2
      r.ports.foldl (trkAdmit f (trkClass b p f.bytes)) b

/-- A device-local frame reaches the pair logic, or the reset recogniser while RST_RFRAME_CTRL.EN is set (Table 10-5, R369); under SUBTYPE 0,
a frame from T0 reaches the ROM (R400). -/
def trkInbox (b : Blk) (sub p : Nat) (f : List Byte) : Blk :=
  if sub = 4 && !b.flag Reg.RST_RFRAME_CTRL 0 then b else b.setTrk { b.trk with inbox := b.trk.inbox ++ [(sub, p, b.now, f)] }

/-- The oldest device-local frame of SUBTYPE `sub`, taken: its port, the clock of its arrival, the frame. -/
def inboxTake (b : Blk) (sub : Nat) : Option ((Nat × Nat × List Byte) × Blk) :=
  match b.trk.inbox.find? (fun x => x.1 == sub) with
  | some x => some (x.2, b.setTrk { b.trk with inbox := b.trk.inbox.erase x })
  | none => none

/-- A good frame on port `p` (R259, R263, R264, R270): what is not for the switch goes its own way, the rest is learned and
switched. -/
def trkTake (p age : Nat) (f : List Byte) (b : Blk) : Blk :=
  let e := ethOf f
  let sub := if e.etype = 0x88B5 then (f.getD e.off 0#8).toNat else 0
  if e.dst = 0x0180C2000001 then b.count (Reg.TRK_Pp_RX_PAUSE p)
  else
    let tb := b.fld (Reg.TRK_Pp_TSQ_CTRL p) 2 1
    let adj : Int := sx 16 (b.fld (Reg.TRK_Pp_TSQ_RX_ADJ p) 15 0)
    let fr := { trkFrame f with
      inPort := p
      stamp := (tb, if domOn b 2 then stampBack b tb age (-adj) else 0)
      tc := if b.flag Reg.TRK_TC_CTRL 0 then some (stampBack b (b.fld Reg.TRK_TC_CTRL 3 2) age (-adj)) else none }
    trkIngress b p fr.cells (fun b =>
      let b := if sub = 4 then trkInbox b 4 p f else b
      if portState b p = 0 && sub != 1 then b.count (Reg.TRK_Pp_RX_FILTERED p)
      else if sub = 1 then ringFrameRx p f b
      else
        let body := f.take (f.length - 4)
        let b := if p = 0 && recTakes b body then trkInbox b 0 p body else b
        let b := if sub = 3 then trkInbox b 3 p f else trkSwitch p fr b
        fdbLearn b e.src (e.tags.headD 0 % 4096) p)

/-- RS-FEC codewords that the PCS has corrected, and could not correct, since the frame before: a port in mode 1 alone has RS-FEC (Tables 10-1
and 10-12). -/
def fecCount (p corrected failed : Nat) (b : Blk) : Blk :=
  if portMode b p ≠ 1 then b
  else
    let b := (b.count (Reg.TRK_Pp_FEC_CORR p) corrected).count (Reg.TRK_Pp_FEC_UNCORR p) failed
    if failed = 0 then b else b.irq (Reg.TRK_Pp_INT_STATUS p) 7

/-- A frame has fully arrived: RS-FEC codewords, length and FCS (R257, R258), then what it is. -/
def trunkFrameRx (p age corrected failed : Nat) (f : List Byte) (b : Blk) : Blk :=
  let b := fecCount p corrected failed b
  if f.length < 64 then b.count (Reg.TRK_Pp_RX_RUNT p)
  else if limit 1518 9216 (b.fld (Reg.TRK_Pp_MAX_LEN p) 13 0) < f.length then b.count (Reg.TRK_Pp_RX_OVERSIZE p)
  else if f.drop (f.length - 4) != fcsOf (f.take (f.length - 4)) then
    (b.count (Reg.TRK_Pp_RX_FCS_ERR p)).irq (Reg.TRK_Pp_INT_STATUS p) 2
  else
    let b := (b.count (Reg.TRK_Pp_RX_FRAMES p)).wr64 (Reg.TRK_Pp_RX_OCTETS_LO p) (Reg.TRK_Pp_RX_OCTETS_HI p)
      (b.rd64 (Reg.TRK_Pp_RX_OCTETS_LO p) (Reg.TRK_Pp_RX_OCTETS_HI p) + f.length)
    let e := ethTags f 1 12
    let b := crcSnoop b 5 p e.2.1 ((f.take (f.length - 4)).drop e.2.2)
    trkTake p age f b

/-- TRUNK_FRAME_RX (R261). -/
def execTrunkFrameRx (p : Fin 4) (age corrected failed : BitVec 32) (frame : List Byte) (s : State) : Result :=
  inDom 3 (onBlk (trunkFrameRx p age.toNat corrected.toNat failed.toNat frame)) s

/-! ### Transmission (R262, R269) -/

/-- A frame may leave its port now: in FORWARDING, or DIRECTED, or a ring protection frame, whatever the port's state (R263 rule 3, R276,
Table 10-2; log entry 32). -/
def mayLeave (b : Blk) (p : Nat) (f : TrkFrame) : Bool := portState b p == 3 || f.directed

/-- The queue and place of the frame that port `p` sends next: the highest queue that has one, its first (R269). -/
def trkNext (b : Blk) (p : Nat) : Option (Nat × TrkFrame) :=
  ([7, 6, 5, 4, 3, 2, 1, 0].findSome? (fun q => ((trkQueue b p q).find? (mayLeave b p)).map (fun f => (q, f))))

/-- A forwarded Sync or Delay_Req takes its residence time: egress stamp `out` less ingress stamp, and the ingress port's link delay
for a Sync in P2P mode; the UDP checksum becomes zero and the FCS is recomputed (R55, Table 2-8). -/
def tcCorrect (b : Blk) (p : Nat) (f : TrkFrame) (out : Nat) : List Byte × Blk :=
  let p2p := b.flag Reg.TRK_TC_CTRL 1
  match f.tc, ptpType f.bytes with
  | some t, some (ty, o) =>
    if f.inPort < 4 && b.flag Reg.TRK_TC_CTRL 0 && (ty = 0 || (ty = 1 && !p2p)) then
      let res : Int := ((out : Int) - t) % tbModulus / 2 ^ 32
      let link : Int := if p2p then b.rdN (Reg.TRK_Pp_TC_LINKDELAY f.inPort) else 0
      let n := f.bytes.length - 4
      let body := f.bytes.take n
      let cf := ux 64 ((beAt body (o + 8) 8 : Int) + res + link)
      let body := body.take (o + 8) ++ toBE 8 cf ++ body.drop (o + 16)
      let body := if (ethOf body).etype = 0x88F7 then body else body.take (o - 2) ++ [0#8, 0#8] ++ body.drop o
      (body ++ fcsOf body, b.count (Reg.TRK_Pp_TC_CORRECTED p))
    else (f.bytes, b)
  | _, _ => (f.bytes, b)

/-- Bits per nanosecond of a port's line, times 4 (Table 10-1). -/
def portRate (b : Blk) (p : Nat) : Nat :=
  match portMode b p with
  | 0 | 1 => 25
  | 2 => 10
  | _ => 1

/-- The frame is on the wire: counted, its stamp queued where the port queues stamps (R52, Table 2-16), the wire busy for it, its preamble and its gap. -/
def trkSent (b : Blk) (p : Nat) (f : TrkFrame) (out : Nat) (bytes : List Byte) : Blk :=
  let n := bytes.length
  let b := (b.count (Reg.TRK_Pp_TX_FRAMES p)).wr64 (Reg.TRK_Pp_TX_OCTETS_LO p) (Reg.TRK_Pp_TX_OCTETS_HI p)
    (b.rd64 (Reg.TRK_Pp_TX_OCTETS_LO p) (Reg.TRK_Pp_TX_OCTETS_HI p) + n)
  let b := b.setTrk { b.trk with wireFree := Tab.upd 0 b.trk.wireFree p (b.now + ((n + 20) * 8 + portRate b p - 1) / portRate b p) }
  let tb := b.fld (Reg.TRK_Pp_TSQ_CTRL p) 2 1
  let b := match f.ts with
    | some id =>
      if domOn b 2 && b.flag (Reg.TRK_Pp_TSQ_CTRL p) 0 then
        let t := tbParts out
        tsqPush b p { tb := tb, id := id, sec := t.1, ns := t.2.1, subns := t.2.2 }
      else b
    | none => b
  b.emit (.trunkTx p bytes)

/-- An egress port whose wire is free starts sending the first frame of its highest non-empty queue that its state lets out; what its read in bank `bank` of the
switch buffer found is counted, and an uncorrectable word drops it, or spoils it on the wire (R262). -/
def trunkFrameTx (p quarter : Nat) (found : EccResult) (bank : Nat) (late : Bool) (b : Blk) : Blk :=
  match if b.now < Tab.at 0 b.trk.wireFree p then none else trkNext b p with
  | none => b
  | some (q, f) =>
    let b := trkSetQueue b p q ((trkQueue b p q).erase f)
    let b := bufferEcc b found bank
    if found = .uncorrectable && !late then b
    else
      let adj : Int := sx 16 (b.fld (Reg.TRK_Pp_TSQ_TX_ADJ p) 15 0) + 16 * quarter
      let c := tcCorrect b p f (stampBack b (b.fld Reg.TRK_TC_CTRL 3 2) 0 adj)
      let out := stampBack b (b.fld (Reg.TRK_Pp_TSQ_CTRL p) 2 1) 0 adj
      if found = .uncorrectable then
        let n := c.1.length - 4
        let bytes := c.1.take n ++ (c.1.drop n).map (fun x => ~~~x)
        ((trkSent c.2 p f out bytes).count (Reg.TRK_Pp_TX_STOMP p)).irq (Reg.TRK_Pp_INT_STATUS p) 6
      else trkSent c.2 p f out c.1

/-- TRUNK_FRAME_TX (R269). -/
def execTrunkFrameTx (p : Fin 4) (quarter : Fin 4) (found : EccResult) (bank : Fin 16) (late : Bool) (s : State) : Result :=
  inDom 3 (onBlk (trunkFrameTx p quarter found bank late)) s

/-! ### Tables (R264, R265) -/

/-- A learned entry that has not been seen for AGE_TIME ages out (R264). -/
def fdbAgeExpiry (mac vid : Nat) (b : Blk) : Blk :=
  let age := b.fld Reg.TRK_AGE_TIME 15 0
  if age = 0 then b
  else fdbFilter b (fun e => e.static || e.mac != mac || e.vid != vid || decide (b.now < e.time + 1000 * msClocks * age))

/-- FDB_AGE_EXPIRY (R264). -/
def execFdbAgeExpiry (mac : BitVec 48) (vid : BitVec 12) (s : State) : Result := inDom 3 (onBlk (fdbAgeExpiry mac.toNat vid.toNat)) s

/-- The address and VID in TRK_TBL_DATA0 and TRK_TBL_DATA1. -/
def tblMac (b : Blk) : Nat := b.rdN Reg.TRK_TBL_DATA0 + 2 ^ 32 * b.fld Reg.TRK_TBL_DATA1 15 0
def tblVid (b : Blk) : Nat := b.fld Reg.TRK_TBL_DATA1 27 16

/-- The end of a table operation: FOUND, FULL, BUSY clear, TBL_DONE. -/
def tblDone (b : Blk) (found full : Bool) : Blk :=
  (b.wrN Reg.TRK_TBL_STATUS (2 * b2n found + 4 * b2n full)).irq Reg.TRK_INT_STATUS 7

/-- The multicast table takes `x` at `i`. -/
def mctPut (b : Blk) (i : Nat) (x : Option McEntry) : Blk :=
  let b := tablesKeep b
  b.setTrk { b.trk with mct := Tab.upd none b.trk.mct i x }

/-- WRITE: an entry from TRK_TBL_DATA, or, with VALID clear, its removal; refused with FULL in a set of four static entries (R265). -/
def tblWrite (cmd : Nat) (b : Blk) : Blk :=
  let d := b.rdN Reg.TRK_TBL_DATA2
  let mac := tblMac b
  let vid := tblVid b
  if bit cmd 4 then
    let old := Tab.at none b.trk.mct (bits cmd 15 8)
    tblDone (mctPut b (bits cmd 15 8) (if bit d 9 then
        some { mac := mac, vid := vid, any := b.flag Reg.TRK_TBL_DATA1 28, mask := bits d 4 0 } else none)) old.isSome false
  else
    let old := fdbFind b mac vid
    let b := fdbNote b mac vid
    if !bit d 9 then
      tblDone (fdbSetAt b mac vid ((fdbAt b mac vid).filter (fun e => e.mac != mac || e.vid != vid))) old.isSome false
    else
      match fdbPlace (fdbAt b mac vid)
          { mac := mac, vid := vid, port := limit 0 4 (bits d 2 0), static := bit d 8, time := b.now } with
      | some es => tblDone (fdbSetAt b mac vid es) old.isSome false
      | none => tblDone b false true

/-- TBL_WRITE (R265). -/
def execTblWrite (cmd : Word) (s : State) : Result := inDom 3 (onBlk (tblWrite cmd.toNat)) s

/-- READ: a multicast entry by its index, a forwarding entry by its address and VID; VALID says whether there is one. -/
def tblRead (cmd : Nat) (b : Blk) : Blk :=
  if bit cmd 4 then
    match Tab.at none b.trk.mct (bits cmd 15 8) with
    | some e =>
      let b := (b.wrN Reg.TRK_TBL_DATA0 e.mac).wrN Reg.TRK_TBL_DATA1 (e.mac / 2 ^ 32 + e.vid * 2 ^ 16 + b2n e.any * 2 ^ 28)
      tblDone (b.wrN Reg.TRK_TBL_DATA2 (e.mask + 256 + 512)) true false
    | none => tblDone ((b.wrN Reg.TRK_TBL_DATA0 0).zero [Reg.TRK_TBL_DATA1, Reg.TRK_TBL_DATA2]) false false
  else
    match fdbFind b (tblMac b) (tblVid b) with
    | some e => tblDone (b.wrN Reg.TRK_TBL_DATA2 (e.port + 256 * b2n e.static + 512)) true false
    | none => tblDone (b.wrN Reg.TRK_TBL_DATA2 0) false false

/-- TBL_READ (R265). -/
def execTblRead (cmd : Word) (s : State) : Result := inDom 3 (onBlk (tblRead cmd.toNat)) s

/-- DELETE. -/
def tblDelete (cmd : Nat) (b : Blk) : Blk :=
  if bit cmd 4 then tblDone (mctPut b (bits cmd 15 8) none) (Tab.at none b.trk.mct (bits cmd 15 8)).isSome false
  else
    let mac := tblMac b
    let vid := tblVid b
    let b := fdbNote b mac vid
    tblDone (fdbSetAt b mac vid ((fdbAt b mac vid).filter (fun e => e.mac != mac || e.vid != vid))) (fdbFind b mac vid).isSome false

/-- TBL_DELETE (R265). -/
def execTblDelete (cmd : Word) (s : State) : Result := inDom 3 (onBlk (tblDelete cmd.toNat)) s

/-- FDB_FLUSH (R265): every learned entry goes. -/
def execFdbFlush (s : State) : Result := inDom 3 (onBlk (fun b => fdbForget b (fun _ => true))) s

/-- The counters of port `p` (Table 10-12), and its lost stamps (Table 2-16). -/
def portCounters (p : Nat) : List Nat :=
  (List.range 19).map (fun k => Reg.TRK_Pp_RX_FRAMES p + 4 * k) ++ (List.range 8).map (fun q => Reg.TRK_Pp_TX_QDROPq p q)
    ++ (if p < 4 then [Reg.TRK_Pp_TSQ_LOST p] else [])

/-- CLR_COUNTS of a port, or of the block (R283). -/
def trkClrCounts (port : Option Nat) (b : Blk) : Blk :=
  match port with
  | some p => b.zero (portCounters p)
  | none =>
    let b := b.zero ((List.range 5).flatMap portCounters)
    let b := b.zero ([Reg.TRK_LEARN_FULL] ++ [0, 1].flatMap (fun i =>
      [Reg.TRK_RINGi_CHANGES i, Reg.TRK_RINGi_FLUSHES i, Reg.TRK_RINGi_LINKDOWN_RX i]))
    let b := b.zero ((List.range 16).flatMap (fun r => [Reg.TRK_RXr_FRAMES r, Reg.TRK_RXr_NOBUF r])
      ++ (List.range 4).flatMap (fun t => [Reg.TRK_TXt_FRAMES t, Reg.TRK_TXt_ERRORS t])
      ++ [Reg.TRK_SYNCE_SWITCH_COUNT] ++ (List.range 8).map (fun k => Reg.E131_RX_PKTS + 4 * k))
    trkCells (b.setTrk { b.trk with minFree := none })

/-- TRK_CLR_COUNTS (R283). -/
def execTrkClrCounts (port : Option (Fin 5)) (s : State) : Result := inDom 3 (onBlk (trkClrCounts (port.map (fun p => p.val)))) s

/-! ### Receive rings (R271 to R274) -/

/-- The head of the highest non-empty queue of the internal port (R271). -/
def trkInner (b : Blk) : Option (Nat × TrkFrame) :=
  ([7, 6, 5, 4, 3, 2, 1, 0].findSome? (fun q => (trkQueue b 4 q).head?.map (fun f => (q, f))))

/-- The frame `f` at the head of internal queue `q` leaves the switch: what its read in bank `bank` of the buffer found is counted, and
unless it is uncorrectable, which drops the frame (R262), the port has sent it. -/
def trkInnerPop (b : Blk) (q : Nat) (f : TrkFrame) (found : EccResult) (bank : Nat) : Blk :=
  let b := bufferEcc (trkSetQueue b 4 q (trkQueue b 4 q).tail) found bank
  if found = .uncorrectable then b
  else (b.count (Reg.TRK_Pp_TX_FRAMES 4)).wr64 (Reg.TRK_Pp_TX_OCTETS_LO 4) (Reg.TRK_Pp_TX_OCTETS_HI 4)
    (b.rd64 (Reg.TRK_Pp_TX_OCTETS_LO 4) (Reg.TRK_Pp_TX_OCTETS_HI 4) + f.bytes.length)

/-- A steering rule matches a frame (R271). -/
def steerHit (b : Blk) (f : List Byte) (k : Nat) : Bool :=
  let e := ethOf f
  let v := b.fld (Reg.TRK_STEERk_MATCH k) 15 0
  -- KIND 1 looks after one tag at most
  let etype := if 1 < e.tags.length then beAt f 16 2 else e.etype
  match b.fld (Reg.TRK_STEERk_MATCH k) 18 16 with
  | 1 => etype == v
  | 2 => (trkUdp f).map (fun u => u.dport) == some v
  | 3 => e.etype == 0x0800 && (f.getD (e.off + 9) 0#8).toNat == v
  | 4 => e.etype == 0x88B5 && (f.getD e.off 0#8).toNat == v
  | _ => false

/-- Universe indices whose map holds U with EN set (R220). -/
def e131Indices (b : Blk) (u : Nat) : List Nat :=
  (List.range 1024).filter (fun i => b.fld (Reg.E131_RX_MAPi i) 16 0 == 65536 + u)

/-- The kind of a packet that the E1.31 path takes: one to port 5568 with RX_EN set (R220, R271). A data packet counts as such only
for its universe's group or the device's own address, and for a universe in the map. -/
def e131Takes (b : Blk) (u : Udp) : Option E131Kind :=
  if !b.flag Reg.E131_CTRL 0 || u.dport != 5568 then none
  else
    let own := b.rdN Reg.E131_TX_SRC_IP
    let univ := beAt u.payload 113 2
    let k := e131Kind u.payload
    if k = .data || k = .other then
      some (if (u.dstIp = e131Group univ || (own != 0 && u.dstIp == own)) && !(e131Indices b univ).isEmpty then k else .bad)
    else some k

/-- The ring of a frame, and the rule that chose it: 255 for the queue map and for what the E1.31 path hands on (R220, R271). -/
def steerRing (b : Blk) (q : Nat) (f : List Byte) : Nat × Nat :=
  let k := (trkUdp f).bind (e131Takes b)
  if k == some .other || k == some .discovery then (b.fld Reg.E131_RX_RING 3 0, 255)
  else
    match (List.range 16).find? (steerHit b f) with
    | some k => (b.fld (Reg.TRK_STEERk_RING k) 3 0, k)
    | none => (b.fld Reg.TRK_QRING_MAP (4 * q + 3) (4 * q), 255)

/-- TRK_RXr_TAIL as a frame judged in this clock sees it: a write of this clock counts for the next one (R273). -/
def rxTail (b : Blk) (r : Nat) : Nat :=
  match Tab.at none b.trk.rxTails r with
  | some (clock, old) => if clock = b.now then old else b.fld (Reg.TRK_RXr_TAIL r) 11 0
  | none => b.fld (Reg.TRK_RXr_TAIL r) 11 0

/-- A write of TRK_RXr_TAIL, old value `old`. -/
def rxTailWritten (b : Blk) (r old : Nat) : Blk :=
  let was := match Tab.at none b.trk.rxTails r with
    | some (clock, v) => if clock = b.now then v else bits old 11 0
    | none => bits old 11 0
  b.setTrk { b.trk with rxTails := Tab.upd none b.trk.rxTails r (some (b.now, was)) }

/-- SIZE, base and BUF_SIZE of receive ring `r`. -/
def rxSize (b : Blk) (r : Nat) : Nat := limit 16 4096 (b.fld (Reg.TRK_RXr_CTRL r) 12 0)
def rxBase (b : Blk) (r : Nat) : Nat := b.rd64 (Reg.TRK_RXr_BASE_LO r) (Reg.TRK_RXr_BASE_HI r) / 64 * 64
def rxBuf (b : Blk) (r : Nat) : Nat := 64 * limit 4 256 (b.fld (Reg.TRK_RXr_CTRL r) 24 16)

/-- The descriptor of piece `i` of `n` without its BUF_ADDR: the fields the hardware writes (Table 10-6). -/
def rxDesc (b : Blk) (f : TrkFrame) (q rule n i len : Nat) : List Byte :=
  let e := ethOf f.bytes
  let first := i == 0
  let valid := first && domOn b 2 && f.inPort != 4 && tbState b f.stamp.1 != 0
  let flags := 1 + 2 * b2n first + 4 * b2n (i + 1 == n) + 8 * b2n valid + 16 * q + 128 * f.inPort
    + 1024 * b2n (!e.tags.isEmpty) + 2048 * b2n (bit e.dst 40) + 4096 * b2n (rule != 255)
  let t := tbParts f.stamp.2
  toLE 2 len ++ toLE 2 flags ++ toLE 2 f.bytes.length ++ toLE 1 rule ++ [0#8]
    ++ (if first && domOn b 2 then
          toLE 4 (t.2.1 + 2 ^ 30 * f.stamp.1) ++ toLE 4 t.1 ++ toLE 2 (t.1 / 2 ^ 32) ++ toLE 2 t.2.2
        else List.replicate 12 0#8) ++ List.replicate 4 0#8

/-- The pieces of a frame: index, descriptor address, buffer address and bytes; the buffer addresses are read from the descriptors. -/
def rxPieces (m : Mem) (b : Blk) (words : List (BitVec 32 × EccResult)) (r size : Nat) (f : List Byte) : Nat → Nat → List Byte → List (Nat × Nat × Nat × List Byte)
  | 0, _, _ => []
  | n + 1, i, host =>
    let d := rxBase b r + 32 * ((b.fld (Reg.TRK_RXr_HEAD r) 11 0 + i) % size)
    let x := busRead m b d 32 host
    let x := if eccHit b words d 32 then (none, x.2) else x
    (i, d, leAt (x.1.getD []) 0 8, (f.drop (i * rxBuf b r)).take (rxBuf b r)) :: rxPieces m b words r size f n (i + 1) x.2

/-- A delivered frame is counted towards DONE (R274). -/
def rxCoalesce (b : Blk) (r : Nat) : Blk :=
  let n := Tab.at 0 b.trk.rxCount r + 1
  let t := b.trk
  let first := if n = 1 then b.now else Tab.at 0 t.rxFirst r
  if limit 1 255 (b.fld (Reg.TRK_RXr_COAL r) 7 0) ≤ n then
    (b.setTrk { t with rxCount := Tab.upd 0 t.rxCount r 0 }).irq (Reg.TRK_RXr_INT_STATUS r) 0
  else b.setTrk { t with rxCount := Tab.upd 0 t.rxCount r n, rxFirst := Tab.upd 0 t.rxFirst r first }

/-- A frame of internal queue `q` is written to ring `r`, or dropped with no descriptor consumed (R272, R273). -/
def rxDeliver (m : Mem) (b : Blk) (q : Nat) (f : TrkFrame) (host : List Byte) (words : List (BitVec 32 × EccResult)) : Blk × List Host.Cell :=
  let s := steerRing b q f.bytes
  let r := s.1
  let size := rxSize b r
  let buf := rxBuf b r
  let head := b.fld (Reg.TRK_RXr_HEAD r) 11 0
  let free := (rxTail b r + size - head % size) % size
  let n := (f.bytes.length + buf - 1) / buf
  if !b.flag (Reg.TRK_RXr_CTRL r) 15 || free < n then
    ((b.count (Reg.TRK_RXr_NOBUF r)).irq (Reg.TRK_RXr_INT_STATUS r) 1, [])
  else
    let b := eccAll b words 0x67 3
    let ps := rxPieces m b words r size f.bytes n 0 host
    let w := ps.foldl (fun w p => busWrite w p.2.2.1 p.2.2.2) (b, [])
    let w := (ps.drop 1 ++ ps.take 1).foldl (fun w p =>
      busWrite w (p.2.1 + 8) (rxDesc b f q s.2 n p.1 p.2.2.2.length)) w
    (rxCoalesce ((w.1.wrN (Reg.TRK_RXr_HEAD r) ((head + n) % size)).count (Reg.TRK_RXr_FRAMES r)) r, w.2)

/-- USECS have passed since the first frame without notice (R274). -/
def rxCoalTimeout (r : Nat) (b : Blk) : Blk :=
  let us := b.fld (Reg.TRK_RXr_COAL r) 31 16
  if Tab.at 0 b.trk.rxCount r = 0 || us = 0 || b.now < Tab.at 0 b.trk.rxFirst r + 1000 * us then b
  else (b.setTrk { b.trk with rxCount := Tab.upd 0 b.trk.rxCount r 0 }).irq (Reg.TRK_RXr_INT_STATUS r) 0

/-- RX_COAL_TIMEOUT (R274). -/
def execRxCoalTimeout (r : Fin 16) (s : State) : Result := inDom 3 (onBlk (rxCoalTimeout r)) s

/-! ### Transmit rings (R275) -/

/-- SIZE and base of transmit ring `t`. -/
def txSize (b : Blk) (t : Nat) : Nat := limit 16 4096 (b.fld (Reg.TRK_TXt_CTRL t) 12 0)
def txBase (b : Blk) (t : Nat) : Nat := b.rd64 (Reg.TRK_TXt_BASE_LO t) (Reg.TRK_TXt_BASE_HI t) / 64 * 64

/-- A fetched chain: its descriptors' indices and FLAGS; FLAGS, ID and PORTS of its first, the frame, whether a read failed, and whether LAST was
among its first 16. -/
structure TxChain where
  descs : List (Nat × Nat)
  flags : Nat
  id : Nat
  ports : Nat
  bytes : List Byte
  bad : Bool
  last : Bool
  deriving DecidableEq, Repr

/-- The next descriptors up to LAST, at most `fuel` of them and `avail` in hand; none where TAIL comes first. -/
def txFetch (m : Mem) (b : Blk) (words : List (BitVec 32 × EccResult)) (t : Nat) : Nat → Nat → Nat → List Byte → TxChain → Option TxChain
  | 0, _, _, _, c => some c
  | _, 0, _, _, _ => none
  | fuel + 1, avail + 1, i, host, c =>
    let d := busRead m b (txBase b t + 32 * i) 32 host
    let d := if eccHit b words (txBase b t + 32 * i) 32 then (none, d.2) else d
    let x := d.1.getD (List.replicate 32 0#8)
    let y := busRead m b (leAt x 0 8) (limit 1 16384 (leAt x 8 2)) d.2
    let y := if eccHit b words (leAt x 0 8) (limit 1 16384 (leAt x 8 2)) then (none, y.2) else y
    let flags := leAt x 10 2
    let c := { c with
      descs := c.descs ++ [(i, flags)]
      flags := if c.descs.isEmpty then flags else c.flags
      id := if c.descs.isEmpty then leAt x 12 2 else c.id
      ports := if c.descs.isEmpty then leAt x 14 1 % 16 else c.ports
      bytes := c.bytes ++ y.1.getD []
      bad := c.bad || d.1.isNone || y.1.isNone }
    if bit flags 2 then some { c with last := true }
    else txFetch m b words t fuel avail ((i + 1) % txSize b t) y.2 c

/-- ERR_CODE of a chain, 0 for a good one (R275). -/
def txError (c : TxChain) (err : Bool) : Nat :=
  if !c.last then 2
  else if c.bad || err then 3
  else if c.bytes.length < 60 || 9212 < c.bytes.length then 1
  else if bit c.flags 4 && c.ports = 0 then 4
  else 0

/-- Descriptors of transmit ring `t` in hand and not yet fetched, where the ring is enabled; and the index of the first of them. -/
def txAvail (b : Blk) (t : Nat) : Nat × Nat :=
  let size := txSize b t
  let ahead := Tab.at 0 b.trk.txAhead t
  let head := b.fld (Reg.TRK_TXt_HEAD t) 11 0
  (if b.flag (Reg.TRK_TXt_CTRL t) 15 then (b.fld (Reg.TRK_TXt_TAIL t) 11 0 + size - head % size) % size - ahead else 0,
   (head + ahead) % size)

/-- The chain at the front of transmit ring `t`. -/
def txChain (m : Mem) (b : Blk) (t : Nat) (host : List Byte) (words : List (BitVec 32 × EccResult)) : Option TxChain :=
  txFetch m b words t 17 (txAvail b t).1 (txAvail b t).2 host
    { descs := [], flags := 0, id := 0, ports := 0, bytes := [], bad := false, last := false }

/-- A frame waits in transmit ring `t`: a whole chain, or, in a ring that lies in host memory, any descriptor in hand (log entry 35). -/
def txFrameWaits (m : Mem) (b : Blk) (t : Nat) : Bool :=
  (txAvail b t).1 != 0 &&
    (match busPart b false (txBase b t) 32 with
     | .mem _ => (txChain m b t [] []).isSome
     | _ => true)

/-- A transmit ring's frame reaches the switch (R263, R270): one of SUBTYPE 0x01 or 0x03 is never switched, whatever its descriptor says; one
of SUBTYPE 0x04 is copied to the reset recogniser, and switched. -/
def trkFromRing (b : Blk) (q : Nat) (f : TrkFrame) (ps : Option (List Nat)) : Blk :=
  let e := ethOf f.bytes
  let sub := if e.etype = 0x88B5 then (f.bytes.getD e.off 0#8).toNat else 0
  if sub = 1 || sub = 3 then trkFromDevice b q f (some [])
  else trkFromDevice (if sub = 4 then trkInbox b 4 4 f.bytes else b) q f ps

/-- The next frame of a transmit ring is fetched and handed to the switch, or found to be in error (R269, R275); of rings with frames
waiting the lowest-numbered goes first. -/
def txDescriptorFetch (t : Nat) (err : Bool) (host : List Byte) (words : List (BitVec 32 × EccResult)) (m : Mem) (b : Blk) : Blk :=
  if (List.range t).any (txFrameWaits m b) then b
  else
    let b := eccAll b words 0x67 3
    match txChain m b t host words with
    | none => b
    | some c =>
      let e := txError c err
      let k := b.trk
      let id := k.txNext + 1
      let b := b.setTrk { k with
        txNext := id
        txAhead := Tab.upd 0 k.txAhead t (Tab.at 0 k.txAhead t + c.descs.length)
        txRecs := Tab.upd [] k.txRecs t (Tab.at [] k.txRecs t ++ [{ id := id, descs := c.descs, err := e }]) }
      if e != 0 then b
      else
        let bytes := c.bytes ++ fcsOf c.bytes
        let q := if bit c.flags 5 then bits c.flags 8 6 else trkClass b 4 bytes
        trkFromRing b q { trkFrame bytes with
            directed := bit c.flags 4
            ts := if bit c.flags 3 then some c.id else none
            tx := (t, id) }
          (if bit c.flags 4 then some ((List.range 4).filter (fun p => bit c.ports p)) else none)

/-- TX_DESCRIPTOR_FETCH (R275). -/
def execTxDescriptorFetch (t : Fin 4) (err : Bool) (host : List Byte) (words : List (BitVec 32 × EccResult)) (s : State) : Result :=
  inDom 3 (onView (txDescriptorFetch t err host words)) s

/-- The oldest fetched frame of a ring has left, or is refused: DONE, and ERR with its code, in every descriptor, and HEAD advances. -/
def txFrameDone (t : Nat) (_ : Mem) (b : Blk) : Blk × List Host.Cell :=
  match Tab.at [] b.trk.txRecs t with
  | [] => (b, [])
  | r :: rs =>
    let bad := r.err != 0
    let w := r.descs.foldl (fun w d =>
      let a := txBase b t + 32 * d.1
      let w := busWrite w (a + 10) (toLE 2 (if bad then d.2 ||| 0x201 else d.2 ||| 1))
      if bad then busWrite w (a + 15) (toLE 1 r.err) else w) (b, [])
    let k := w.1.trk
    let b := w.1.setTrk { k with
      txRecs := Tab.upd [] k.txRecs t rs
      txAhead := Tab.upd 0 k.txAhead t (Tab.at 0 k.txAhead t - r.descs.length) }
    let b := (b.wrN (Reg.TRK_TXt_HEAD t) (((r.descs.getLastD (0, 0)).1 + 1) % txSize b t)).irq (Reg.TRK_TXt_INT_STATUS t) 0
    (if bad then
        ((b.count (Reg.TRK_TXt_ERRORS t)).irq (Reg.TRK_TXt_INT_STATUS t) 1).irq Reg.TRK_INT_STATUS 8
      else b.count (Reg.TRK_TXt_FRAMES t), w.2)

/-- TX_FRAME_DONE (R275). -/
def execTxFrameDone (t : Fin 4) (s : State) : Result := inDom 3 (onMem (txFrameDone t)) s

/-- A frame of transmit ring `t` is still in a queue. -/
def txWaiting (b : Blk) (t id : Nat) : Bool := b.trk.queues.any (fun x => x.2.any (fun f => f.tx == (t, id)))

end Sys2Proof.Machine
end

