-- ==== Sys2Proof/Machine/E131.lean ====
section
/-!
DEFINITION. E1.31 (R220 to R227): universes received into the Pool, their flip at START_FRAME, and packets sent from the transmit
table. The packet layout is that of ANSI E1.31 (log entry 29).
-/
namespace Sys2Proof.Machine

/-- The receive state of universe index `i`. -/
def e131U (b : Blk) (i : Nat) : E131Rx := Tab.at {} b.e131Rx i
/-- Universe index `i` takes `x`. -/
def setE131U (b : Blk) (i : Nat) (x : E131Rx) : Blk := { b with e131Rx := Tab.upd {} b.e131Rx i x }
/-- Synchronization address `s` on receive. -/
def e131S (b : Blk) (s : Nat) : E131Sync := Tab.at {} b.e131Syncs s
/-- Synchronization address `s` takes `x`. -/
def setE131S (b : Blk) (s : Nat) (x : E131Sync) : Blk := { b with e131Syncs := Tab.upd {} b.e131Syncs s x }

/-- A sequence number that is discarded: (int8)(seq - last) at most 0 and above -20 (R221). -/
def e131Old (seq last : Nat) : Bool :=
  let d := sx 8 (seq + 256 - last % 256)
  decide (d ≤ 0) && decide (-20 < d)

/-- E131_LOSS_TIMEOUT in fabric clocks. -/
def e131LossClocks (b : Blk) : Nat := b.rdN Reg.E131_LOSS_TIMEOUT * 1000000

/-- The bit of universe index `i` in E131_RX_LOSS. -/
def e131SetLoss (b : Blk) (i : Nat) (v : Bool) : Blk := b.setFlag (Reg.E131_RX_LOSSx (i / 32)) (i % 32) v

/-- The cells of an accepted packet: slots 1 to count - 1, then zeros to slot 512, in the bank that is not presented (R222). -/
def e131Cells (b : Blk) (i : Nat) (p : List Byte) : List Host.Cell :=
  let count := beAt p 123 2
  cellsAt (e131BankAt b i (1 - Tab.at 0 b.e131Bank i)) ((List.range 512).map (fun s => if s + 1 < count then p.getD (126 + s) 0#8 else 0#8))

/-- An accepted packet: the source, the bank, and the synchronization it asks for (R221 to R223). -/
def e131Accept (b : Blk) (i : Nat) (p : List Byte) (u : E131Rx) : Blk × List Host.Cell :=
  let cid := slice p 22 16
  let opt := (p.getD 112 0#8).toNat
  let sync := beAt p 109 2
  let b := b.count Reg.E131_RX_PKTS
  let b := if u.cid.isSome && u.cid != some cid then b.irq Reg.E131_INT_STATUS 3 else b
  let b := e131SetLoss b i false
  let b := if sync != 0 && (e131S b sync).since.isNone then setE131S b sync { e131S b sync with since := some b.now } else b
  (setE131U b i { cid := some cid, prio := (p.getD 108 0#8).toNat, seq := (p.getD 111 0#8).toNat, done := bit opt 6, heard := b.now,
                  taken := b.now, ready := some b.now, sync := sync, force := bit opt 5 }, e131Cells b i p)

/-- A data packet at universe index `i`: preview, sequence and source (R220, R221). -/
def e131Data (p : List Byte) (r : Blk × List Host.Cell) (i : Nat) : Blk × List Host.Cell :=
  let b := r.1
  let u := e131U b i
  let same := u.cid == some (slice p 22 16)
  if bit (p.getD 112 0#8).toNat 7 && !b.flag (Reg.E131_RX_MAPi i) 17 then (b.count Reg.E131_RX_DROP, r.2)
  else if same && e131Old (p.getD 111 0#8).toNat u.seq then
    ((setE131U b i { u with heard := b.now }).count Reg.E131_RX_SEQ_DROP, r.2)
  else if same || u.cid.isNone || u.prio < (p.getD 108 0#8).toNat || u.heard + e131LossClocks b ≤ b.now || u.done then
    let a := e131Accept b i p u
    (a.1, r.2 ++ a.2)
  else (b.count Reg.E131_RX_SRC_DROP, r.2)

/-- A sync packet: its waiting universes flip at the next START_FRAME (R223). -/
def e131SyncTake (b : Blk) (p : List Byte) : Blk :=
  let addr := beAt p 45 2
  let s := e131S b addr
  let seq := (p.getD 44 0#8).toNat
  if (s.seq.map (e131Old seq)).getD false then b.count Reg.E131_RX_SEQ_DROP
  else
    let b := setE131S (b.count Reg.E131_SYNC_RX) addr { seq := some seq, since := some b.now }
    { b with e131Rx := b.e131Rx.map (fun x =>
        if x.2.sync = addr && x.2.ready.isSome then (x.1, { x.2 with synced := true }) else x) }

/-- A packet that the E1.31 path takes (R220): data, sync, or dropped; a packet for the ring named in E131_RX_RING is
RX_RING_DELIVERY's. -/
def e131Packet (frame : List Byte) (_ : Mem) (b : Blk) : Blk × List Host.Cell :=
  match udpOf frame with
  | none => (b, [])
  | some u =>
    match e131Takes b u with
    | some .data => (e131Indices b (beAt u.payload 113 2)).foldl (e131Data u.payload) (b, [])
    | some .sync => (e131SyncTake b u.payload, [])
    | some .bad => (b.count Reg.E131_RX_DROP, [])
    | _ => (b, [])

/-- No sync for an address for E131_SYNC_TIMEOUT (R223); before that time nothing happens. -/
def e131SyncTimeout (addr : Nat) (b : Blk) : Blk :=
  if (e131S b addr).since.any (fun t => decide (t + 1000000 * b.rdN Reg.E131_SYNC_TIMEOUT ≤ b.now)) then
    (setE131S b addr { e131S b addr with lost := true }).irq Reg.E131_INT_STATUS 1
  else b

/-- E131_SYNC_TIMEOUT (R223). -/
def execE131SyncTimeout (sync : BitVec 16) (s : State) : Result := inDom 3 (onBlk (e131SyncTimeout sync.toNat)) s

/-- No accepted packet for E131_LOSS_TIMEOUT: the universe's bit and RX_LOSS; its data holds (R221). Before that time nothing happens. -/
def e131LossTimeout (i : Nat) (b : Blk) : Blk :=
  if (e131U b i).taken + e131LossClocks b ≤ b.now then (e131SetLoss b i true).irq Reg.E131_INT_STATUS 0 else b

/-- E131_LOSS_TIMEOUT (R221). -/
def execE131LossTimeout (i : Fin 1024) (s : State) : Result := inDom 3 (onBlk (e131LossTimeout i)) s

/-- E131_CTRL.CLR_COUNTS (R227). -/
def e131ClrCounts (b : Blk) : Blk := b.zero ((List.range 8).map (fun k => Reg.E131_RX_PKTS + 4 * k))

/-- E131_CLR_COUNTS (R227). -/
def execE131ClrCounts (s : State) : Result := inDom 3 (onBlk e131ClrCounts) s

/-- START_FRAME of the primary Meridian: READY banks flip, unless they wait for a sync (R222, R223). -/
def e131Flip (b : Blk) : Blk :=
  b.e131Rx.foldl (fun b x =>
    let u := x.2
    let ready := match u.ready with
      | some t => t != b.now
      | none => false
    if ready && (u.sync = 0 || u.synced || ((e131S b u.sync).lost && !u.force)) then
      setE131U { b with e131Bank := Tab.upd 0 b.e131Bank x.1 (1 - Tab.at 0 b.e131Bank x.1) } x.1 { u with ready := none, synced := false }
    else b) b

/-! ### Transmit (R224 to R226) -/

/-- An E1.31 packet of the device to a group or address: own source addresses, tag and DSCP, queue 5. -/
def e131Send (b : Blk) (dstMac dstIp : Nat) (p : List Byte) : Blk :=
  udpSend b 5 (b.rd64 Reg.E131_TX_SRC_MAC_LO Reg.E131_TX_SRC_MAC_HI) dstMac (vlanTag (b.rdN Reg.E131_TX_VLAN))
    (b.rdN Reg.E131_TX_SRC_IP) dstIp 5568 (some (b.fld Reg.E131_TX_DSCP 5 0)) p

/-- The MAC address of an IPv4 group (RFC 1112; log entry 18). -/
def groupMac (ip : Nat) : Nat := 0x01005E000000 + ip % 2 ^ 23

/-- The root layer with `k` bytes after its vector: preamble, identifier, length, vector and CID. -/
def e131Root (b : Blk) (vector k : Nat) : List Byte :=
  toBE 2 0x0010 ++ toBE 2 0 ++ acnId ++ toBE 2 (0x7000 + 22 + k) ++ toBE 4 vector
    ++ (List.range 4).flatMap (fun i => toLE 4 (b.rdN (Reg.E131_CIDx i)))

/-- The data packet of a transmit table entry at address `a`, index `i`. -/
def e131DataPacket (m : Mem) (b : Blk) (a i : Nat) (term : Bool) : List Byte :=
  let n := limit 1 512 (m.le (a + 2) 2)
  e131Root b 4 (n + 88) ++ toBE 2 (0x7000 + n + 88) ++ toBE 4 2 ++ m.bytes (b.rdN Reg.E131_NAME_ADDR) 64
    ++ toBE 1 (limit 0 200 (m.le (a + 5) 1)) ++ toBE 2 (m.le (a + 8) 2) ++ toBE 1 (Tab.at 0 b.e131TxSeq i)
    ++ toBE 1 (if term then 0x40 else 0) ++ toBE 2 (m.le a 2)
    ++ toBE 2 (0x7000 + n + 11) ++ toBE 1 2 ++ toBE 1 0xA1 ++ toBE 2 0 ++ toBE 2 1 ++ toBE 2 (n + 1) ++ [0#8]
    ++ m.bytes (b.rdN Reg.E131_TX_BASE / 512 * 512 + 512 * i) n

/-- One enabled entry's packet is built and queued, or, where it stands in `lost`, was not fetched in time (R225). -/
def e131Build (m : Mem) (lost : List Nat) (r : Blk × List Host.Cell) (i : Nat) : Blk × List Host.Cell :=
  let b := r.1
  let a := b.rdN Reg.E131_TX_TABLE / 16 * 16 + 16 * i
  let flags := m.le (a + 6) 1
  if lost.contains i then ((b.count Reg.E131_TX_SKIP).irq Reg.E131_INT_STATUS 2, r.2)
  else
    let term := bit flags 2
    let n := if term then Tab.at 0 b.e131Term i + 1 else 0
    let uni := bit flags 1
    let ip := if uni then m.le (a + 12) 4 else e131Group (m.le a 2)
    -- the MAC address of a unicast destination is not stated: a free value (log entry 36)
    let mac := if uni then Config.freeValue b.freeCount else groupMac ip
    let b' := (e131Send (if uni then b.drawn else b) mac ip (e131DataPacket m b a i term)).count Reg.E131_TX_PKTS
    let b' := { b' with e131TxSeq := Tab.upd 0 b'.e131TxSeq i ((Tab.at 0 b'.e131TxSeq i + 1) % 256)
                        e131Term := Tab.upd 0 b'.e131Term i (if 3 ≤ n then 0 else n) }
    (b', if 3 ≤ n then r.2 ++ cellsAt (a + 6) (toLE 1 (putBits flags 0 0 0)) else r.2)

/-- The start of a Row: the entries of the Row before it, in index order, in frames with FRAME mod FDIV = 0 of the primary Meridian
(R225). -/
def e131RowStart (m : Mem) (mer frame row : Nat) (lost : List Nat) (b : Blk) : Blk × List Host.Cell :=
  let last := merRows b mer - 1
  let f := if row = 0 then (frame + 2 ^ 32 - 1) % 2 ^ 32 else frame
  let r := if row = 0 then last else row - 1
  if !b.flag Reg.E131_CTRL 1 || !pairSends b || stcMer b != mer || f % max 1 (b.fld Reg.E131_TX_FDIV 7 0) != 0 then (b, [])
  else
    let tab := b.rdN Reg.E131_TX_TABLE / 16 * 16
    ((List.range (limit 0 2048 (b.fld Reg.E131_TX_COUNT 11 0))).filter (fun i =>
        bit (m.le (tab + 16 * i + 6) 1) 0 && m.le (tab + 16 * i + 4) 1 == r)).foldl (e131Build m lost) (b, [])

/-- An E131_SYNC Waypoint: a sync packet for address `addr` joins queue 5 (R226). -/
def e131SyncSend (addr : Nat) (b : Blk) : Blk :=
  if !b.flag Reg.E131_CTRL 1 || !pairSends b then b
  else
    let addr := addr % 65536
    let seq := Tab.at 0 b.e131SyncSeq addr
    let p := e131Root b 8 11 ++ toBE 2 (0x7000 + 11) ++ toBE 4 1 ++ toBE 1 seq ++ toBE 2 addr ++ toBE 2 0
    let b := (e131Send b (groupMac (e131Group addr)) (e131Group addr) p).count Reg.E131_SYNC_TX
    { b with e131SyncSeq := Tab.upd 0 b.e131SyncSeq addr ((seq + 1) % 256) }

end Sys2Proof.Machine
end

