-- ==== Sys2Proof/Machine/FwNet.lean ====
section
/-!
DEFINITION. What firmware sends over UDP and over the pair link (R74, R312, R315 to R317): it waits here for its transmit ring or for mailbox
14. The rings, buffers and the steering rule that firmware takes are its own choice, and its addresses the implementation's (log entries
55 and 58).
-/
namespace Sys2Proof.Machine

/-- Firmware's own state takes `f`. -/
def Blk.setFirm (b : Blk) (f : Firm) : Blk := { b with firm := f }

/-! ### Firmware's rings (log entry 58) -/

/-- Firmware's receive ring and steering rule, and its transmit ring; both have 16 descriptors. -/
abbrev fwRx : Nat := 15
abbrev fwTx : Nat := 3
/-- Where its rings and their buffers of 9,216 bytes, one for each descriptor, lie, and the frame of a notice in mailbox 14. -/
def fwRxBase : Nat := 0x10F20000
def fwTxBase : Nat := 0x10F20200
def fwRxBuf (i : Nat) : Nat := 0x10F21000 + 9216 * i
def fwTxBuf (i : Nat) : Nat := 0x10F48000 + 9216 * i
def fwLinkBuf : Nat := 0x10F70000

/-! ### Sending -/

/-- The MAC address that firmware sends to for an IPv4 address: the group's, or the one that ARP has found. -/
def ipMac (ip : Nat) : Nat := if ip / 2 ^ 28 % 16 = 14 then groupMac ip else (Config.macOf (BitVec.ofNat 32 ip)).toNat

/-- The Ethernet frame without FCS of a UDP packet of firmware's from port 47740; what the spec does not state of its headers comes from the
free value `v`. -/
def fwFrame (v mac ip port : Nat) (payload : List Byte) : List Byte :=
  udpFull v Config.ownMac.toNat mac 0 Config.ownIp.toNat ip 47740 port (v / 2 ^ 41) none payload

/-- A UDP packet waits for firmware's transmit ring (R315). -/
def fwSend (mac ip port : Nat) (payload : List Byte) (b : Blk) : Blk :=
  b.drawn.setFirm { b.firm with txOut := b.firm.txOut ++ [fwFrame (Config.freeValue b.freeCount) mac ip port payload] }

/-- A command packet goes to UDP port 47740 of a worker or of a group (R317). -/
def fwSendTo (ip : Nat) (packet : List Byte) (b : Blk) : Blk := fwSend (ipMac ip) ip 47740 packet b

/-- A command packet waits for mailbox 14, to go to the partner (R316). -/
def linkSend (packet : List Byte) (b : Blk) : Blk :=
  b.drawn.setFirm { b.firm with linkOut := b.firm.linkOut
    ++ [fwFrame (Config.freeValue b.freeCount) (ipMac Config.partnerIp.toNat) Config.partnerIp.toNat 47740 packet] }

/-! ### Receiving -/

/-- A frame in firmware's receive ring, without its FCS, and the port it came in by. -/
structure RingFrame where
  port : Nat
  bytes : List Byte
  deriving DecidableEq, Repr

/-- The frame that firmware takes next from its ring: a FIRST descriptor with DONE (R273). -/
def ringNext (m : Mem) (b : Blk) : Option RingFrame :=
  let d := fwRxBase + 32 * b.firm.rxAt
  let flags := m.le (d + 10) 2
  if b.firm.netUp && domOn b 3 && flags % 4 == 3 then
    some { port := bits flags 9 7, bytes := m.bytes (m.le d 8) (m.le (d + 8) 2 - 4) }
  else none

/-- The command packet in a frame: UDP port 47740, with its source MAC and IP address and port. -/
def ringUdp (f : RingFrame) : Option (Nat × Nat × Nat × List Byte) :=
  match udpOf f.bytes with
  | some u => if u.dport = 47740 then some ((ethOf f.bytes).src, u.srcIp, u.sport, u.payload) else none
  | none => none

end Sys2Proof.Machine
end

