-- ==== Sys2Proof/Machine/Dim.lean ====
section
/-!
DEFINITION. The dimming law (R161 to R164): the current step and the light of a 24-bit level over a pulse period. Periods and windows
are in units of 2^-48 ns; light is in quarter nanoseconds.
-/
namespace Sys2Proof.Machine

/-- Light over one pulse period: the current step D, 0 for off; fragments (start, length) in 0.25 ns from the period's start; and
whether a window clip is counted (R161 to R164). -/
structure Light where
  step : Nat := 0
  frags : List (Nat × Nat) := []
  clipped : Bool := false
  deriving DecidableEq, Repr

/-- A time in units of 2^-48 ns as quarter nanoseconds, rounded, a half going up. -/
def quarters (t : Nat) : Nat := (2 * t * 4 + 2 ^ 48) / 2 ^ 49

/-- D of a level with the window fraction `len` / `per` (R161). -/
def dimStep (v len per : Nat) : Nat :=
  min 4095 (max 256 ((v * per + 4096 * len - 1) / (4096 * max 1 len)))

/-- W of a level at step `d`, capped at the window time `len`, in 0.25 ns (R161). -/
def dimWidth (v d len per : Nat) : Nat := quarters (min (v * per / (4096 * d)) len)

/-- The 40 ns rules of R162 for a pulse of `w` quarter nanoseconds in a period of `per` units of 2^-48 ns: a gap that is widened leaves
T_p - 40 ns rounded down. -/
def dimFloor (w per : Nat) : Nat :=
  let w := if w < 80 then 0 else if w < 160 then 160 else w
  if w = 0 then 0
  else if per < (w + 80) * 2 ^ 46 then quarters per
  else if per < (w + 160) * 2 ^ 46 then per / 2 ^ 46 - 160
  else w

/-- The light of level `v` over a period without windows, from its start (R161, R162). -/
def dimPlain (v per : Nat) : Light :=
  if v = 0 then {}
  else
    let d := dimStep v per per
    let w := if 0x00FFF000 < v then quarters per else dimFloor (dimWidth v d per per) per
    if w = 0 then {} else { step := d, frags := [(0, w)] }

/-- The index of the longest window, the first on a tie. -/
def longest (ls : List Nat) : Nat :=
  ((List.range ls.length).foldl (fun a i => if ls.getD a 0 < ls.getD i 0 then i else a) 0)

/-- A total of `w` split over windows of lengths `ls` by cumulative rounding (R164). -/
def splitLight (w : Nat) (ls : List Nat) : List Nat :=
  let total := max 1 (ls.foldl (· + ·) 0)
  let ends (j : Nat) : Nat := (2 * w * (ls.take j).foldl (· + ·) 0 + total) / (2 * total)
  (List.range ls.length).map (fun j => ends (j + 1) - ends j)

/-- Fragments below 40 ns are merged into the longest window's (R164). -/
def mergeShort (fs ls : List Nat) : List Nat :=
  let k := longest ls
  let short := ((List.range fs.length).filter (fun i => i != k && fs.getD i 0 < 160)).map (fun i => fs.getD i 0)
  (List.range fs.length).map (fun i =>
    if i = k then fs.getD i 0 + short.foldl (· + ·) 0 else if fs.getD i 0 < 160 then 0 else fs.getD i 0)

/-- The light of level `v` over the frame with windows (start, length) of the frame, in units of 2^-48 ns (R162, R164). -/
def dimWindowed (v per : Nat) (ws : List (Nat × Nat)) : Light :=
  if v = 0 then {}
  else
    let ls := ws.map (·.2)
    let len := ls.foldl (· + ·) 0
    let full := decide (len * 4095 * 2 ^ 24 < v * per * 4096)
    let d := if full then 4095 else dimStep v len per
    let room (l : Nat) : Nat := l * 4 / 2 ^ 48
    let w := if full then quarters len else dimFloor (dimWidth v d len per) per
    let fs := mergeShort (if full then ls.map room else splitLight w ls) ls
    let kept := (List.range fs.length).map (fun i => min (fs.getD i 0) (room (ls.getD i 0)))
    let place (i : Nat) : Nat × Nat :=
      let f := kept.getD i 0
      let s := (ws.getD i (0, 0)).1
      let l := ls.getD i 0
      -- the start is the window's start plus half of what the fragment leaves of it
      ((2 * (2 * s + (l - f * 2 ^ 46)) * 4 + 2 ^ 49) / 2 ^ 50, f)
    { step := if w = 0 then 0 else d
      frags := ((List.range fs.length).map place).filter (fun f => f.2 != 0)
      clipped := full || kept.foldl (· + ·) 0 < fs.foldl (· + ·) 0 }

end Sys2Proof.Machine
end

