-- ==== Sys2Proof/Machine/Drive.lean ====
section
/-!
DEFINITION. Local string drive (R228 to R254): levels and latches, the pulse plan, diagnosis and faults, lamp-board sensors,
derating, the trim loop (R155, R156) and holding through a warm reset.
-/
namespace Sys2Proof.Machine

/-! ### Channels and groups -/

/-- Channel `c` beside its registers. -/
def Blk.chan (b : Blk) (c : Nat) : DrvChan := Tab.at {} b.drv.chans c
/-- Channel `c` takes `x`. -/
def Blk.setChan (b : Blk) (c : Nat) (x : DrvChan) : Blk := { b with drv := { b.drv with chans := Tab.upd {} b.drv.chans c x } }
/-- STATE: 0 OFF, 1 RUN, 2 HOLD, 3 FAULT, 4 TCRIT. -/
def drvState (b : Blk) (c : Nat) : Nat := b.fld (Reg.DRV_c_STATUS c) 2 0
/-- GATE switches: RUN or HOLD. -/
def drvOn (b : Blk) (c : Nat) : Bool := drvState b c == 1 || drvState b c == 2
/-- STATE takes `st`; DRV_STATUS shows FAULT and TCRIT. -/
def drvSetState (b : Blk) (c st : Nat) : Blk := (b.setFld (Reg.DRV_c_STATUS c) 2 0 st).setFlag Reg.DRV_STATUS c (st == 3 || st == 4)
/-- The group in effect of channel `c`. -/
def drvGroup (b : Blk) (c : Nat) : Nat := b.fld (Reg.DRV_c_CTRL c) 11 8
/-- The Meridian in effect of group `g`. -/
def grpMer (b : Blk) (g : Nat) : Nat := b.fld (Reg.DRV_GRPg_CTRL g) 1 1
/-- Channel `c` is enabled: its EN and the block's. -/
def drvEnabled (b : Blk) (c : Nat) : Bool := b.flag (Reg.DRV_c_CTRL c) 0 && b.flag Reg.DRV_CTRL 0

/-- GATE and DIM go low and the channel is in state `st` (R228). -/
def drvOff (b : Blk) (c st : Nat) : Blk :=
  let b := ((drvSetState b c st).zero [Reg.DRV_c_STEP c, Reg.DRV_c_WIDTH c]).setFld (Reg.DRV_c_STATUS c) 5 4 3
  let b := (b.emit (.pin (.gate c) false)).emit (.pin (.dim c) false)
  b.setChan c { b.chan c with frags := [], next := none, partialRun := 0, diagDue := false, diagNow := false }

/-! ### The pulse plan (R161 to R164, R232, R244, R247) -/

/-- D_th. -/
def drvDth (b : Blk) (c : Nat) : Nat := b.fld (Reg.DRV_c_DERATE c) 15 0
/-- The cap of D_th on a level (R244). -/
def drvCap (b : Blk) (c : Nat) : Nat := lin24 * drvDth b c / 32768

/-- The pulse period of channel `c`'s group in units of 2^-48 ns, and its windows where placement is windowed. -/
def drvPeriod (b : Blk) (c : Nat) : Nat × List (Nat × Nat) :=
  let g := drvGroup b c
  let m := grpMer b g
  let ctl := b.rdN (Reg.DRV_GRPg_CTRL g)
  let tick := 65536 * merPeriod b m
  let ws := if bit ctl 3 then merWindows b m else []
  if !ws.isEmpty then (merTpf b m * tick, ws.map (fun w => (w.1 * tick, (w.2 - w.1) * tick)))
  else ((if bit ctl 2 then merRowLen b m else merTpf b m) * tick, [])

/-- What channel `c`'s pulses follow: in a mode-change gap and under SUPPRESS what they followed last (R232, R239). -/
def drvPlan (b : Blk) (c : Nat) : DrvPlan :=
  if merWithheld b (grpMer b (drvGroup b c)) then (b.chan c).plan
  else
    let p := drvPeriod b c
    { per := p.1, windows := p.2, phase := b.fld (Reg.DRV_GRPg_PHASE (drvGroup b c)) 15 0 }

/-- The start of the first pulse period of channel `c` that starts at or after position `p` (R163, R164, R238). -/
def drvPulseFrom (b : Blk) (c : Nat) (windowed : Bool) (p : Nat × Nat) : Nat × Nat :=
  let g := drvGroup b c
  let len := if b.flag (Reg.DRV_GRPg_CTRL g) 2 && !windowed then 65536 * merRowLen b (grpMer b g) else merTpf16 b (grpMer b g)
  let k := (p.2 + len - 1) / len
  if k * len < merTpf16 b (grpMer b g) then (p.1, k * len) else ((p.1 + 1) % 2 ^ 32, 0)

/-! ### The switching cycle (R230) -/

/-- What the registers give of the peak command V_pk in microvolts at step `d` (R230): the full-scale term, less CORR (R424). -/
def drvBase (b : Blk) (c d : Nat) : Int :=
  ((limit 10000 90000 (b.fld (Reg.DRV_c_FS_UV c) 16 0) * d / 4096 : Nat) : Int) - b.rdI (Reg.CAL_DRVc_CORR c)

/-- The peak command V_pk in microvolts at step `d` after a switching period with V_str in 10 mV and t_off in nanoseconds (R230). -/
def drvCommand (b : Blk) (c d vstr tOff : Nat) : Nat :=
  (drvBase b c d + ((b.rdN (Reg.DRV_c_RIPPLE_K c) * vstr * tOff / (2 * 256 * 100 * 1000) : Nat) : Int)).toNat

/-- LEB in nanoseconds. -/
def drvLeb (b : Blk) (c : Nat) : Nat := limit 60 250 (b.fld (Reg.DRV_c_SLOPE c) 23 16)

/-- The switching period in units of 2^-48 ns: that of f_sw, and in HOLD the nearest whole number of 20 ns (R230, R252). -/
def drvSwitchPeriod (b : Blk) (c : Nat) : Nat :=
  let f := limit 250 2000 (b.fld (Reg.DRV_c_FSW c) 11 0)
  if drvState b c = 2 then (2 * 50000 + f) / (2 * f) * 20 * 2 ^ 48 else 10 ^ 6 * 2 ^ 48 / f

/-- The regulator of channel `c` takes what its switching periods need at step `d` (R230). -/
def drvRegulateAt (b : Blk) (c d : Nat) : Blk :=
  b.emit (.drvSwitch c (drvSwitchPeriod b c) d (drvBase b c d) (b.rdN (Reg.DRV_c_RIPPLE_K c)) (drvLeb b c) (b.fld (Reg.DRV_c_SLOPE c) 15 0))

/-- At the step in effect. -/
def drvRegulate (b : Blk) (c : Nat) : Blk := drvRegulateAt b c (b.rdN (Reg.DRV_c_STEP c))

/-- A write of a register that sets the switching cycle: the next switching period has it (R230). -/
def drvSwitchWritten (b : Blk) (c : Nat) : Blk := if drvOn b c then drvRegulate b c else b

/-! ### Light and its verification (R247) -/

/-- DIAG_MIN. -/
def drvDiagMin (b : Blk) (c : Nat) : Nat := limit 32 255 (b.fld (Reg.DRV_c_DIAG_CFG c) 7 0)

/-- Two microseconds in quarter nanoseconds. -/
def diag4 : Nat := 8000

/-- How a light is verified (R247): 0 VERIFIED, 1 STRETCHED with the light that is emitted in its place, 2 UNVERIFIED, 3 NONE. -/
def drvVerify (dmin v per : Nat) (ws : List (Nat × Nat)) (l : Light) : Nat × Light :=
  let q := v * per / 4096
  let d := q / (2000 * 2 ^ 48)
  if v = 0 then (3, l)
  else if l.frags.any (fun f => diag4 ≤ f.2) then (0, l)
  else if d < dmin then (2, l)
  else
    let w := quarters (q / d)
    if ws.isEmpty then (1, { l with step := d, frags := [(0, w)] })
    else match l.frags with
      | [f] =>
        -- the window that holds the fragment
        match ws.find? (fun x => x.1 * 4 ≤ (f.1 + 1) * 2 ^ 48 && f.1 * 2 ^ 48 ≤ (x.1 + x.2) * 4) with
        | some x =>
          if w ≤ x.2 * 4 / 2 ^ 48 then
            (1, { l with step := d, frags := [((2 * (2 * x.1 + (x.2 - w * 2 ^ 46)) * 4 + 2 ^ 49) / 2 ^ 50, w)] })
          else (2, l)
        | none => (2, l)
      | _ => (2, l)

/-- Fragments moved by the group's PHASE where placement is not windowed, and by DRV_c_EDGE_ADJ (R163, R232). -/
def drvPlace (b : Blk) (c : Nat) (p : DrvPlan) (fs : List (Nat × Nat)) : List (Nat × Nat) :=
  let per4 := quarters p.per
  let ph := if p.windows.isEmpty then p.phase * per4 / 65536 else 0
  let adj := sx 16 (b.fld (Reg.DRV_c_EDGE_ADJ c) 15 0)
  fs.map (fun f => ((((f.1 + ph : Nat) : Int) - adj) % (max 1 per4 : Nat) |>.toNat, f.2))

/-- The pins show the light of channel `c`; they stay low during a forced interruption (R422). -/
def drvLightOut (b : Blk) (c : Nat) (once : Bool) (step : Nat) (frags : List (Nat × Nat)) : Blk :=
  if b.cal.broken.elem c then b else b.emit (.drvLight c once step frags)

/-- Light `x` is what channel `c` emits from now on: STEP and WIDTH follow. -/
def drvApply (b : Blk) (c : Nat) (x : DrvNext) : Blk :=
  let b := (b.wrN (Reg.DRV_c_STEP c) x.step).wrN (Reg.DRV_c_WIDTH c) ((x.frags.map (·.2)).foldl (· + ·) 0)
  let b := b.setChan c { b.chan c with per := x.per, frags := x.frags, next := none }
  drvRegulate (drvLightOut b c false x.step x.frags) c

/-- The light of channel `c` for its level, from position `p` on: LEVEL, DIAG and DERATING follow; a new D takes effect at once, as the first
switching period is less than 4 µs away, a new W at the first pulse period; level 0, which has no D, with its W (R232, R238, R244, R247;
log entry 64). The handling of R247 is the second part. -/
def drvEmit (b : Blk) (c : Nat) (p : Nat × Nat) : Blk × Nat × Bool :=
  let x := b.chan c
  let v := min x.level (drvCap b c)
  let pl := drvPlan b c
  let l := if pl.windows.isEmpty then dimPlain v pl.per else dimWindowed v pl.per pl.windows
  let r := drvVerify (drvDiagMin b c) v pl.per pl.windows l
  let b := b.wrN (Reg.DRV_c_LEVEL c) v
  let b := (b.setFld (Reg.DRV_c_STATUS c) 5 4 r.1).setFlag (Reg.DRV_c_STATUS c) 6 (drvCap b c < x.level)
  let y : DrvNext := { pos := drvPulseFrom b c (!pl.windows.isEmpty) p, step := r.2.step, per := quarters pl.per
                       frags := drvPlace b c pl r.2.frags }
  let b := b.setChan c { b.chan c with plan := pl, law := l.step }
  let b := if y.pos = p then drvApply b c y
    else
      let b := b.setChan c { b.chan c with next := some y }
      if y.step = 0 || y.step = b.rdN (Reg.DRV_c_STEP c) then b
      else drvRegulate (drvLightOut (b.wrN (Reg.DRV_c_STEP c) y.step) c false y.step x.frags) c
  (b, r.1, l.clipped)

/-- The pulse period with which light waits to take effect has come (R238). -/
def drvTick (b : Blk) (c : Nat) : Blk :=
  match (b.chan c).next with
  | some y =>
    let mer := grpMer b (drvGroup b c)
    if decide (posDiff (merTpf16 b mer) y.pos (merPos b mer) ≤ 0) then drvApply b c y else b
  | none => b

/-- The first pulse of the frame is the diagnostic pulse: 2 µs at DIAG_MIN, to which the regulator goes for it, where that pulse would start or centred in the longest
window (R247). -/
def drvDiagPulse (b : Blk) (c : Nat) : Blk :=
  let p := (b.chan c).plan
  let x := p.windows.getD (longest (p.windows.map (·.2))) (0, 0)
  let start := if p.windows.isEmpty then 0 else (2 * (2 * x.1 + (x.2 - diag4 * 2 ^ 46)) * 4 + 2 ^ 49) / 2 ^ 50
  let fs := drvPlace b c p [(start, diag4)]
  let b := (drvRegulateAt (drvLightOut b c true (drvDiagMin b c) fs) c (drvDiagMin b c)).setChan c { b.chan c with diagDue := false, diagNow := true }
  ((b.count (Reg.DRV_c_DIAG_PULSES c)).irq (Reg.DRV_c_INT_STATUS c) 3).wr (Reg.DRV_c_UNVERIFIED_RUN c) 0#32

/-- A frame of channel `c` begins at position `p` with its level (R164, R247): the pulse plan is made, its periods are counted, an
UNVERIFIED frame is counted. A diagnostic pulse that is due is inserted in the next frame if that is an UNVERIFIED one, so that the bound of
R248 holds; a verified frame resets the run instead (log entry 64). -/
def drvFrame (b : Blk) (c : Nat) (p : Nat × Nat) : Blk :=
  let due := (b.chan c).diagDue
  let r := drvEmit (b.setChan c { b.chan c with diagNow := false }) c p
  let b := r.1
  let g := drvGroup b c
  let periods := if b.flag (Reg.DRV_GRPg_CTRL g) 2 && (b.chan c).plan.windows.isEmpty then merRows b (grpMer b g) else 1
  let b := if r.2.2 then (b.count (Reg.DRV_c_WINDOW_CLIP c)).irq (Reg.DRV_c_INT_STATUS c) 9 else b
  let b := if r.2.1 = 1 then b.count (Reg.DRV_c_STRETCHED c) periods else b
  let lim := max 1 (b.fld (Reg.DRV_c_DIAG_CFG c) 31 16)
  match r.2.1 with
  | 2 =>
    if due then drvDiagPulse b c
    else
      let b := (b.count (Reg.DRV_c_UNVERIFIED_COUNT c)).count (Reg.DRV_c_UNVERIFIED_RUN c)
      let run := b.rdN (Reg.DRV_c_UNVERIFIED_RUN c)
      if b.flag (Reg.DRV_c_DIAG_CFG c) 8 then
        if lim ≤ run then b.setChan c { b.chan c with diagDue := true } else b
      else if run = lim then b.irq (Reg.DRV_c_INT_STATUS c) 2 else b
  | 3 => b
  | _ => (b.setChan c { b.chan c with diagDue := false }).wr (Reg.DRV_c_UNVERIFIED_RUN c) 0#32

/-! ### Latches (R237, R239, R250, R253) -/

/-- The address of channel `c`'s entry of frame `f` (R236). -/
def drvEntry (c f : Nat) : Nat := 0x10EA0000 + 0x2000 * (f % 2) + 4 * c

/-- What the check bits say of the entry of channel `c`. -/
def drvFound (ecc : List (Fin 16 × EccResult)) (c : Nat) : EccResult :=
  ((ecc.find? (fun e => e.1.val == c)).map (·.2)).getD .clean

/-- A read of channel `c`'s entry of frame `f` where it is marked delivered (R26, R236, R237): its level, none where it is not marked or
cannot be read; the mark clears. -/
def drvTake (m : Mem) (ecc : List (Fin 16 × EccResult)) (c f : Nat) (b : Blk) : Blk × Option Nat :=
  if b.drvGot.contains (c, f) then
    let b := { b with drvGot := b.drvGot.filter (fun e => !(e == (c, f))) }
    let found := drvFound ecc c
    (eccFound b found (drvEntry c f) 0x20 0, if found = .uncorrectable then none else some (beNat (Mem.bytes m (drvEntry c f) 3)))
  else (b, none)

/-- RECLAIM is complete once no channel is in HOLD (R253). -/
def drvHoldDone (b : Blk) : Blk :=
  if b.drv.reclaim && !(List.range 16).any (fun c => drvState b c == 2) then
    let b := { b with drv := { b.drv with reclaim := false, holdEnd := none } }
    (b.setFlag Reg.DRV_STATUS 16 false).irq Reg.DRV_INT_STATUS 2
  else b

/-- A channel starts from OFF, FAULT or TCRIT. -/
def drvStart (b : Blk) (c : Nat) : Blk :=
  let b := b.setChan c { b.chan c with restart := false, auto := false, clr := false, cool := false, ocRun := 0, partialRun := 0
                                       refN := 0, refSum := 0 }
  drvSetState (((b.setFld (Reg.DRV_c_STATUS c) 11 8 0).setFlag (Reg.DRV_c_STATUS c) 12 false).setFld (Reg.DRV_c_VSTR c) 31 16 0) c 1

/-- Channel `c` has taken its level at the latch at position `p`: it runs on, starts, returns from HOLD, or stays in FAULT or TCRIT until it
may restart (R237, R246, R250, R253). -/
def drvShow (p : Nat × Nat) (b : Blk) (c : Nat) : Blk :=
  let x := b.chan c
  match drvState b c with
  | 0 => drvFrame (drvStart b c) c p
  | 1 => drvFrame b c p
  | 2 => drvFrame (drvSetState b c 1) c p
  | st =>
    if x.restart then
      let b := if st = 4 then b.setFld (Reg.DRV_c_DERATE c) 15 0 0x2000 else b
      let b := if x.auto then b.irq (Reg.DRV_c_INT_STATUS c) 10 else b
      drvFrame (drvStart b c) c p
    else b

/-- The latch of frame `f` at channel `c`, at position `p` (R237, R246, R250, R253). It is the commit event of DRV_c_SET whatever the channel
is enabled for; a channel in HOLD has no latch until RECLAIM is written, and returns at the first one at which it takes a level. -/
def drvLatchChan (m : Mem) (ecc : List (Fin 16 × EccResult)) (p : Nat × Nat) (f : Nat) (b : Blk) (c : Nat) : Blk :=
  let held := drvState b c == 2
  let reg := b.flag (Reg.DRV_c_CTRL c) 2
  if held && !(b.drv.reclaim && drvEnabled b c) then b
  else
    let set := (b.ripe (Reg.DRV_c_SET c)).isSome
    let b := commitStaged b (Reg.DRV_c_SET c)
    if !drvEnabled b c then b
    else
      let r := if reg then (b, if held && !set then none else some (b.rdN (Reg.DRV_c_SET c) % 2 ^ 24)) else drvTake m ecc c f b
      match r.2 with
      | some v => drvShow p (r.1.setChan c { r.1.chan c with level := v }) c
      | none =>
        if held then r.1
        else drvShow p ((r.1.count (Reg.DRV_c_LATE_COUNT c)).irq (Reg.DRV_c_INT_STATUS c) 4) c

/-- The latch of frame `f` at group `g`, at position `p`; each frame is latched once (R237). -/
def drvLatch (m : Mem) (ecc : List (Fin 16 × EccResult)) (p : Nat × Nat) (f : Nat) (b : Blk) (g : Nat) : Blk :=
  if !b.flag (Reg.DRV_GRPg_CTRL g) 0 || Tab.at none b.drv.grpLast g == some f then b
  else
    let b := { b with drv := { b.drv with grpLast := Tab.upd none b.drv.grpLast g (some f) } }
    drvHoldDone (((List.range 16).filter (fun c => drvGroup b c == g)).foldl (drvLatchChan m ecc p f) b)

/-- START_ROW of Row `row` of Meridian `mer` at position `p`: the default latch of the frame before (R11, R237, R239). -/
def drvStartRow (mer : Nat) (p : Nat × Nat) (row : Nat) (ecc : List (Fin 16 × EccResult)) (m : Mem) (b : Blk) : Blk :=
  if row != 1 || merWithheld b mer then b
  else
    let gs := (List.range 16).filter (fun g => grpMer b g == mer && !b.flag (Reg.DRV_GRPg_CTRL g) 4)
    gs.foldl (drvLatch m ecc p ((p.1 + 2 ^ 32 - 1) % 2 ^ 32)) b

/-- A STRAND_LATCH of Meridian `mer` at position `p`, with its mask: it latches, for each group with LATCH_SRC 1 and its strand in the
mask, the frame that strand's LATCH carries, or the frame before where that strand does not run (R237, R239). -/
def drvStrandLatch (mer : Nat) (p : Nat × Nat) (mask : Nat) (ecc : List (Fin 16 × EccResult)) (m : Mem) (b : Blk) : Blk :=
  if merWithheld b mer then b
  else
    let gs := (List.range 16).filter (fun g =>
      let v := b.rdN (Reg.DRV_GRPg_CTRL g)
      grpMer b g == mer && bit v 4 && bit mask (bits v 12 8))
    gs.foldl (fun b g =>
      let n := b.fld (Reg.DRV_GRPg_CTRL g) 12 8
      let before := (p.1 + 2 ^ 32 - 1) % 2 ^ 32
      drvLatch m ecc p (if strRuns b n then (b.str n).lastLatch.getD before else before) b g) b

/-- The light of the running channels in `cs` is planned anew from position `p` of Meridian `mer` on: their group settings have changed (R232,
R240). -/
def drvReplan (mer : Nat) (p : Nat × Nat) (b : Blk) (cs : List Nat) : Blk :=
  cs.foldl (fun b c => if drvState b c == 1 && grpMer b (drvGroup b c) == mer then (drvEmit b c p).1 else b) b

/-- A frame boundary of Meridian `mer` (R240): staged group settings take effect or are refused, and channels change groups; the pulse
periods from here on follow them. -/
def drvBoundary (mer : Nat) (b : Blk) : Blk :=
  let p := merPos b mer
  let b := (List.range 16).foldl (fun b g =>
    let a := Reg.DRV_GRPg_CTRL g
    let waits := (b.ripe a).isSome || (b.ripe (Reg.DRV_GRPg_PHASE g)).isSome
    if grpMer b g != mer || !waits then b
    else
      let v := b.stagedOr a
      if bit v 0 && !merInRange b (bits v 1 1) then
        (b.unstage (fun x => x == a || x == Reg.DRV_GRPg_PHASE g)).irq Reg.DRV_INT_STATUS 5
      else
        let b := commitStaged (commitStaged b a) (Reg.DRV_GRPg_PHASE g)
        let b := b.setFld (Reg.DRV_GRPg_STATUS g) 1 0 (bits v 1 0)
        if bit v 0 then drvReplan mer p b ((List.range 16).filter (fun c => drvGroup b c == g))
        else ((List.range 16).filter (fun c => drvGroup b c == g && drvOn b c)).foldl (fun b c => drvOff b c 0) b) b
  (List.range 16).foldl (fun b c =>
    let a := Reg.DRV_c_CTRL c
    let g := bits (b.stagedOr a) 11 8
    if (b.ripe a).isSome && grpMer b g == mer then drvReplan mer p ((b.unstage (· == a)).setFld a 11 8 g) [c] else b) b

/-- Writes of DRV_c_CTRL and DRV_CTRL: clearing EN takes GATE and DIM low at once (Table 9-4), and ends the channel's Swatch (R415). FAULT and
TCRIT stay: they end as R250 and R246 say. -/
def drvCtrlWritten (b : Blk) : Blk :=
  ((List.range 16).filter (fun c => !drvEnabled b c && drvOn b c)).foldl (fun b c => drvOff (drvJobAbort b c) c 0) b

/-! ### Faults (R249, R250) -/

/-- A fault takes channel `c` off in this clock: what its light was then stays known for the other checks of the clock (R249). -/
def drvFaultOff (b : Blk) (c st code : Nat) : Blk :=
  let x := b.chan c
  let was := if drvOn b c then
      some (if x.diagNow then (drvDiagMin b c, 0) else (b.rdN (Reg.DRV_c_STEP c), b.fld (Reg.DRV_c_STATUS c) 5 4))
    else none
  let b := (drvOff b c st).setFld (Reg.DRV_c_STATUS c) 11 8 code
  b.setChan c { b.chan c with restart := false, auto := false, clr := false, cool := false, faultClock := some b.now, faultWas := was }

/-- GATE of channel `c` switches, or did up to a fault of this same clock: the step, and DIAG, 0 on a diagnostic pulse (R249). -/
def drvChecked (b : Blk) (c : Nat) : Option (Nat × Nat) :=
  let x := b.chan c
  if drvOn b c then some (if x.diagNow then (drvDiagMin b c, 0) else (b.rdN (Reg.DRV_c_STEP c), b.fld (Reg.DRV_c_STATUS c) 5 4))
  else if x.faultClock = some b.now then x.faultWas else none

/-- Faults of channel `c` are checked (R249). -/
def drvChecks (b : Blk) (c : Nat) : Bool := (drvChecked b c).isSome

/-- A fault latches: FAULT with its code (R249); of two in one clock the lower code is recorded, also over T_CRIT. -/
def drvFault (b : Blk) (c code : Nat) : Blk :=
  if drvState b c = 3 then b.setFld (Reg.DRV_c_STATUS c) 11 8 (min code (b.fld (Reg.DRV_c_STATUS c) 11 8))
  else
    let b := if drvState b c = 4 then (drvSetState b c 3).setFld (Reg.DRV_c_STATUS c) 11 8 code else drvFaultOff b c 3 code
    (b.count (Reg.DRV_c_FAULT_COUNT c)).irq (Reg.DRV_c_INT_STATUS c) 0

/-- The string voltage in 10 mV units, from microvolts at the pin (R229). -/
def drvVstr (b : Blk) (c pin : Nat) : Nat := min 65535 (pin * b.fld (Reg.DRV_c_VSTR_DIV c) 15 0 / (256 * 10000))

/-- VSTR_REF is learned from the first 64 verified periods at a step, and PARTIAL is checked against it (Table 9-2). -/
def drvPartial (b : Blk) (c vstr : Nat) : Blk :=
  let x := b.chan c
  let d := b.rdN (Reg.DRV_c_STEP c)
  let x := if x.refStep = d then x else { x with refStep := d, refSum := 0, refN := 0 }
  let lim := b.fld (Reg.DRV_c_PARTIAL c) 15 0
  if x.refN < 64 then
    let x := { x with refSum := x.refSum + vstr, refN := x.refN + 1 }
    let b := b.setChan c x
    if x.refN = 64 then b.setFld (Reg.DRV_c_VSTR c) 31 16 (x.refSum / 64) else b
  else
    let low := lim != 0 && vstr + 10 * lim < b.fld (Reg.DRV_c_VSTR c) 31 16
    let run := if low then x.partialRun + 1 else 0
    let b := b.setChan c { x with partialRun := run }
    if run = 16 then (b.setFlag (Reg.DRV_c_STATUS c) 12 true).irq (Reg.DRV_c_INT_STATUS c) 1
    else if low then b else b.setFlag (Reg.DRV_c_STATUS c) 12 false

/-- 2 µs after DIM rises: SHORT, OPEN and PARTIAL are checked, in a verified period and on the diagnostic pulse, whose command is that of
DIAG_MIN (R247, Table 9-2). No other period has that sample. -/
def drvDiagSample (c pin sense tOff : Nat) (b : Blk) : Blk :=
  let x := b.chan c
  match (drvChecked b c).filter (fun w => w.2 < 2) with
  | none => b
  | some w =>
    let v := drvVstr b c pin
    let cmd := drvCommand b c w.1 v tOff
    let vOpen := 10 * b.fld (Reg.DRV_c_VSTR_LIM c) 15 0
    let vShort := 10 * b.fld (Reg.DRV_c_VSTR_LIM c) 31 16
    let b := (b.setFld (Reg.DRV_c_VSTR c) 15 0 v).setChan c { x with diagNow := false }
    if v < vShort then drvFault b c 2
    else if vOpen != 0 && vOpen < v && 2 * sense < cmd then drvFault b c 3
    else if drvOn b c then drvRegulate (if x.diagNow then b else drvPartial b c v) c
    else b

/-- DRV_DIAG_SAMPLE (R247). -/
def execDrvDiagSample (c : Fin 16) (pin sense : BitVec 24) (tOff : BitVec 16) (s : State) : Result :=
  inDom 8 (onBlk (drvDiagSample c pin.toNat sense.toNat tOff.toNat)) s

/-- A switching period ended by the 100 mV limit `rise` nanoseconds after GATE rose: within LEB the limit is hidden (R230); 8 in a row latch
OVERCURRENT (R249). -/
def drvOvercurrent (c rise : Nat) (follows : Bool) (b : Blk) : Blk :=
  if !drvChecks b c || rise < drvLeb b c then b
  else
    let run := if follows then (b.chan c).ocRun + 1 else 1
    let b := (b.setChan c { b.chan c with ocRun := run }).count (Reg.DRV_c_OC_CYCLES c)
    if 8 ≤ run then drvFault b c 1 else b

/-- DRV_OVERCURRENT_CYCLE (R249). -/
def execDrvOvercurrentCycle (c : Fin 16) (t : BitVec 16) (follows : Bool) (s : State) : Result :=
  inDom 8 (onBlk (drvOvercurrent c t.toNat follows)) s

/-- DRV_SENSE_FAULT (R249): 16 switching periods in a row have lacked sense voltage. -/
def execDrvSenseFault (c : Fin 16) (s : State) : Result := inDom 8 (onBlk (fun b => if drvChecks b c then drvFault b c 4 else b)) s

/-- DRV_c_RETRY ms after a fault with AUTO_RETRY: the channel restarts at its next latch (R250). Before that time nothing happens. -/
def drvRetryExpiry (c : Nat) (b : Blk) : Blk :=
  let ms := b.fld (Reg.DRV_c_RETRY c) 15 0
  if drvState b c = 3 && b.flag (Reg.DRV_c_CTRL c) 1 && ms != 0 && (b.chan c).faultClock.all (fun t => decide (t + 1000000 * ms ≤ b.now)) then
    b.setChan c { b.chan c with restart := true, auto := true }
  else b

/-- DRV_RETRY_EXPIRY (R250). -/
def execDrvRetryExpiry (c : Fin 16) (s : State) : Result := inDom 8 (onBlk (drvRetryExpiry c)) s

/-- FAULT_CLR (R246, R250): a FAULT restarts at the next latch; a TCRIT does once it is cool. In the clock of the detection it is ignored. -/
def drvFaultClr (c : Nat) (b : Blk) : Blk :=
  let x := b.chan c
  if x.faultClock = some b.now then b
  else if drvState b c = 3 then b.setChan c { x with restart := true, auto := false }
  else if drvState b c = 4 then b.setChan c { x with clr := true, restart := x.restart || x.cool }
  else b

/-- DRV_FAULT_CLR (R250). -/
def execDrvFaultClr (c : Fin 16) (s : State) : Result := inDom 8 (onBlk (drvFaultClr c)) s

/-! ### Derating (R244 to R246) -/

/-- T_k and F_k of channel `c`. -/
def deratePoint (b : Blk) (c k : Nat) : Int × Nat :=
  (sx 16 (b.fld (Reg.DRV_c_DERATE_x c k) 15 0), b.fld (Reg.DRV_c_DERATE_x c k) 31 16)

/-- Some point lies below the one before it. -/
def derateDisorder (b : Blk) (c : Nat) : Bool :=
  (List.range 7).any (fun k => decide ((deratePoint b c (k + 1)).1 < (deratePoint b c k).1))

/-- The target factor of the table at temperature `t` (R244). -/
def derateTarget (b : Blk) (c : Nat) (t : Int) : Nat :=
  match (List.range 8).reverse.find? (fun k => decide ((deratePoint b c k).1 ≤ t)) with
  | none => (deratePoint b c 0).2
  | some 7 => (deratePoint b c 7).2
  | some k =>
    let p := deratePoint b c k
    let q := deratePoint b c (k + 1)
    ((p.2 : Int) + roundUp (((q.2 : Int) - p.2) * (t - p.1)) (q.1 - p.1)).toNat

/-- D_FAULT. -/
def drvDfault (b : Blk) (c : Nat) : Nat := b.fld (Reg.DRV_c_DFAULT c) 15 0
/-- THERM.EN. -/
def thermEn (b : Blk) (c : Nat) : Bool := b.flag (Reg.DRV_c_THERM c) 8

/-- The target takes `f`; leaving 1.0 sets DERATE_START (Table 9-7). -/
def derateSet (b : Blk) (c f : Nat) : Blk :=
  let old := b.fld (Reg.DRV_c_DERATE c) 31 16
  let b := b.setFld (Reg.DRV_c_DERATE c) 31 16 f
  if old = 0x8000 && f < 0x8000 then b.irq (Reg.DRV_c_INT_STATUS c) 5 else b

/-- A sensor fault begins or stands (R245). -/
def sensorFault (b : Blk) (c : Nat) : Blk :=
  if !thermEn b c then b
  else
    let was := b.flag (Reg.DRV_c_STATUS c) 7
    let b := derateSet ((b.setFlag (Reg.DRV_c_STATUS c) 7 true).setFlag (Reg.DRV_c_TEMP c) 16 false) c (drvDfault b c)
    if was then b else b.irq (Reg.DRV_c_INT_STATUS c) 6

/-- The derating points are out of order while THERM.EN is set (R244). -/
def derateCheck (b : Blk) (c : Nat) : Blk :=
  if thermEn b c && derateDisorder b c then
    (derateSet (b.setFlag (Reg.DRV_c_STATUS c) 3 true) c (drvDfault b c)).irq Reg.DRV_INT_STATUS 5
  else b

/-- The sensor that channel `c` names has failed: its ratio was outside its table, or its list entry has failed (R245). -/
def sensorFailed (b : Blk) (c : Nat) : Bool :=
  let i := b.fld (Reg.DRV_c_THERM c) 5 0
  if b.flag (Reg.DRV_c_THERM c) 7 then b.flag (Reg.DRV_SNSs_STAT i) 1 else b.drv.ainOut.contains i

/-- A write of DRV_c_THERM, or of the derating table (R244, R245): naming a failed sensor is a sensor fault. -/
def thermWritten (therm : Bool) (b : Blk) (c : Nat) : Blk :=
  if thermEn b c then
    let b := if therm then b.setChan c { b.chan c with readClock := b.now } else b
    derateCheck (if therm && sensorFailed b c then sensorFault b c else b) c
  else derateSet (b.clearN (Reg.DRV_c_STATUS c) 0x88) c 0x8000

/-- T_CRIT in 1/16 °C, and T_CRIT - HYST. -/
def drvTcrit (b : Blk) (c : Nat) : Int := sx 16 (b.fld (Reg.DRV_c_TCRIT c) 15 0)
def drvTclear (b : Blk) (c : Nat) : Int := drvTcrit b c - 16 * (b.fld (Reg.DRV_c_TCRIT c) 23 16 : Nat)

/-- A reading at or above T_CRIT takes the channel to TCRIT from any state; in TCRIT it undoes what a cool reading has brought (R246). Where a
fault has latched in this same clock, that stands, its code being the lower (R249; log entry 64). -/
def drvHot (b : Blk) (c : Nat) : Blk :=
  if drvState b c = 4 then b.setChan c { b.chan c with restart := false, cool := false }
  else if drvState b c = 3 && (b.chan c).faultClock == some b.now then b.irq (Reg.DRV_c_INT_STATUS c) 7
  else (drvFaultOff b c 4 5).irq (Reg.DRV_c_INT_STATUS c) 7

/-- A valid reading of channel `c`'s sensor, in 1/16 °C (R244 to R246). -/
def drvReading (t : Int) (b : Blk) (c : Nat) : Blk :=
  let b := (b.wrN (Reg.DRV_c_TEMP c) (ux 16 t + 2 ^ 16)).setFlag (Reg.DRV_c_STATUS c) 7 false
  let b := b.setChan c { b.chan c with readClock := b.now }
  let b := if derateDisorder b c then derateCheck b c
    else derateSet (b.setFlag (Reg.DRV_c_STATUS c) 3 false) c (derateTarget b c t)
  if drvTcrit b c ≤ t then drvHot b c
  else if drvState b c = 4 && t < drvTclear b c then
    let x := b.chan c
    (b.setChan c { x with cool := true, restart := x.restart || x.clr || b.flag (Reg.DRV_c_TCRIT c) 24 }).irq
      (Reg.DRV_c_INT_STATUS c) 8
  else b

/-- The channels with THERM.EN whose sensor is number `i` of a kind: 0 AIN, 1 sensor list. -/
def chansOn (b : Blk) (kind i : Nat) : List Nat :=
  (List.range 16).filter (fun c => thermEn b c && b.fld (Reg.DRV_c_THERM c) 7 7 == kind && b.fld (Reg.DRV_c_THERM c) 5 0 == i)

/-- No valid reading has arrived for 1 s (R245); before that time nothing happens. -/
def sensorStale (c : Nat) (b : Blk) : Blk := if (b.chan c).readClock + 10 ^ 9 ≤ b.now then sensorFault b c else b

/-- SENSOR_STALE (R245). -/
def execSensorStale (c : Fin 16) (s : State) : Result := inDom 8 (onBlk (sensorStale c)) s

/-- A time in 0.25 ns as a multiple of 20 ns, rounded. -/
def to20 (t : Nat) : Nat := (t + 40) / 80 * 80

/-- Fragments scaled to a total of `w`, each on the grid of 20 ns, by cumulative rounding; their offsets stay (R252). -/
def holdFrags (fs : List (Nat × Nat)) (w : Nat) : List (Nat × Nat) :=
  let total := max 1 ((fs.map (·.2)).foldl (· + ·) 0)
  let ends (j : Nat) : Nat := if j = fs.length then w else to20 (w * ((fs.take j).map (·.2)).foldl (· + ·) 0 / total)
  ((List.range fs.length).map (fun j => ((fs.getD j (0, 0)).1, ends (j + 1) - ends j))).filter (fun f => f.2 != 0)

/-- The light of a held channel after its cap has moved (R252): it keeps its D, which is the dimming law's, its period and its places; W
follows the level on the grid of RCLK, as far as the period goes, and a pulse of less than 2 µs is stretched. A channel that has had no D
since it was dark takes the crossover's, 256 (log entry 64). -/
def drvHoldEmit (b : Blk) (c : Nat) : Blk :=
  let x := b.chan c
  let v := min x.level (drvCap b c)
  if v = b.rdN (Reg.DRV_c_LEVEL c) then b
  else
    let d := if x.law = 0 then 256 else x.law
    let w := dimFloor (min x.per (to20 (v * x.per / (4096 * d)))) (x.per * 2 ^ 46)
    let d' := d * w / diag4
    let r := if w = 0 then (0, 0) else if w < diag4 && drvDiagMin b c ≤ d' then (d', to20 (d * w / d')) else (d, w)
    let fs := holdFrags x.hold r.2
    let b := ((b.wrN (Reg.DRV_c_LEVEL c) v).wrN (Reg.DRV_c_STEP c) r.1).wrN (Reg.DRV_c_WIDTH c) ((fs.map (·.2)).foldl (· + ·) 0)
    drvRegulate (drvLightOut ((b.setFlag (Reg.DRV_c_STATUS c) 6 (decide (drvCap b c < x.level))).setChan c { x with frags := fs }) c false
      r.1 fs) c

/-- D_th moves one LSB towards its target, at most 327 times a second; the light follows (R244). -/
def derateSlewStep (c : Nat) (b : Blk) : Blk :=
  let d := drvDth b c
  let t := b.fld (Reg.DRV_c_DERATE c) 31 16
  if d = t || (b.chan c).slewAt.any (fun t => decide (b.now * 327 < t * 327 + 10 ^ 9)) then b
  else
    let b := b.setFld (Reg.DRV_c_DERATE c) 15 0 (if d < t then d + 1 else d - 1)
    let b := b.setChan c { b.chan c with slewAt := some b.now }
    if drvState b c = 1 then (drvEmit b c (merPos b (grpMer b (drvGroup b c)))).1 else if drvState b c = 2 then drvHoldEmit b c else b

/-- DERATE_SLEW_STEP (R244). -/
def execDerateSlewStep (c : Fin 16) (s : State) : Result := inDom 8 (onBlk (derateSlewStep c)) s

/-! ### Sensors (R241 to R243) -/

/-- The first entry that the conversion of bus `k` still reads has its transaction: a write of REG, a repeated start, and a read of 2 bytes
or, for a colour sensor, 8; with none left the conversion is over (R243). -/
def busNext (b : Blk) (k : Nat) : Blk :=
  match Tab.at [] b.drv.queues k with
  | s :: _ =>
    let cfg := b.rdN (Reg.DRV_SNSs_CFG s)
    b.emit (.i2c k (bits cfg 6 0) (bits cfg 23 16) (if bit cfg 11 then 8 else 2))
  | [] => { b with drv := { b.drv with busy := b.drv.busy.filter (· != 8 + k) } }

/-- A conversion starts at input `i` (0 to 7) or bus `i` - 8 (R241, R243): a bus reads its enabled list entries in order. One under way goes
on (log entry 64). -/
def sensorStart1 (b : Blk) (i : Nat) : Blk :=
  let d := b.drv
  if d.busy.contains i then b
  else
    let b := { b with drv := { d with started := Tab.upd 0 d.started i b.now, busy := d.busy ++ [i] } }
    if i < 8 then b
    else
      let k := i - 8
      let es := (List.range 64).filter (fun s => b.flag (Reg.DRV_SNSs_CFG s) 10 && b.fld (Reg.DRV_SNSs_CFG s) 9 8 == k)
      busNext { b with drv := { b.drv with queues := Tab.upd [] b.drv.queues k es } } k

/-- Conversions start at these inputs (0 to 7) and buses (8 to 11); a bus that is off does not convert (R241, Table 9-3). -/
def sensorStart (b : Blk) (is : List Nat) : Blk :=
  (is.filter (fun i => i < 8 || b.fld Reg.DRV_SNS_CTRL (2 * (i - 8) + 1) (2 * (i - 8)) != 0)).foldl sensorStart1 b

/-- A SENSOR_START action (Table 3-8): AIN mask in [7:0], bus mask in [11:8]. -/
def sensorAction (b : Blk) (arg : Nat) : Blk := sensorStart b ((List.range 12).filter (bit arg))

/-- No conversion has started at an input or bus for AUTO_MS: one does (R241); before that time nothing happens. -/
def sensorAuto (i : Nat) (b : Blk) : Blk :=
  if Tab.at 0 b.drv.started i + 1000000 * max 1 (b.fld Reg.DRV_SNS_CTRL 15 8) ≤ b.now then sensorStart b [i] else b

/-- SENSOR_AUTO_START (R241). -/
def execSensorAutoStart (bus : Bool) (i : Fin 8) (s : State) : Result :=
  inDom 8 (onBlk (sensorAuto (if bus then 8 + i.val % 4 else i.val))) s

/-- The temperature of ratio `r` at input `i`, none outside the table (R242). -/
def ntcTemp (b : Blk) (i r : Nat) : Option Int :=
  let rat (k : Nat) : Nat := b.fld (Reg.DRV_NTCi_k i k) 11 0
  let tmp (k : Nat) : Int := sx 16 (b.fld (Reg.DRV_NTCi_k i k) 31 16)
  ((List.range 15).find? (fun k => rat k ≤ r && r ≤ rat (k + 1))).map (fun k =>
    if rat k = rat (k + 1) then tmp k
    else tmp k + roundUp ((tmp (k + 1) - tmp k) * ((r : Int) - rat k)) ((rat (k + 1) : Int) - rat k))

/-- An NTC conversion completes, 10 µs after its start at the earliest (R241, R242). -/
def ainDone (i r : Nat) (b : Blk) : Blk :=
  if !b.drv.busy.contains i || b.now < Tab.at 0 b.drv.started i + 10000 then b
  else
    let t := ntcTemp b i r
    let out := b.drv.ainOut.filter (· != i)
    let b := { b with drv := { b.drv with busy := b.drv.busy.filter (· != i), ainOut := if t.isSome then out else out ++ [i] } }
    let b := b.irq Reg.DRV_INT_STATUS 3
    match t with
    | some t => (chansOn b 0 i).foldl (drvReading t) (b.wrN (Reg.DRV_AINi i) (r + 2 ^ 15 + 2 ^ 16 * ux 16 t))
    | none => (chansOn b 0 i).foldl sensorFault (b.wrN (Reg.DRV_AINi i) r)

/-- AIN_CONVERSION_DONE (R242). -/
def execAinConversionDone (i : Fin 8) (ratio : BitVec 12) (s : State) : Result := inDom 8 (onBlk (ainDone i ratio.toNat)) s

/-- The expected reading of sensor channel `k` of trim group `t`, as numerator and denominator (R156). -/
def trimExpect (b : Blk) (t k : Nat) : Nat × Nat :=
  let ref := Tab.at ([], 0) b.drv.refs t
  (((List.range 8).map (fun e =>
      if bits (b.rdN (Reg.TRIM_t_CH t)) (4 * e + 1) (4 * e) = k then b.rdN (Reg.TRIM_t_K t e) * ref.1.getD e 0 else 0)).foldl (· + ·) 0,
    ref.2 * 0xFFFFFF * 2 ^ 16)

/-- Trim T_e. -/
def trimOf (b : Blk) (t e : Nat) : Nat := b.fld (Reg.TRIM_t_TRIM t (e / 2)) (16 * (e % 2) + 15) (16 * (e % 2))

/-- The update of one emitter's trim from its channel's count `s` (R156). -/
def trimEmitter (t : Nat) (counts : List Nat) (b : Blk) (e : Nat) : Blk :=
  let k := bits (b.rdN (Reg.TRIM_t_CH t)) (4 * e + 1) (4 * e)
  let s := counts.getD k 0
  let x := trimExpect b t k
  let low := x.2 = 0 || x.1 < b.fld (Reg.TRIM_t_GAIN t) 31 16 * x.2
  if low || s = 0 || b.flag (Reg.TRIM_t_CTRL t) 1 then b
  else
    let old := trimOf b t e
    let g := b.fld (Reg.TRIM_t_GAIN t) 15 0
    let d := roundUp (((old * g : Nat) : Int) * ((x.1 : Int) - ((s * x.2 : Nat) : Int))) ((65536 * s * x.2 : Nat) : Int)
    let want := (old : Int) + clampI (-256) 256 d
    let lo := b.fld (Reg.TRIM_t_MINMAX t) 15 0
    let hi := b.fld (Reg.TRIM_t_MINMAX t) 31 16
    let new := clampI lo hi want
    let b := b.setFld (Reg.TRIM_t_TRIM t (e / 2)) (16 * (e % 2) + 15) (16 * (e % 2)) new.toNat
    b.setFlag (Reg.TRIM_t_STATUS t) e (decide (new ≠ want))

/-- The loop of a trim group at a reading of its sensor (R156). -/
def trimLoop (counts : List Nat) (b : Blk) (t : Nat) : Blk :=
  let low := (List.range 8).any (fun e =>
    let x := trimExpect b t (bits (b.rdN (Reg.TRIM_t_CH t)) (4 * e + 1) (4 * e))
    x.2 == 0 || x.1 < b.fld (Reg.TRIM_t_GAIN t) 31 16 * x.2)
  let b := ((List.range 8).foldl (trimEmitter t counts) b).setFlag (Reg.TRIM_t_STATUS t) 8 low
  b.setFld (Reg.TRIM_t_STATUS t) 31 16 (b.fld (Reg.TRIM_t_STATUS t) 31 16 + 1)

/-- A reading of a trim group's sensor: in SENSOR mode the loop runs, and the averages restart in either mode (R156). -/
def trimUpdate (counts : List Nat) (b : Blk) (t : Nat) : Blk :=
  let b := if b.flag (Reg.TRIM_t_CTRL t) 0 then trimLoop counts b t else b
  { b with drv := { b.drv with refs := Tab.upd ([], 0) b.drv.refs t ([], 0) } }

/-- What the transaction of list entry `s` has brought, or its NACK (R243). -/
def snsTake (s : Nat) (data : Option (BitVec 64)) (b : Blk) : Blk :=
  let cfg := b.rdN (Reg.DRV_SNSs_CFG s)
  match data with
  | none =>
    let run := Tab.at 0 b.drv.snsFail s + 1
    let b := { b with drv := { b.drv with snsFail := Tab.upd 0 b.drv.snsFail s run } }.irq Reg.DRV_INT_STATUS 4
    let b := b.setFld (Reg.DRV_SNSs_STAT s) 15 8 (sat8 (b.fld (Reg.DRV_SNSs_STAT s) 15 8 + 1))
    if 3 ≤ run then (chansOn b 1 s).foldl sensorFault (b.setFld (Reg.DRV_SNSs_STAT s) 1 0 2) else b
  | some d =>
    let word (k : Nat) : Nat :=
      let w := d.toNat / 2 ^ (16 * k) % 65536
      if bit cfg 12 then w % 256 * 256 + w / 256 else w
    let b := { b with drv := { b.drv with snsFail := Tab.upd 0 b.drv.snsFail s 0, snsGood := Tab.upd none b.drv.snsGood s (some b.now) } }
    let b := (b.setFld (Reg.DRV_SNSs_STAT s) 1 0 1).irq Reg.DRV_INT_STATUS 3
    if bit cfg 11 then
      let b := (b.wrN (Reg.DRV_SNSs_DATA0 s) (word 0 + 65536 * word 1)).wrN (Reg.DRV_SNSs_DATA1 s) (word 2 + 65536 * word 3)
      ((List.range 32).filter (fun t => b.fld (Reg.TRIM_t_CTRL t) 7 2 == s)).foldl
        (trimUpdate ((List.range 4).map word)) b
    else
      let t := sx 16 (word 0) / ((2 ^ bits cfg 31 28 : Nat) : Int)
      (chansOn b 1 s).foldl (drvReading t) (b.wrN (Reg.DRV_SNSs_DATA0 s) (ux 16 t))

/-- The I2C transaction of list entry `s`, the one its bus is on, completes or ends in a NACK; the next entry's begins (R243). -/
def snsDone (s : Nat) (data : Option (BitVec 64)) (b : Blk) : Blk :=
  let k := b.fld (Reg.DRV_SNSs_CFG s) 9 8
  match Tab.at [] b.drv.queues k with
  | e :: es =>
    if e = s then busNext (snsTake s data { b with drv := { b.drv with queues := Tab.upd [] b.drv.queues k es } }) k else b
  | [] => b

/-- SNS_TRANSACTION_DONE (R243). -/
def execSnsTransactionDone (i : Fin 64) (data : Option (BitVec 64)) (s : State) : Result := inDom 8 (onBlk (snsDone i data)) s

/-! ### Holding through a warm reset (R251 to R253) -/

/-- A channel enters HOLD (R252): light that waits for its pulse period takes effect, as pulse periods start anew; the period and W are
rounded to the grid of RCLK, with the 40 ns rule. -/
def drvHoldChan (b : Blk) (c : Nat) : Blk :=
  if drvState b c != 1 then b
  else
    let b := match (b.chan c).next with
      | some y => drvApply b c y
      | none => b
    let x := b.chan c
    let per := to20 x.per
    let fs := holdFrags x.frags (dimFloor (to20 ((x.frags.map (·.2)).foldl (· + ·) 0)) (per * 2 ^ 46))
    let b := (drvSetState b c 2).wrN (Reg.DRV_c_WIDTH c) ((fs.map (·.2)).foldl (· + ·) 0)
    let hold := if x.frags.isEmpty then drvPlace b c x.plan [(0, 1)] else x.frags
    let b := b.setChan c { x with per, frags := fs, hold, diagDue := false, diagNow := false }
    drvRegulate (b.emit (.drvLight c false (b.rdN (Reg.DRV_c_STEP c)) fs)) c

/-- A warm reset with DRV_HOLD_CTRL.EN (R251, R252): channels that run enter HOLD, those of a RECLAIM under way too; a second one does not
restart the limit. -/
def drvHoldEnter (b : Blk) : Blk :=
  let b := (List.range 16).foldl drvHoldChan b
  if b.flag Reg.DRV_STATUS 16 then { b with drv := { b.drv with reclaim := false } }
  else
    let lim := b.fld Reg.DRV_HOLD_CTRL 31 16
    let b := { b with drv := { b.drv with holdEnd := some (b.now + lim * 1000000), reclaim := false } }
    ((b.wrN Reg.DRV_HOLD_REMAIN lim).setFlag Reg.DRV_STATUS 16 true).irq Reg.DRV_INT_STATUS 0

/-- HOLD_LIMIT has counted to zero: every channel still in HOLD goes off (R252). Before that nothing happens. -/
def drvHoldExpiry (b : Blk) : Blk :=
  if !b.flag Reg.DRV_STATUS 16 || b.drv.holdEnd.any (fun t => decide (b.now < t)) then b
  else
    let b := ((List.range 16).filter (fun c => drvState b c == 2)).foldl (fun b c => drvOff b c 0) b
    let b := { b with drv := { b.drv with holdEnd := none, reclaim := false } }
    ((b.wr Reg.DRV_HOLD_REMAIN 0#32).setFld Reg.DRV_STATUS 17 16 2).irq Reg.DRV_INT_STATUS 1

/-- DRV_HOLD_EXPIRY (R252). -/
def execDrvHoldExpiry (s : State) : Result := inDom 8 (onBlk drvHoldExpiry) s

/-- DRV_CTRL.RECLAIM: without effect while HOLD_ACTIVE is clear (R253). -/
def drvReclaim (b : Blk) : Blk :=
  if b.flag Reg.DRV_STATUS 16 then drvHoldDone { b with drv := { b.drv with reclaim := true } } else b

/-- DRV_RECLAIM (R253). -/
def execDrvReclaim (s : State) : Result := inDom 8 (onBlk drvReclaim) s

/-- CLR_COUNTS of DRV_c_CTRL, or of DRV_CTRL for every channel (R254). -/
def drvClrCounts (c : Option Nat) (b : Blk) : Blk :=
  let cs := match c with | some c => [c] | none => List.range 16
  b.zero (cs.flatMap (fun c => (List.range 7).map (fun i => Reg.DRV_c_LATE_COUNT c + 4 * i)))

/-- DRV_CLR_COUNTS (R254). -/
def execDrvClrCounts (c : Option (Fin 16)) (s : State) : Result := inDom 8 (onBlk (drvClrCounts (c.map (·.val)))) s

end Sys2Proof.Machine
end

