-- ==== Sys2Proof/Machine/Node.lean ====
section
/-!
DEFINITION. Strand nodes (R169, R178, R191, R196, R198, R200, R202 to R205, R455): what a conforming node forwards, answers, latches and
shows.
-/
namespace Sys2Proof.Machine

/-- Node `k` of strand `n`. -/
def Blk.node (b : Blk) (n k : Nat) : Node := Tab.at {} b.nodes (2048 * n + k)
/-- Node `k` of strand `n` takes `x`. -/
def Blk.setNode (b : Blk) (n k : Nat) (x : Node) : Blk := { b with nodes := Tab.upd {} b.nodes (2048 * n + k) x }

/-! ### Frames as received (R176, R455) -/

/-- TYPE of a received frame. -/
def fType (f : List Byte) : Nat := leAt f 0 1
/-- FLAGS. -/
def fFlags (f : List Byte) : Nat := leAt f 1 1
/-- ADDR. -/
def fAddr (f : List Byte) : Nat := leAt f 2 2
/-- SEQ. -/
def fSeq (f : List Byte) : Nat := leAt f 4 2
/-- LEN. -/
def fLen (f : List Byte) : Nat := leAt f 6 2
/-- The payload. -/
def fPayload (f : List Byte) : List Byte := slice f 8 (fLen f)
/-- A payload field of `k` bytes at offset `o`. -/
def fLe (f : List Byte) (o k : Nat) : Nat := leAt f (8 + o) k

/-- The CRC is right. -/
def fCrcOk (f : List Byte) : Bool :=
  f.length == 12 + fLen f && crc32 (f.take (8 + fLen f)) == leAt f (8 + fLen f) 4

/-- LEN lies in the range of Table 7-4 for a defined TYPE (R455). -/
def fWellFormed (f : List Byte) : Bool :=
  let l := fLen f
  match fType f with
  | 1 => l == 8
  | 2 => (match fLe f 0 1 with | 0 => l == 12 | 1 => l == 16 | 2 => l == 4 + fLe f 2 2 | _ => false)
  | 3 => 9 ≤ l && l ≤ 1024
  | 4 => l == 16
  | 5 => l == 68
  | 6 => l == 8
  | 7 => l == 4
  | 8 => l == 4
  | 9 => 8 ≤ l && l ≤ 48
  | 10 => l == 8
  | 11 => l == 4
  | _ => true

/-- The frame may be acted on. -/
def fGood (f : List Byte) : Bool := fCrcOk f && fWellFormed f

/-- Header and payload with a CRC, inverted for a frame whose own CRC was bad (Table 7-8). -/
def withCrc (body : List Byte) (good : Bool) : List Byte :=
  let c := crc32 body
  body ++ toLE 4 (if good then c else c ^^^ 0xFFFFFFFF)

/-- A frame with bytes `o` to `o + 1` of its payload replaced, and a new CRC. -/
def withField (f : List Byte) (o v : Nat) : List Byte :=
  withCrc (f.take (8 + o) ++ toLE 2 v ++ (f.drop (10 + o)).take (fLen f - o - 2)) (fCrcOk f)

/-! ### A node's pages (R178, Table 7-6) -/

/-- Capability bit `i` of a node. -/
def nodeCap (n k i : Nat) : Bool := bit (Config.nodeWord n k 3) i

/-- A counter of `w` bits adds 1 and stays at its largest value. -/
def satInc (w x : Nat) : Nat := min (2 ^ w - 1) (x + 1)

/-- The claims of pages 2: 0 where none was heard. -/
def nodePage2 (b : Blk) (x : Node) : List Byte :=
  toLE 1 x.state ++ toLE 1 (b2n x.side2) ++ toLE 2 (x.claim1.getD 0) ++ toLE 2 (x.claim2.getD 0)
    ++ toLE 2 (Config.freeValue b.freeCount)

/-- The content of a query page (Table 7-6), none for a page the node does not have. -/
def nodeQuery (b : Blk) (n k page : Nat) : Option (List Byte) :=
  let x := b.node n k
  let w (i : Nat) : Nat := Config.nodeWord n k i
  match page with
  | 0 => some (toLE 2 (w 0) ++ toLE 2 (w 1) ++ toLE 8 (w 2) ++ toLE 2 (w 3 % 512) ++ toLE 1 (w 4) ++ toLE 1 (w 5)
      ++ toLE 2 (w 6) ++ toLE 2 (w 7) ++ toLE 12 0)
  | 1 => some (toLE 4 x.crc1 ++ toLE 4 x.crc2 ++ toLE 2 x.los1 ++ toLE 2 x.los2 ++ toLE 2 x.holds ++ toLE 2 x.fails
      ++ toLE 2 x.switches ++ toLE 2 x.powerUps ++ toLE 2 x.delayed ++ toLE 2 x.noEpoch)
  | 2 => some (nodePage2 b x)
  | p => if 0x80 ≤ p then (Config.nodePage n k p).map (·.take 40) else none

/-- A REPLY of node `k` to a request, on the TX towards the requester (R205). -/
def nodeReply (b : Blk) (n k : Nat) (port2 : Bool) (seq page tag delay : Nat) (data : Option (List Byte)) : Blk :=
  let d := data.getD []
  let pay := toLE 1 page ++ toLE 1 (if data.isSome then 0 else 1) ++ toLE 2 tag ++ toLE 2 delay ++ toLE 2 0 ++ d
  let body := toLE 1 9 ++ toLE 1 0 ++ toLE 2 (b.node n k).addr ++ toLE 2 seq ++ toLE 2 pay.length ++ pay
  b.emit (.nodeTx n k port2 (withCrc body true))

/-! ### Sides (R200) -/

/-- The claim of a side, and whether it is heard: less than its TIMEOUT ago. -/
def Node.claim (x : Node) (side2 : Bool) : Option Nat := if side2 then x.claim2 else x.claim1
def Node.heard (x : Node) (now : Nat) (side2 : Bool) : Bool :=
  (x.claim side2).isSome && (if side2 then now < x.claimAt2 + x.claimTo2 else now < x.claimAt1 + x.claimTo1)

/-- The node switches side. -/
def Node.switch (x : Node) : Node :=
  { x with side2 := !x.side2, switchDue := false, switches := satInc 16 x.switches }

/-- The table of R200. -/
def Node.judge (x : Node) (now : Nat) : Node :=
  let s := x.heard now x.side2
  let o := x.heard now (!x.side2)
  if o && !s then x.switch
  else { x with switchDue := s && o && decide ((x.claim x.side2).getD 0 < (x.claim (!x.side2)).getD 0) }

/-- A claim at a port ages out (R200): before its TIMEOUT nothing happens. -/
def nodeClaimTimeout (n k : Nat) (port2 : Bool) (b : Blk) : Blk :=
  let x := b.node n k
  if nodeCap n k 4 && !x.heard b.now port2 then b.setNode n k (x.judge b.now) else b

/-- NODE_CLAIM_TIMEOUT (R200). -/
def execNodeClaimTimeout (n : Fin 32) (k : Fin 2048) (port2 : Bool) (s : State) : Result :=
  onBlk (nodeClaimTimeout n k port2) s

/-! ### Acting on frames (Table 7-8) -/

/-- ASSIGN (Table 7-5, R205): page 0 for its own address, kept per side as pending and current sets; page 1 for its own address;
page 2 also broadcast. -/
def nodeAssign (n k : Nat) (f : List Byte) (x : Node) : Node :=
  let own := fAddr f == x.addr
  match fLe f 0 1 with
  | 0 =>
    if !own then x
    else
      let e := (fLe f 2 1, fLe f 4 4, fLe f 8 4)
      let put (l : List (Nat × Nat × Nat)) : List (Nat × Nat × Nat) := (e :: l.filter (fun y => y.1 != e.1)).take 2
      if bit (fLe f 1 1) 0 then { x with lofs2 := put x.lofs2 } else { x with lofs1 := put x.lofs1 }
  | 1 =>
    if !own || fLe f 6 2 < 1 || Config.nodeWord n k 6 < fLe f 6 2 then x
    else
      { x with enc := fLe f 1 1 % 4, row := fLe f 2 1, pulse := fLe f 3 1 % 4, ofs := fLe f 4 2, bytes := fLe f 6 2
               hold := fLe f 8 2, phase := fLe f 10 2, addr := if fLe f 12 2 = 0xFFFF then x.addr else fLe f 12 2 }
  | _ => { x with scene := some (slice f 12 (fLe f 2 2)) }

/-- DATA from the selected side (R202): the node's bytes go, marked, into the buffer of FRAME[0]. -/
def nodeData (f : List Byte) (x : Node) : Node :=
  if fLe f 4 1 ≠ x.row then x
  else
    let o := fLe f 6 2
    let n := fLen f - 8
    let put (t : Tab (Option Byte)) : Tab (Option Byte) :=
      (List.range x.bytes).foldl (fun t i =>
        if o ≤ x.ofs + i && x.ofs + i < o + n then Tab.upd none t i (some (f.getD (16 + (x.ofs + i - o)) 0#8)) else t) t
    if fLe f 0 4 % 2 = 0 then { x with buf0 := put x.buf0 } else { x with buf1 := put x.buf1 }

/-- LATCH from the selected side (R191, R205): its latch instant is fixed by the offsets of its EPOCH and side; an EPOCH the node
lacks is counted, and the latest set held is used. -/
def nodeLatchRx (b : Blk) (f : List Byte) (rate : Nat) (x : Node) : Node :=
  let sets := if x.side2 then x.lofs2 else x.lofs1
  let found := sets.find? (fun e => e.1 == fLe f 15 1)
  let e := (found.orElse (fun _ => sets.head?)).getD (0, 0, 0)
  let due := now4 b + ((32 + e.2.1) * 4 * tsymOf rate + e.2.2 + fLe f 12 2 : Nat)
  { x with latches := x.latches ++ [(fLe f 0 4, bit (fFlags f) 0, due)], period := fLe f 4 4
           frameStart := due + fLe f 8 4, rows := max 1 (fLe f 14 1), noEpoch := if found.isSome then x.noEpoch else satInc 16 x.noEpoch }

/-- TIMEOUT of a CLAIM in nanoseconds: the value times its unit (R198). -/
def claimNs (v : Nat) : Nat := v % 32768 * (if bit v 15 then 1000000 else 10000)

/-- CLAIM (R200, R202). -/
def nodeClaimRx (n k : Nat) (b : Blk) (f : List Byte) (port2 : Bool) (x : Node) : Node :=
  let x := if port2 == x.side2 then { x with holdFrom := b.now } else x
  if nodeCap n k 4 then
    (if port2 then { x with claim2 := some (fLe f 0 2), claimAt2 := b.now, claimTo2 := claimNs (fLe f 2 2) }
      else { x with claim1 := some (fLe f 0 2), claimAt1 := b.now, claimTo1 := claimNs (fLe f 2 2) }).judge b.now
  else x

/-- SHUTTER from the selected side: its windows take effect at the next latch (Table 7-8). -/
def nodeShutterRx (f : List Byte) (x : Node) : Node :=
  { x with windowsNext := some ((List.range (min 8 (fLe f 0 1))).map (fun i => (fLe f (4 + 8 * i) 4, fLe f (8 + 8 * i) 4))) }

/-- PARK at a node with capability P: PARKED, and its PARK_LIMIT runs (R204). -/
def nodeParkRx (n k : Nat) (b : Blk) (f : List Byte) (x : Node) : Node :=
  let lim := if fLe f 0 2 = 0 then 1080 else fLe f 0 2
  if nodeCap n k 5 && x.state ≠ 3 then { x with state := 3, park := some (b.now, lim) } else x

/-- The rate of a node's TX pairs. -/
def nodeRate (b : Blk) (n k : Nat) : Nat := (b.node n k).rate.getD (strRate b n)

/-- What a node does with a good frame for its own address or for all, beside forwarding (Table 7-8). -/
def nodeAct (n k : Nat) (port2 : Bool) (f : List Byte) (delay : Nat) (b : Blk) : Blk :=
  let x := b.node n k
  let mine := (fAddr f == x.addr && x.addr != 0x7FFF) || fAddr f == 0xFFFF
  let side := port2 == x.side2
  match fType f with
  | 2 => if mine then b.setNode n k (nodeAssign n k f x) else b
  | 3 => if mine && side then b.setNode n k (nodeData f x) else b
  | 4 => if mine && side then b.setNode n k (nodeLatchRx b f (nodeRate b n k) x) else b
  | 5 => if mine && side then b.setNode n k (nodeShutterRx f x) else b
  | 6 => if mine then b.setNode n k (nodeClaimRx n k b f port2 x) else b
  | 7 => if mine && side then b.setNode n k { x with rate := some (nodeRate b n k), rateNext := some (fLe f 0 1 % 4) } else b
  | 8 => if mine then nodeReply b.drawn n k port2 (fSeq f) (fLe f 0 1) (fLe f 2 2) delay (nodeQuery b n k (fLe f 0 1)) else b
  | 10 => if mine && nodeCap n k 6 && fLe f 0 1 = 1 then b.setNode n k { x with calib := some (port2, fLe f 2 2, b.now) } else b
  | 11 => if mine then b.setNode n k (nodeParkRx n k b f x) else b
  | _ => b

/-- The frame leaves by the other port, unless a pattern runs on that TX (Table 7-8); a delayed frame is counted. -/
def nodeForward (n k : Nat) (port2 : Bool) (f : List Byte) (delay : Nat) (b : Blk) : Blk :=
  let x := b.node n k
  if x.pattern.any (fun p => p.1 == !port2 && decide (b.now < p.2)) then b.setNode n k { x with dropped := satInc 16 x.dropped }
  else
    let b := if delay = 0 then b else b.setNode n k { x with delayed := satInc 16 x.delayed }
    b.emit (.nodeTx n k (!port2) f)

/-- A node receives a frame at Port-1 or Port-2 (R205, R455). -/
def nodeFrameRx (n k : Nat) (port2 : Bool) (f : List Byte) (delay : Nat) (b : Blk) : Blk :=
  let good := fGood f
  let x := b.node n k
  let b := if good then b
    else b.setNode n k (if port2 then { x with crc2 := satInc 32 x.crc2 } else { x with crc1 := satInc 32 x.crc1 })
  if fType f = 1 && fWellFormed f then
    if fLe f 0 2 ≠ 0 then nodeForward n k port2 (withField f 0 (fLe f 0 2 - 1)) delay b
    else if !good then b
    else
      let x := b.node n k
      let addr := fLe f 2 2
      let b := b.setNode n k { x with addr, state := if x.state = 4 && addr ≠ 0x7FFF then 1 else x.state }
      nodeReply b n k port2 (fSeq f) 0 (fSeq f) delay (nodeQuery b n k 0)
  else if fType f = 9 && good && delay ≠ 0 then nodeForward n k port2 (withField f 4 (fLe f 4 2 + delay)) delay b
  else
    let b := nodeForward n k port2 f delay b
    if good then nodeAct n k port2 f delay b else b

/-- NODE_FRAME_RX (R205). -/
def execNodeFrameRx (n : Fin 32) (k : Fin 2048) (port2 : Bool) (frame : List Byte) (delay : BitVec 16) (s : State) : Result :=
  onBlk (nodeFrameRx n k port2 frame delay.toNat) s

/-! ### The latch, hold and park (R202 to R204) -/

/-- The 24-bit level of element `e` of E24 values. -/
def level24 (vs : List Byte) (e : Nat) : Nat := beAt vs (3 * e) 3

/-- The start of the first pulse period of `per` at or after `t`, in quarter nanoseconds of the fabric clock: periods count from the frame
starts that NEXT_FS gives (Table 7-8). -/
def nodePeriodStart (x : Node) (per : Nat) (t : Int) : Int := x.frameStart - (x.frameStart - t) / per * per

/-- The light from `t` on of the node's E24 elements where it has capability H, windowed with W and W_EN; a window clip is counted (R164,
R165, Table 7-8). -/
def nodeLight (n k : Nat) (t : Int) (b : Blk) : Blk :=
  let x := b.node n k
  if x.enc ≠ 2 || !nodeCap n k 2 then b
  else
    let vs := x.shown.getD []
    let rowPer := bit x.pulse 0 && nodeCap n k 8
    let per4 := if rowPer then x.period / x.rows else x.period
    let windowed := bit x.pulse 1 && nodeCap n k 3 && !x.windows.isEmpty
    let start := nodePeriodStart x (if windowed then x.period else per4) t
    (List.range (vs.length / 3)).foldl (fun b e =>
      let l := if windowed then
          dimWindowed (level24 vs e) (x.period * 2 ^ 46) (x.windows.map (fun w => (w.1 * 2 ^ 46, w.2 * 2 ^ 46)))
        else
          let l := dimPlain (level24 vs e) (per4 * 2 ^ 46)
          -- the phase offset of R163, wrapping within the period
          { l with frags := l.frags.map (fun f => ((f.1 + x.phase * per4 / 65536) % max 1 per4, f.2)) }
      let b := if l.clipped then b.setNode n k { b.node n k with windowClips := (b.node n k).windowClips + 1 } else b
      b.emit (.nodePulse n k e l.step start l.frags)) b

/-- A latch comes, at its instant (R191, R202): marked bytes are presented, or the same values again with REPEAT; hold, fail-safe and PARKED end; a side
switch that waits is made (R200). -/
def nodeLatch (n k : Nat) (b : Blk) : Blk :=
  let x := b.node n k
  match x.latches with
  | [] => b
  | (frame, rep, due) :: rest =>
    if now4 b + 4 ≤ due then b
    else
    let marks := if frame % 2 = 0 then x.buf0 else x.buf1
    let old := x.shown.getD []
    let new := if rep then old else (List.range x.bytes).map (fun i => (Tab.at none marks i).getD (old.getD i 0#8))
    let x := { x with latches := rest, shown := some new, state := 0, holdFrom := b.now, park := none
                      windows := x.windowsNext.getD x.windows, windowsNext := none
                      buf0 := if !rep && frame % 2 = 0 then [] else x.buf0
                      buf1 := if !rep && frame % 2 = 1 then [] else x.buf1 }
    let x := if x.switchDue then x.switch else x
    nodeLight n k due ((b.setNode n k x).emit (.nodeShow n k (some new)))

/-- NODE_LATCH (R202). -/
def execNodeLatch (n : Fin 32) (k : Fin 2048) (s : State) : Result := onBlk (nodeLatch n k) s

/-- The fail-safe scene, or off without one (R203, R204). -/
def nodeFailSafe (n k : Nat) (b : Blk) : Blk :=
  let x := b.node n k
  nodeLight n k (now4 b)
    ((b.setNode n k { x with shown := x.scene, state := 2, park := none, fails := satInc 16 x.fails }).emit (.nodeShow n k x.scene))

/-- HOLD_TIME in nanoseconds: 0 means 2 s (Table 7-5). -/
def Node.holdNs (x : Node) : Nat := (if x.hold = 0 then 200 else x.hold) * 10000000

/-- HOLD_TIME expires with no latch (R203); it does not run while PARKED (R204). -/
def nodeHoldExpiry (n k : Nat) (b : Blk) : Blk :=
  let x := b.node n k
  if x.state = 3 || x.state = 2 || b.now < x.holdFrom + x.holdNs then b else nodeFailSafe n k b

/-- NODE_HOLD_EXPIRY (R203). -/
def execNodeHoldExpiry (n : Fin 32) (k : Fin 2048) (s : State) : Result := onBlk (nodeHoldExpiry n k) s

/-- PARK_LIMIT expires (R204). -/
def nodeParkLimitExpiry (n k : Nat) (b : Blk) : Blk :=
  match (b.node n k).park with
  | some (from_, minutes) => if (b.node n k).state = 3 && from_ + minutes * 60 * 10 ^ 9 ≤ b.now then nodeFailSafe n k b else b
  | none => b

/-- NODE_PARK_LIMIT_EXPIRY (R204). -/
def execNodeParkLimitExpiry (n : Fin 32) (k : Fin 2048) (s : State) : Result := onBlk (nodeParkLimitExpiry n k) s

/-- The RATE frame has left Port-2 TX: both TX pairs switch (R196). -/
def nodeRateSwitch (n k : Nat) (b : Blk) : Blk :=
  let x := b.node n k
  match x.rateNext with
  | some r => b.setNode n k { x with rate := some r, rateNext := none }
  | none => b

/-- NODE_RATE_SWITCH (R196). -/
def execNodeRateSwitch (n : Fin 32) (k : Fin 2048) (s : State) : Result := onBlk (nodeRateSwitch n k) s

/-- 2 µs after a CALIB the node sends PRBS-7 towards the requester for LENGTH_US (R205). -/
def nodeCalibPattern (n k : Nat) (b : Blk) : Blk :=
  let x := b.node n k
  match x.calib with
  | some (p, us, from_) =>
    if b.now < from_ + 2000 then b
    else (b.setNode n k { x with calib := none, pattern := some (p, b.now + 1000 * us) }).emit (.nodePattern n k p us)
  | none => b

/-- NODE_CALIB_PATTERN (R205). -/
def execNodeCalibPattern (n : Fin 32) (k : Fin 2048) (s : State) : Result := onBlk (nodeCalibPattern n k) s

/-- A node's receiver loses its signal (R175, R203, Table 7-6): counted; on the selected side its outputs hold (log entry 26). -/
def nodeRxLos (n k : Nat) (port2 : Bool) (b : Blk) : Blk :=
  let x := b.node n k
  let x := if port2 then { x with los2 := satInc 16 x.los2 } else { x with los1 := satInc 16 x.los1 }
  b.setNode n k (if port2 == x.side2 && x.state = 0 then { x with state := 1, holds := satInc 16 x.holds } else x)

/-- A receiver declares loss of signal (R175). -/
def strandRxLos (rx : LineRx) (b : Blk) : Blk :=
  match rx with
  | .port n => portRxLos n b
  | .node n k p => nodeRxLos n k p b

/-- STRAND_RX_LOS (R175). -/
def execStrandRxLos (rx : LineRx) (s : State) : Result := onBlk (strandRxLos rx) s

end Sys2Proof.Machine
end

