-- ==== Sys2Proof/Machine/Cal.lean ====
section
/-!
DEFINITION. Swatches (R413 to R428): jobs, the strand receive Swatch, the drive offset Swatch, the trunk eye Gauge, and the paced
movement of what they set.
-/
namespace Sys2Proof.Machine

/-! ### Starting a job (R413 to R416) -/

/-- What a start says. -/
inductive CalStart where
  | started | busy | bad
  deriving DecidableEq, Repr

/-- The word of port `n`'s Survey table for node `k`: C_k, and CAPS of a valid entry (R193). -/
def surveyC (m : Mem) (b : Blk) (n k : Nat) : Nat := m.le (b.rdN (Reg.STR_n_SURVEY_ADDR n) / 8 * 8 + 8 * k) 4
/-- CAPS of node `k`; 0 where the entry is not valid. -/
def surveyCaps (m : Mem) (b : Blk) (n k : Nat) : Nat :=
  let a := b.rdN (Reg.STR_n_SURVEY_ADDR n) / 8 * 8 + 8 * k
  if bit (m.le (a + 4) 1) 0 then m.le (a + 6) 2 else 0

/-- A strand job on port `n` (R415, R416): refused at once where it cannot run; the end without EN or FUNC 0, or during Survey, is
ABORTED (log entry 54). -/
def swStart (m : Mem) (b : Blk) (n : Nat) (apply : Bool) : Blk :=
  if !domOn b (strDom n) then swEnd b n 5 apply
  else if b.flag (Reg.STR_n_CTRL n) 7 then swEnd b n 6 apply
  else if strFunc b n != 0 || !b.flag (Reg.STR_n_CTRL n) 0 || (b.str n).survey.isSome then swEnd b n 4 apply
  else if !bit (surveyCaps m b n (b.fld (Reg.CAL_STRn_CFG n) 10 0)) 6 then swEnd b n 1 apply
  else setSwJob b n (some { apply, hop := surveyC m b n 0 })

/-- A drive job on channel `c`: it ends with the next estimate (R421). -/
def drvJobStart (b : Blk) (c : Nat) (apply : Bool) : Blk :=
  if !domOn b 8 then drvJobEnd b c 5 apply
  else (b.setCal { b.cal with drvs := Tab.upd none b.cal.drvs c (some apply) }).setFlag Reg.CAL_STATUS_DRV c true

/-- The eye of trunk port `p` is measured: UI/64 and mV (R425). -/
def eyePut (b : Blk) (p horiz vert : Nat) : Blk := calAge (b.wrN (Reg.CAL_TRKp_EYE p) (horiz + 65536 * vert)) (48 + p)

/-- A trunk job on port `p`: it refreshes the eye at once, with free values (log entry 3), or ends with NO_EDGES while the link is down
(R425). -/
def eyeJob (b : Blk) (p : Nat) (apply : Bool) : Blk :=
  let job := p + 512 + 1024 * b2n apply
  if !domOn b 3 then calEnded b job 5
  else if !b.flag (Reg.TRK_Pp_STATUS p) 0 then calEnded b job 3
  else
    let v := Config.freeValue b.freeCount
    calEnded (eyePut b.drawn p (v % 128) (v / 128 % 65536)) job 0

/-- A job number starts its job (R413). -/
def calStart (m : Mem) (b : Blk) (job : Nat) : Blk × CalStart :=
  let u := bits job 7 0
  let apply := bit job 10
  match bits job 9 8 with
  | 0 => if 32 ≤ u then (b, .bad) else if (swJob b u).isSome then (b, .busy) else (swStart m b u apply, .started)
  | 1 => if 16 ≤ u then (b, .bad) else if (Tab.at none b.cal.drvs u).isSome then (b, .busy) else (drvJobStart b u apply, .started)
  | 2 => if 4 ≤ u then (b, .bad) else (eyeJob b u apply, .started)
  | _ => (b, .bad)

/-- SWATCH_START of a Waypoint: a busy unit or a bad job number is dropped and counted (R413). -/
def calWaypoint (m : Mem) (b : Blk) (job : Nat) : Blk :=
  let r := calStart m (b.setCal { b.cal with wptAt := Tab.upd 0 b.cal.wptAt (job % 1024) (b.now + 1) }) job
  if r.2 = .started then r.1 else r.1.count Reg.CAL_JOB_DROP

/-- A Waypoint job for the unit of `job` has come in this clock, or is due in it (R413). -/
def calAhead (b : Blk) (job : Nat) : Bool :=
  Tab.at 0 b.cal.wptAt (job % 1024) == b.now + 1
    || b.wpts.any (fun e => e.2.any (fun w => w.action == 7 && w.w3 % 1024 == job % 1024 && (wptReached b w).isSome))

/-- SWATCH_RUN's job: a Waypoint job for the same unit in the same clock runs, and the command finds the unit busy (R413). -/
def calCommand (m : Mem) (b : Blk) (job : Nat) : Blk × CalStart :=
  if (calStart m b job).2 = .bad then (b, .bad) else if calAhead b job then (b, .busy) else calStart m b job

/-- An autonomous strand job falls due, every PERIOD_S seconds while the port is RUNNING; it is skipped while a job of the port runs
(R428). -/
def swatchAutoStart (n : Nat) (m : Mem) (b : Blk) : Blk :=
  let c := b.rdN (Reg.CAL_STRn_CFG n)
  let due := !(Tab.at none b.cal.autoAt n).any (fun t => decide (b.now < t + 1000 * msClocks * bits c 31 16))
  if bit c 11 && bits c 31 16 != 0 && strState b n == 2 && due then
    let b := b.setCal { b.cal with autoAt := Tab.upd none b.cal.autoAt n (some b.now) }
    if (swJob b n).isNone then swStart m b n (bit c 13) else b
  else b

/-- SWATCH_AUTO_START (R428). -/
def execSwatchAutoStart (n : Fin 32) (s : State) : Result := inDom 1 (onView (swatchAutoStart n)) s

/-! ### Strand receive Swatch (R418 to R420) -/

/-- The longest circular run of bins without an edge: its width and its first bin, the lowest of equals (R418). -/
def eyeOf (bins : List Nat) : Nat × Nat :=
  let run (i : Nat) : Nat := ((List.range 64).takeWhile (fun k => bins.getD ((i + k) % 64) 0 == 0)).length
  (List.range 64).foldl (fun best i => if best.1 < run i then (run i, i) else best) (0, 0)

/-- The equaliser steps of the three candidates: EQ - 1, EQ, EQ + 1, kept inside 0 to 15 (R418). -/
def eqCand (eq k : Nat) : Nat := if k = 0 then eq - 1 else if k = 1 then eq else min 15 (eq + 1)

/-- The chosen candidate: the widest eye; on a tie the working EQ, else the lower step (R418). -/
def eqChoice (ws : List Nat) : Nat :=
  let w (k : Nat) : Nat := ws.getD k 0
  if w 0 ≤ w 1 && w 2 ≤ w 1 then 1 else if w 2 ≤ w 0 then 0 else 2

/-- The job has every candidate's edges: the Gauge, and with APPLY the targets (R414, R418 to R420). -/
def swResult (b : Blk) (n : Nat) (j : SwJob) : Blk :=
  let eyes := (List.range 3).map (fun k => eyeOf (slice64 j.bins k))
  let k := eqChoice (eyes.map (·.1))
  let eye := eyes.getD k (0, 0)
  let w := eye.1
  let centre := (eye.2 + w / 2) % 64
  let step := eqCand (phyEq b n) k
  let b := calAge (b.wrN (Reg.CAL_STRn_EYE n) w) n
  let b := if w < b.fld Reg.CAL_CTRL 21 16 then b.irq Reg.CAL_INT_STATUS 2 else b
  let b := if !j.apply then b
    else
      let b := (b.setFld (Reg.CAL_STRn_GAUGE n) 21 16 centre).setCal { b.cal with phase := Tab.upd none b.cal.phase n (some centre) }
      if b.flag (Reg.STR_n_PHY n) 12 then b
      else
        let pe := if b.flag (Reg.CAL_STRn_CFG n) 12 then some (min 7 ((step + 1) / 2)) else none
        (b.setFld (Reg.CAL_STRn_GAUGE n) 7 4 step).setCal
          { b.cal with eq := Tab.upd none b.cal.eq n (some step), pe := Tab.upd none b.cal.pe n pe }
  swEnd (swShow b n) n 0 j.apply
where
  /-- The 64 bins of candidate `k`. -/
  slice64 (l : List Nat) (k : Nat) : List Nat := (List.range 64).map (fun i => l.getD (64 * k + i) 0)

/-- A run ends (R415, R417, R418): its time is counted; LOS or fewer than 8 edges per candidate end the job; the framer plans a further run
until every candidate has MIN_EDGES. -/
def swatchRunDone (n : Nat) (los : Bool) (bins : List Nat) (b : Blk) : Blk :=
  match swJob b n with
  | none => b
  | some j =>
    match j.placed with
    | none => b
    | some i =>
      if !j.sent || now4 b < i.2 then b
      else
        let t := Tab.at 0 b.cal.pause n + (i.2 - i.1).toNat
        let b := b.setCal { b.cal with pause := Tab.upd 0 b.cal.pause n t }
        let b := (b.count (Reg.CAL_STRn_RUNS n)).wrN (Reg.CAL_STRn_PAUSE_US n) (sat32 (t / 4000))
        let sums (l : List Nat) : List Nat := (List.range 3).map (fun k => ((List.range 64).map (fun x => l.getD (64 * k + x) 0)).sum)
        if los || (sums bins).any (· < 8) then swEnd b n 3 j.apply
        else
          let all := (List.range 192).map (fun x => j.bins.getD x 0 + bins.getD x 0)
          let j := { j with bins := all, placed := none, sent := false, rows := 0 }
          if (sums all).all (fun e => decide (limit 8 65535 (b.fld Reg.CAL_CTRL 15 0) ≤ e)) then swResult b n j
          else setSwJob b n (some j)

/-- SWATCH_RUN_DONE (R418): 64 bins for each candidate. -/
def execSwatchRunDone (n : Fin 32) (los : Bool) (bins : List (BitVec 16)) (s : State) : Result :=
  if bins.length = 192 then inDom 1 (onBlk (swatchRunDone n los (bins.map (·.toNat)))) s
  else .fault (.illFormed "SWATCH_RUN_DONE")

/-- One step towards a target. -/
def towards (x t : Nat) : Nat := if x < t then x + 1 else if t < x then x - 1 else x

/-- The sampling phase of port `n` moves at a Row start of its Meridian, the shorter way round (R419). -/
def swPhaseStep (m : Nat) (b : Blk) (n : Nat) : Blk :=
  match Tab.at none b.cal.phase n with
  | some t =>
    if strMer b n != m then b
    else
      let x := b.fld (Reg.CAL_STRn_GAUGE n) 13 8
      let d := (t + 64 - x) % 64
      let x := if d = 0 then x else if d ≤ 32 then (x + 1) % 64 else (x + 63) % 64
      let b := b.setFld (Reg.CAL_STRn_GAUGE n) 13 8 x
      if x = t then b.setCal { b.cal with phase := Tab.upd none b.cal.phase n none } else b
  | none => b

/-- EQ, then PREEMPH, of port `n` moves one step at a frame boundary of its Meridian; EQ_HOLD stops both (R174, R419). -/
def swEqStep (m : Nat) (b : Blk) (n : Nat) : Blk :=
  if strMer b n != m || b.flag (Reg.STR_n_PHY n) 12 then b
  else
    let b := match Tab.at none b.cal.eq n with
      | some t => swShow (b.setFld (Reg.STR_n_PHY n) 11 8 (towards (phyEq b n) t)) n
      | none => b
    match Tab.at none b.cal.pe n with
    | some t => swShow (b.setFld (Reg.STR_n_PHY n) 6 4 (towards (phyPe b n) t)) n
    | none => b

/-! ### Drive offset Swatch (R421 to R424) -/

/-- FS_UV of channel `c`, within its range (R453). -/
def drvFs (b : Blk) (c : Nat) : Nat := limit 10000 90000 (b.fld (Reg.DRV_c_FS_UV c) 16 0)

/-- The median of an even number of samples: the mean of the middle two, rounded down (log entry 54). -/
def median (l : List Int) : Int :=
  let s := sortOn (fun x => x) l
  (s.getD (s.length / 2 - 1) 0 + s.getD (s.length / 2) 0) / 2

/-- An estimate completes (R421, R424, R428): OFFSET and the Gauge; with the APPLY of the job, or AUTO_APPLY, the target of CORR; a job
ends OK. -/
def drvEstimate (c : Nat) (samples : List Int) (b : Blk) : Blk :=
  let job := Tab.at none b.cal.drvs c
  if !domOn b 8 || !(b.flag (Reg.CAL_DRVc_CFG c) 0 || job.isSome) then b
  else
    let e := median samples
    let res := e + b.rdI (Reg.CAL_DRVc_CORR c)
    let ppm := truncDiv (res * 1000000) (drvFs b c)
    let b := calAge (b.wrI (Reg.CAL_DRVc_OFFSET c) e) (32 + c)
    let b := b.wrN (Reg.CAL_DRVc_GAUGE c) (ux 16 (clampI (-32768) 32767 res) + 65536 * ux 16 (clampI (-32768) 32767 ppm))
    let b := if job.getD (b.flag (Reg.CAL_DRVc_CFG c) 1) then
        let b := if e < -2000 || 2000 < e then b.irq Reg.CAL_INT_STATUS 3 else b
        b.setCal { b.cal with goal := Tab.upd none b.cal.goal c (some (4096 * clampI (-2000) 2000 (-e))) }
      else b
    match job with
    | some a => drvJobEnd b c 0 a
    | none => b

/-- DRV_OFFSET_ESTIMATE (R421): 256 samples. -/
def execDrvOffsetEstimate (c : Fin 16) (samples : List (BitVec 32)) (s : State) : Result :=
  if samples.length = 256 then inDom 1 (onBlk (drvEstimate c (samples.map (·.toInt)))) s
  else .fault (.illFormed "DRV_OFFSET_ESTIMATE")

/-- CORR of channel `c` moves by at most one DAC LSB at a Row start of its group's Meridian, and the peak command with it (R424). -/
def corrStep (m : Nat) (b : Blk) (c : Nat) : Blk :=
  match Tab.at none b.cal.goal c with
  | some t =>
    if grpMer b (drvGroup b c) != m then b
    else
      let x := Tab.at 0 b.cal.corr c
      let x := clampI (x - drvFs b c) (x + drvFs b c) t
      let b := b.setCal { b.cal with corr := Tab.upd 0 b.cal.corr c x
                                     goal := if x = t then Tab.upd none b.cal.goal c none else b.cal.goal }
      let b := b.wrI (Reg.CAL_DRVc_CORR c) (roundDiv x 4096)
      if drvOn b c then drvRegulate b c else b
  | none => b

/-- SWATCH_PERIOD is over since the channel's last estimate or interruption, or since the reset. -/
def breakDue (b : Blk) (c : Nat) : Bool :=
  let last := max b.pwr.since (max (Tab.at 0 b.cal.brokeAt c) (Tab.at 0 b.cal.ages (32 + c) - 1))
  decide (last + 1000 * msClocks * limit 1 65535 (b.fld (Reg.CAL_DRVc_CFG c) 31 16) ≤ b.now)

/-- The time since channel `c`'s pulse period began, in quarter nanoseconds. -/
def pulseTime (b : Blk) (c : Nat) : Nat :=
  let g := drvGroup b c
  let m := grpMer b g
  let len := if b.flag (Reg.DRV_GRPg_CTRL g) 2 && (b.chan c).plan.windows.isEmpty then 65536 * merRowLen b m else merTpf16 b m
  quarters ((merPos b m).2 % len * merPeriod b m)

/-- The 20 µs from `t` on in the pulse period hold no pulse of channel `c`. -/
def breakFree (b : Blk) (c t : Nat) : Bool :=
  let x := b.chan c
  x.frags.all (fun f => decide (80000 ≤ (f.1 + x.per - t % x.per) % x.per) && decide (f.2 ≤ (t + x.per - f.1 % x.per) % x.per))

/-- The place of an interruption (R422): a pulse gap of 20 µs, which a stretch outside every window is as well; else the start of a pulse
period. -/
def breakHere (b : Blk) (c : Nat) : Bool :=
  let x := b.chan c
  if x.frags.any (fun f => breakFree b c (f.1 + f.2)) then breakFree b c (pulseTime b c) else decide (pulseTime b c < 4)

/-- A lit channel with AUTO has had no estimate within SWATCH_PERIOD: GATE and DIM go low for 20 µs (R422). -/
def drvBreak (c : Nat) (b : Blk) : Blk :=
  if domOn b 8 && b.flag (Reg.CAL_DRVc_CFG c) 0 && drvState b c == 1 && b.rdN (Reg.DRV_c_LEVEL c) != 0 && !b.cal.broken.elem c
      && breakDue b c && breakHere b c then
    let b := (b.count (Reg.CAL_DRVc_INTERRUPTS c)).setCal
      { b.cal with broken := c :: b.cal.broken, brokeAt := Tab.upd 0 b.cal.brokeAt c b.now }
    (b.emit (.pin (.gate c) false)).emit (.pin (.dim c) false)
  else b

/-- DRV_FORCED_INTERRUPT (R422). -/
def execDrvForcedInterrupt (c : Fin 16) (s : State) : Result := inDom 1 (onBlk (drvBreak c)) s

/-- The interruption ends after its 20 µs: a window that never settled is counted, and the light resumes with the current D and W (R422, R423). -/
def drvBreakEnd (c : Nat) (settled : Bool) (b : Blk) : Blk :=
  if !b.cal.broken.elem c || b.now < Tab.at 0 b.cal.brokeAt c + 20000 then b
  else
    let b := b.setCal { b.cal with broken := b.cal.broken.erase c }
    let b := if settled then b else b.count (Reg.CAL_DRVc_UNSETTLED c)
    if drvOn b c then drvLightOut b c false (b.rdN (Reg.DRV_c_STEP c)) (b.chan c).frags else b

/-- DRV_INTERRUPT_END (R422). -/
def execDrvInterruptEnd (c : Fin 16) (settled : Bool) (s : State) : Result := inDom 1 (onBlk (drvBreakEnd c settled)) s

/-! ### Trunk eye Gauge, counters, and the Row and frame hooks -/

/-- The eye monitor refreshes every 100 ms while the link is up (R425). -/
def eyeRefresh (p horiz vert : Nat) (b : Blk) : Blk :=
  if domOn b 3 && b.flag (Reg.TRK_Pp_STATUS p) 0 && !(Tab.at none b.cal.eyeAt p).any (fun t => decide (b.now < t + 100 * msClocks)) then
    eyePut (b.setCal { b.cal with eyeAt := Tab.upd none b.cal.eyeAt p (some b.now) }) p horiz vert
  else b

/-- TRUNK_EYE_REFRESH (R425). -/
def execTrunkEyeRefresh (p : Fin 4) (horiz : BitVec 7) (vert : BitVec 16) (s : State) : Result :=
  inDom 1 (onBlk (eyeRefresh p horiz.toNat vert.toNat)) s

/-- CLR_COUNTS (R427). -/
def calClrCounts (b : Blk) : Blk :=
  let b := b.setCal { b.cal with pause := [] }
  b.zero (Reg.CAL_JOB_DROP :: (List.range 32).flatMap (fun n =>
      [Reg.CAL_STRn_RUNS n, Reg.CAL_STRn_PAUSE_US n, Reg.CAL_STRn_FAILS n])
    ++ (List.range 16).flatMap (fun c => [Reg.CAL_DRVc_INTERRUPTS c, Reg.CAL_DRVc_UNSETTLED c]))

/-- CAL_CLR_COUNTS (R427). -/
def execCalClrCounts (s : State) : Result := inDom 1 (onBlk calClrCounts) s

/-- A Row start of Meridian `m` (R419, R424). -/
def calRowStart (m : Nat) (b : Blk) : Blk :=
  (List.range 16).foldl (corrStep m) ((List.range 32).foldl (swPhaseStep m) b)

/-- A frame boundary of Meridian `m` (R419). -/
def calBoundary (m : Nat) (b : Blk) : Blk := (List.range 32).foldl (swEqStep m) b

/-! ### Receivers and nodes -/

/-- A receiver leaves loss of signal (R175, R438): RX_LOS of a port clears; a node stays in hold until its next latch (R203). -/
def rxLosRelease (rx : LineRx) (s : State) : Result :=
  match rx with
  | .port n => inDom (strDom n) (onBlk (fun b => b.setFlag (Reg.STR_n_STATUS n) 5 false)) s
  | .node _ _ _ => .next s

/-- STRAND_RX_LOS_RELEASE (R438). -/
def execStrandRxLosRelease (rx : LineRx) (s : State) : Result := rxLosRelease rx s

/-- A node powers up (R203, Table 7-8): its address, pages 1 and 2 and page 0 come from its non-volatile memory, all else starts anew; it
is off until its first accepted latch. Its maker decides which counters it clears (R178; log entry 26). -/
def nodePowerUp (n k : Nat) (b : Blk) : Blk :=
  let x := b.node n k
  let kept : Node := { addr := x.addr, enc := x.enc, row := x.row, pulse := x.pulse, ofs := x.ofs, bytes := x.bytes, hold := x.hold
                       phase := x.phase, scene := x.scene, lofs1 := x.lofs1, lofs2 := x.lofs2, holdFrom := b.now
                       state := if x.addr = 0x7FFF then 4 else 1 }
  let y : Node := if Config.nodeWord n k 8 % 2 = 1 then kept
    else { kept with crc1 := x.crc1, crc2 := x.crc2, los1 := x.los1, los2 := x.los2, holds := x.holds, fails := x.fails
                     switches := x.switches, delayed := x.delayed, noEpoch := x.noEpoch, dropped := x.dropped, windowClips := x.windowClips }
  (b.setNode n k { y with powerUps := satInc 16 x.powerUps }).emit (.nodeShow n k none)

/-- NODE_POWER_UP (R203). -/
def execNodePowerUp (n : Fin 32) (k : Fin 2048) (s : State) : Result := onBlk (nodePowerUp n k) s

end Sys2Proof.Machine
end

