-- ==== Sys2Proof/Machine/Skein.lean ====
section
/-!
DEFINITION. The Skein queues (R344 to R353).
-/
namespace Sys2Proof.Machine

/-- Queue `n`. -/
def sknQ (b : Blk) (n : Nat) : SknQueue := Tab.at {} b.skn n
/-- LEVEL of a queue. -/
def SknQueue.level (q : SknQueue) : Nat := q.head.length + (4 * q.mid.length - q.skip) + q.tail.length
/-- MODE in effect: shared cells. -/
def sknShared (b : Blk) : Bool := b.flag Reg.SKN_STATUS 0
/-- SKN_CELLS, within 64 to 65,536 (R453). -/
def sknCells (b : Blk) : Nat := limit 64 65536 (b.rdN Reg.SKN_CELLS)
/-- SPILL_SIZE of queue `n`: at most 4,096, whole blocks. -/
def sknSpill (b : Blk) (n : Nat) : Nat := min 4096 (b.rdN (Reg.SKN_Qn_SPILL_SIZE n)) / 4 * 4

/-- Entries go straight from the tail stage to the head stage while the middle is empty (R346). -/
def SknQueue.settle (q : SknQueue) : SknQueue :=
  if q.mid.isEmpty then
    let k := min (4 - q.head.length) q.tail.length
    { q with head := q.head ++ q.tail.take k, tail := q.tail.drop k }
  else q

/-- The oldest entry is removed. -/
def SknQueue.oldestOut (q : SknQueue) : SknQueue :=
  match q.head, q.mid with
  | _ :: hs, _ => { q with head := hs }.settle
  | [], _ :: ms => (if q.skip = 3 then { q with mid := ms, skip := 0 } else { q with skip := q.skip + 1 }).settle
  | [], [] => { q with tail := q.tail.tail }.settle

/-- The four entries of a block: bytes that cannot be read are 0 (R10). -/
def sknEntries (m : Mem) (b : Blk) (a : Nat) : List Nat :=
  let bs := ((busRead m b a 64 []).1).getD []
  (List.range 4).map (fun i => leAt bs (16 * i) 16)

/-- A refill burst takes the first block of the middle to an empty head stage (R346); `entries` reads a block. -/
def SknQueue.refill (q : SknQueue) (entries : Nat → List Nat) : SknQueue :=
  match q.head, q.mid with
  | [], a :: ms => { q with head := (entries a).drop q.skip, mid := ms, skip := 0 }.settle
  | _, _ => q

/-- The `k` oldest entries make room. A consumer that has read EMPTY clear finds an entry at its next pop (R347), so a head stage that held an
entry is refilled in the same burst. -/
def SknQueue.cut (q : SknQueue) (entries : Nat → List Nat) : Nat → SknQueue
  | 0 => q
  | k + 1 => ((if q.head.isEmpty then q.oldestOut else q.oldestOut.refill entries)).cut entries k

/-- The sum of R350, with QUOTA `quota` and EN `en` for queue `n`. -/
def sknSum (b : Blk) (n quota : Nat) (en : Bool) : Nat :=
  ((List.range 256).map (fun k =>
    let on := if k = n then en else b.flag (Reg.SKN_Qn_CTRL k) 0
    let q := if k = n then quota else b.rdN (Reg.SKN_Qn_QUOTA k)
    if on then max ((q + 3) / 4 + 1) (sknQ b k).mid.length else 0)).sum

/-- Cells in use by every queue. -/
def cellsUsed (b : Blk) : List Nat := b.skn.flatMap (fun x => x.2.mid)

/-- The free and the committed cells; none in compact mode, where the cell area is not the Skein's (R350, R351). -/
def sknCellShow (b : Blk) : Blk :=
  let on := sknShared b
  (b.wrN Reg.SKN_CELLS_FREE (if on then sknCells b - (cellsUsed b).length else 0)).wrN Reg.SKN_CELLS_COMMITTED
    (if on then sknSum b 256 0 false else 0)

/-- LEVEL, the cell counts, ALL_EMPTY and the flags follow queue `n` (R347, Table 13-6): FULL at QUOTA, EMPTY while the head stage is
empty. -/
def sknShow (b : Blk) (n : Nat) : Blk :=
  let q := sknQ b n
  let flags := b2n (decide (b.rdN (Reg.SKN_Qn_QUOTA n) ≤ q.level)) + 2 * b2n q.head.isEmpty
  let b := ((b.wrN (Reg.SKN_Qn_LEVEL n) q.level).wrN (Reg.SKN_Qn_FLAGS n) flags).wrN (Reg.SKN_Hn_FLAGS n) flags
  sknCellShow (b.setFlag Reg.SKN_STATUS 1 (b.skn.all (fun x => x.2.level == 0)))

/-- Queue `n` takes `q`. -/
def sknPut (b : Blk) (n : Nat) (q : SknQueue) : Blk := sknShow { b with skn := Tab.upd {} b.skn n q } n

/-- QUOTA as a push of this clock sees it: without a write of the same clock (R348). -/
def sknQuota (b : Blk) (n : Nat) : Nat :=
  match (sknQ b n).quotaWas with
  | some (c, v) => if c = b.now then v else b.rdN (Reg.SKN_Qn_QUOTA n)
  | none => b.rdN (Reg.SKN_Qn_QUOTA n)

/-- What a pop of the same clock needs to know of a push to queue `n` that removes `lost` entries (R348, R352). -/
def sknNote (b : Blk) (n lost : Nat) : SknQueue :=
  let q := sknQ b n
  let first := q.pushAt != b.now || q.pushed == 0
  { q with pushAt := b.now, pushed := (if first then 0 else q.pushed) + 1, gone := (if first then [] else q.gone) ++ q.head.take lost
           lostIn := (if first then 0 else q.lostIn) + lost
           lostWas := if first then b.rdN (Reg.SKN_Qn_LOST n) else q.lostWas
           base := if first then q.level else q.base
           eventWas := if first then b.flag (Reg.SKN_EVENTk (n / 32)) (n % 32) else q.eventWas
           intWas := if first then b.flag Reg.SKN_INT_STATUS 0 else q.intWas }

/-- The pushes of this clock have taken LEVEL from below THRESH to it (R352). -/
def sknReached (b : Blk) (n : Nat) : Bool :=
  let q := sknQ b n
  let th := b.rdN (Reg.SKN_Qn_THRESH n)
  th != 0 && decide (q.base < th) && decide (th ≤ q.level)

/-- The event of queue `n`, and EVENT where it is enabled (R352). -/
def sknRaise (b : Blk) (n : Nat) : Blk :=
  let b := b.irq (Reg.SKN_EVENTk (n / 32)) (n % 32)
  if b.flag (Reg.SKN_EVENT_ENk (n / 32)) (n % 32) then b.irq Reg.SKN_INT_STATUS 0 else b

/-- Some event that is enabled is set. -/
def sknAnyEvent (b : Blk) : Bool := (List.range 8).any (fun k => b.rd (Reg.SKN_EVENTk k) &&& b.rd (Reg.SKN_EVENT_ENk k) != 0#32)

/-- The event of queue `n` was not to be raised in this clock: it stands as before the clock. -/
def sknUnraise (b : Blk) (n : Nat) : Blk :=
  let q := sknQ b n
  if q.eventWas then b
  else
    let b := b.setFlag (Reg.SKN_EVENTk (n / 32)) (n % 32) false
    if q.intWas || sknAnyEvent b then b else b.setFlag Reg.SKN_INT_STATUS 0 false

/-- A pop comes before the pushes of its clock that the queue has already taken: the event follows the level that they rise from (R348,
R352). -/
def sknRejudge (b : Blk) (n : Nat) : Blk :=
  let q := sknQ b n
  if q.pushAt != b.now || q.pushed == 0 then b
  else
    let set := b.flag (Reg.SKN_EVENTk (n / 32)) (n % 32)
    let b := { b with skn := Tab.upd {} b.skn n { q with base := q.base - 1 } }
    if sknReached b n then (if set then b else sknRaise b n)
    else if set then sknUnraise b n else b

/-- The block of the middle that a full tail stage of queue `n` moves to, none where there is no room (R346): the next of the ring, or
the lowest free cell. -/
def sknBlock (b : Blk) (n : Nat) : Option Nat :=
  if sknShared b then
    ((List.range (sknCells b)).map (fun c => 0x10800000 + 64 * c)).find? (fun a => !(cellsUsed b).elem a)
  else
    let size := sknSpill b n / 4
    if (sknQ b n).mid.length < size then some (b.rdN (Reg.SKN_Qn_SPILL_BASE n) / 64 * 64 + 64 * ((sknQ b n).ring % size)) else none

/-- A full tail stage of queue `n` moves to the middle in one burst (R346). -/
def sknSpillOut (b : Blk) (n : Nat) : Blk × List Host.Cell :=
  let q := sknQ b n
  match if 4 ≤ q.tail.length then sknBlock b n else none with
  | some a =>
    let b := sknPut b n { q with tail := q.tail.drop 4, mid := q.mid ++ [a], ring := q.ring + 1 }
    busWrite (b, []) a ((q.tail.take 4).flatMap (toLE 16))
  | none => (b, [])

/-- An entry is pushed (R348, R349, R352): the oldest entries go where QUOTA leaves no room, and are counted; a full tail stage moves on. -/
def sknPush (m : Mem) (b : Blk) (n entry : Nat) : Blk × List Host.Cell :=
  let old := (sknQ b n).level
  let lost := old + 1 - sknQuota b n
  let q := sknNote b n lost
  let b := if lost = 0 then b else (b.count (Reg.SKN_Qn_LOST n) lost).irq Reg.SKN_INT_STATUS 1
  let q := q.cut (sknEntries m b) lost
  let b := sknPut b n ({ q with tail := q.tail ++ [entry] }).settle
  sknSpillOut (if sknReached b n && decide (old < b.rdN (Reg.SKN_Qn_THRESH n)) then sknRaise b n else b) n

/-- The queue runs: the block's EN and its own. -/
def sknOn (b : Blk) (n : Nat) : Bool := b.flag Reg.SKN_CTRL 0 && b.flag (Reg.SKN_Qn_CTRL n) 0

/-- An access through an aperture, to a side that is bit `side` of SKN_Qn_CTRL, is answered: PCIe uses the host aperture alone and
the others the fabric aperture alone, and the aperture must be the side's (R344). -/
def sknAccess (b : Blk) (n : Nat) (hostWin : Bool) (who : Requester) (side : Nat) : Bool :=
  (who == .pcie) == hostWin && b.flag (Reg.SKN_Qn_CTRL n) side == hostWin

/-- The address of word `x` of a queue's window. -/
def sknPushReg (hostWin : Bool) (n x : Nat) : Nat := if hostWin then Reg.SKN_Hn_PUSHx n x else Reg.SKN_Qn_PUSHx n x
/-- The same of POP words. -/
def sknPopReg (hostWin : Bool) (n x : Nat) : Nat := if hostWin then Reg.SKN_Hn_POPx n x else Reg.SKN_Qn_POPx n x

/-- A write of PUSH3, after PUSH0 to PUSH2 of the same requester (R345); a queue that does not run takes nothing (log entry 52). The
Bool says that the access succeeds. -/
def skeinPush (n : Nat) (hostWin : Bool) (who : Requester) (v : Nat) (m : Mem) (b : Blk) : Blk × List Host.Cell × Bool :=
  if !sknAccess b n hostWin who 1 then (b, [], false)
  else if !sknOn b n then (b, [], true)
  else
    let w (x : Nat) : Nat := (b.latch who (sknPushReg hostWin n x)).toNat
    let r := sknPush m b n (w 0 + 2 ^ 32 * w 1 + 2 ^ 64 * w 2 + 2 ^ 96 * v)
    (r.1, r.2, true)

/-- SKEIN_PUSH (R348). -/
def execSkeinPush (q : Fin 256) (hostWin : Bool) (who : Requester) (value : Word) (s : State) : Result :=
  inDomWrite 1 who (sknPushReg hostWin q 3) (onMem (fun m b =>
    let r := skeinPush q hostWin who value.toNat m b
    (r.1.emit (.writeDone who (sknPushReg hostWin q 3) (!r.2.2)), r.2.1))) s

/-- Some queue has lost an entry in this clock. -/
def sknLostNow (b : Blk) : Bool := b.skn.any (fun x => x.2.pushAt == b.now && x.2.lostIn != 0)

/-- An entry that a push of this clock has removed is the pop's, which comes before the push: it was not lost (R348). -/
def sknUnlose (b : Blk) (n : Nat) : Blk :=
  let q := sknQ b n
  let b := b.uncount (Reg.SKN_Qn_LOST n) q.lostWas q.lostIn
  let b := { b with skn := Tab.upd {} b.skn n { q with gone := q.gone.drop 1, lostIn := q.lostIn - 1 } }
  if sknLostNow b then b else b.unirq Reg.SKN_INT_STATUS 1

/-- What a pop finds (R348): the oldest entry that a push of this clock has removed, else the head entry, unless it was pushed in this clock;
and whether it is of the queue still. -/
def sknOldest (b : Blk) (n : Nat) : Option (Nat × Bool) :=
  let q := sknQ b n
  let same := q.pushAt == b.now
  match q.gone with
  | e :: _ => if same then some (e, false) else q.head.head?.map (·, true)
  | [] => if same && q.level ≤ q.pushed then none else q.head.head?.map (·, true)

/-- FLAGS as they read (R347): a queue whose entries have all been pushed in this clock stays EMPTY to its consumer, whose pop comes before
them. -/
def sknFlagsNow (b : Blk) (n : Nat) : Nat :=
  let q := sknQ b n
  let v := b.rdN (Reg.SKN_Qn_FLAGS n)
  if q.pushAt == b.now && q.gone.isEmpty && decide (q.level ≤ q.pushed) then putBits v 1 1 1 else v

/-- A read of POP0 (R345): the head entry is removed and captured, or zeros and an underflow. The value read, and success. -/
def skeinPop (n : Nat) (hostWin : Bool) (who : Requester) (b : Blk) : Blk × Nat × Bool :=
  if !sknAccess b n hostWin who 2 then (b, 0, false)
  else
    let a := sknPopReg hostWin n 0
    match sknOldest b n with
    | some (e, true) => (sknRejudge (sknPut (b.capture who a (leWords e)) n (sknQ b n).oldestOut) n, e % 2 ^ 32, true)
    | some (e, false) => (sknRejudge (sknUnlose (b.capture who a (leWords e)) n) n, e % 2 ^ 32, true)
    | none => (((b.capture who a [0, 0, 0, 0]).count (Reg.SKN_Qn_UNDERFLOW n)).irq Reg.SKN_INT_STATUS 3, 0, true)
where
  /-- The four words of an entry. -/
  leWords (e : Nat) : List Nat := (List.range 4).map (fun i => e / 2 ^ (32 * i))

/-- SKEIN_POP (R345). -/
def execSkeinPop (q : Fin 256) (hostWin : Bool) (who : Requester) (s : State) : Result :=
  inDomRead 1 who (sknPopReg hostWin q 0) (onBlk (fun b =>
    let r := skeinPop q hostWin who b
    r.1.emit (.readDone who (sknPopReg hostWin q 0) (BitVec.ofNat 32 r.2.1) (!r.2.2)))) s

/-- A burst between a stage and the middle completes (R346): a full tail stage that found no room moves on, and the first block of the middle
comes to an empty head stage. An uncorrectable word at offset `ofs` of that block reads 0 with the rest of the burst (R26). -/
def skeinRefillDone (n : Nat) (found : EccResult) (ofs : Nat) (m : Mem) (b : Blk) : Blk × List Host.Cell :=
  let r := sknSpillOut b n
  let q := sknQ r.1 n
  match q.head, q.mid with
  | [], a :: _ =>
    let b := if scrubbed r.1 a then eccFound r.1 found (a + ofs) 0x68 3 else r.1
    let entries := if found = .uncorrectable then (fun _ => [0, 0, 0, 0]) else sknEntries (m.write r.2) b
    (sknPut b n (q.refill entries), r.2)
  | _, _ => r

/-- SKEIN_REFILL_DONE (R346). -/
def execSkeinRefillDone (q : Fin 256) (found : EccResult) (ofs : Fin 64) (s : State) : Result :=
  inDom 1 (onMem (skeinRefillDone q found ofs)) s

/-- A QUOTA write is checked (R350). -/
def skeinQuota (n v : Nat) (b : Blk) : Blk :=
  let q := v % 2 ^ 18
  let fits := if sknShared b then
      decide (1 ≤ q) && decide (q ≤ 262140) && decide (sknSum b n q (b.flag (Reg.SKN_Qn_CTRL n) 0) ≤ sknCells b)
    else decide (1 ≤ q) && decide (q ≤ 8 + sknSpill b n)
  if fits then
    let b := { b with skn := Tab.upd {} b.skn n { sknQ b n with quotaWas := some (b.now, sknQuota b n) } }
    sknShow (b.wrN (Reg.SKN_Qn_QUOTA n) q) n
  else b.irq Reg.SKN_INT_STATUS 2

/-- SKEIN_QUOTA_WRITE (R350). -/
def execSkeinQuotaWrite (q : Fin 256) (value : Word) (s : State) : Result := inDom 1 (onBlk (skeinQuota q value.toNat)) s

/-- SKN_Qn_CTRL has been written over `old`: EN set in shared-cell mode is refused where the sum does not fit (R350). -/
def sknCtrlWritten (b : Blk) (n old : Nat) : Blk :=
  let q := b.rdN (Reg.SKN_Qn_QUOTA n)
  if b.flag (Reg.SKN_Qn_CTRL n) 0 && !bit old 0 && sknShared b && decide (sknCells b < sknSum b n q true) then
    (b.setFlag (Reg.SKN_Qn_CTRL n) 0 false).irq Reg.SKN_INT_STATUS 2
  else sknShow b n

/-- A write of SKN_CTRL: EN, and MODE where R351 lets it. -/
def skeinMode (v : Nat) (b : Blk) : Blk :=
  let free := !b.flag Reg.SKN_CTRL 0 && b.skn.all (fun x => x.2.level == 0)
  let b := if bit v 1 == b.flag Reg.SKN_CTRL 1 then b
    else if free then sknCellShow (({ b with skn := [] }.setFlag Reg.SKN_CTRL 1 (bit v 1)).setFlag Reg.SKN_STATUS 0 (bit v 1))
    else b.irq Reg.SKN_INT_STATUS 4
  b.setFlag Reg.SKN_CTRL 0 (bit v 0)

/-- SKEIN_MODE_WRITE (R351). -/
def execSkeinModeWrite (value : Word) (s : State) : Result := inDom 1 (onBlk (skeinMode value.toNat)) s

/-- The newest entry of queue `n`, pushed in this clock, is taken back, from the middle too; what it has overwritten is the oldest again. -/
def sknUnpush (m : Mem) (b : Blk) (n entry : Nat) : Blk :=
  let q := sknQ b n
  let q := match q.tail.isEmpty, q.mid.getLast? with
    | true, some a => { q with tail := (sknEntries m b a).drop (if q.mid.length = 1 then q.skip else 0), mid := q.mid.dropLast
                               skip := if q.mid.length = 1 then 0 else q.skip, ring := q.ring - 1 }
    | _, _ => q
  let r : Option SknQueue :=
    if q.tail.getLast? = some entry then some { q with tail := q.tail.dropLast }
    else if q.tail.isEmpty && q.head.getLast? == some entry then some { q with head := q.head.dropLast }
    else none
  match r with
  | none => b
  | some q =>
    let q := { q with pushed := q.pushed - 1 }
    let b := match q.gone.getLast? with
      | some g => sknPut (sknUnlose b n) n { q with head := g :: q.head, gone := q.gone.dropLast, lostIn := q.lostIn - 1 }
      | none => sknPut b n q
    if sknReached b n then b else sknUnraise b n

/-- SKN_EVENT_ENk has been written: a set bit that it enables raises EVENT (R352). -/
def sknEventEn (b : Blk) (k : Nat) : Blk :=
  if b.rd (Reg.SKN_EVENTk k) &&& b.rd (Reg.SKN_EVENT_ENk k) != 0#32 then b.irq Reg.SKN_INT_STATUS 0 else b

/-- CLR_COUNTS (R353). -/
def sknClrCounts (b : Blk) : Blk := b.zero ((List.range 256).flatMap (fun n => [Reg.SKN_Qn_LOST n, Reg.SKN_Qn_UNDERFLOW n]))

/-- SKN_CLR_COUNTS (R353). -/
def execSknClrCounts (s : State) : Result := inDom 1 (onBlk sknClrCounts) s

end Sys2Proof.Machine
end

