-- ==== Sys2Proof/Machine/Dma.lean ====
section
/-!
DEFINITION. The DMA channels (R331 to R343). Data moves, as one piece, when the last write of a descriptor has its response; what host
memory returns is an operand, and what is written to it leaves as `Output.hostWrite`.
-/
namespace Sys2Proof.Machine

/-! ### Registers of a channel -/

/-- STATE of channel `n` (Table 13-4). -/
def dmaState (b : Blk) (n : Nat) : Nat := b.fld (Reg.DMA_CHn_STATUS n) 2 0
/-- STATE takes `v`. -/
def dmaTo (b : Blk) (n v : Nat) : Blk := b.setFld (Reg.DMA_CHn_STATUS n) 2 0 v
/-- The descriptor channel `n` is on. -/
def dmaDesc (b : Blk) (n : Nat) : Nat := b.rd64 (Reg.DMA_CHn_DESC_LO n) (Reg.DMA_CHn_DESC_HI n)
/-- DMA_CHn_LAST. -/
def dmaLast (b : Blk) (n : Nat) : Nat := b.rd64 (Reg.DMA_CHn_LAST_LO n) (Reg.DMA_CHn_LAST_HI n)
/-- The copy of the descriptor that channel `n` works from. -/
def dmaChan (b : Blk) (n : Nat) : DmaChan := Tab.at {} b.dma n
/-- Channel `n` belongs to the canvas block (R342). -/
def dmaOwned (b : Blk) (n : Nat) : Bool := b.fld Reg.CNV_FORMAT 6 4 == 4 && b.fld Reg.CNV_HOST_CTRL 3 0 == n
/-- Channel `n` beside its registers becomes `c`. -/
def Blk.setDma (b : Blk) (n : Nat) (c : DmaChan) : Blk := { b with dma := Tab.upd {} b.dma n c }
/-- DMA_STATUS: the channels that are not DISABLED, IDLE or HALTED. -/
def dmaStatus (b : Blk) : Nat :=
  ((List.range 16).map (fun n => if [0, 1, 6].contains (dmaState b n) then 0 else 2 ^ n)).sum

/-- The registers of channel `n`. -/
def dmaRegs (n : Nat) : List Nat :=
  [Reg.DMA_CHn_CTRL n, Reg.DMA_CHn_STATUS n, Reg.DMA_CHn_TRIG n, Reg.DMA_CHn_DESC_LO n, Reg.DMA_CHn_DESC_HI n, Reg.DMA_CHn_LAST_LO n,
    Reg.DMA_CHn_LAST_HI n, Reg.DMA_CHn_ERR_ADDR_LO n, Reg.DMA_CHn_ERR_ADDR_HI n, Reg.DMA_CHn_PUSHQ n, Reg.DMA_CHn_BYTES n,
    Reg.DMA_CHn_DESCS n, Reg.DMA_CHn_ERRORS n, Reg.DMA_CHn_TRIG_MISS n]

/-! ### Ends of a descriptor -/

/-- STATUS of a descriptor (Table 13-1). -/
def dmaWord (done err late : Bool) (code sg : Nat) : Nat :=
  b2n done + 2 * b2n err + 4 * b2n late + 256 * code + 65536 * min 65535 sg

/-- The completion entry that follows a STATUS write-back (R341); the queue's producer side must be FABRIC. -/
def dmaPush (m : Mem) (b : Blk) (n word : Nat) : Blk × List Host.Cell :=
  let q := b.fld (Reg.DMA_CHn_PUSHQ n) 7 0
  if bit (dmaChan b n).ctrl 3 && b.flag (Reg.DMA_CHn_PUSHQ n) 8 && sknOn b q && !b.flag (Reg.SKN_Qn_CTRL q) 1 then
    let entry := dmaDesc b n + 2 ^ 64 * word + 2 ^ 96 * n
    let c := dmaChan b n
    sknPush m (b.setDma n { c with undo := c.undo.map (fun u => { u with pushed := some (q, entry) }) }) q entry
  else (b, [])

/-- The registers of channel `n` that a completion or an error writes. -/
def dmaEndRegs (n : Nat) : List Nat :=
  [Reg.DMA_CHn_STATUS n, Reg.DMA_CHn_DESC_LO n, Reg.DMA_CHn_DESC_HI n, Reg.DMA_CHn_LAST_LO n, Reg.DMA_CHn_LAST_HI n,
    Reg.DMA_CHn_ERR_ADDR_LO n, Reg.DMA_CHn_ERR_ADDR_HI n, Reg.DMA_CHn_DESCS n, Reg.DMA_CHn_ERRORS n]

/-- Channel `n` is about to complete or to meet an error: what an EN clear of the same clock takes back (R340) is noted, once a clock. -/
def dmaMark (m : Mem) (b : Blk) (n : Nat) : Blk :=
  let c := dmaChan b n
  if c.undo.any (fun u => u.clock == b.now) then b
  else
    let a := dmaDesc b n + 28
    let status := if busPart b true a 4 = .mem a then cellsAt a (m.bytes a 4) else []
    b.setDma n { c with
      undo := some { clock := b.now, regs := (dmaEndRegs n).map (fun r => (r, b.rd r)), done := b.flag Reg.DMA_INT_STATUS n,
                     error := b.flag Reg.DMA_INT_STATUS (16 + n), status := status, wrote := c.wrote } }

/-- EN is cleared in the clock of a completion or an error, and takes precedence: what that has done is taken back (R340). -/
def dmaUndone (m : Mem) (b : Blk) (n : Nat) : Blk × List Host.Cell :=
  match (dmaChan b n).undo with
  | none => (b, [])
  | some u =>
    if u.clock = b.now then
      let b := u.regs.foldl (fun b r => b.wr r.1 r.2) b
      let b := (b.setFlag Reg.DMA_INT_STATUS n u.done).setFlag Reg.DMA_INT_STATUS (16 + n) u.error
      let b := b.setDma n { dmaChan b n with undo := none, wrote := u.wrote }
      (match u.pushed with
        | some p => sknUnpush m b p.1 p.2
        | none => b, u.status)
    else (b, [])

/-- The `k` bytes at `a` are among what the chain of channel `n` has written. -/
def dmaWrote (b : Blk) (n : Nat) (rs : List (Nat × Nat)) : Blk :=
  let c := dmaChan b n
  b.setDma n { c with wrote := c.wrote ++ rs.filter (fun r => !c.wrote.contains r) }

/-- An error stops channel `n` (R338, R339): STATUS where `told`, the interrupts, HALTED, and DESC at the failing descriptor `a`. -/
def dmaHalt (m : Mem) (r : Blk × List Host.Cell) (n a code : Nat) (told late : Bool) (addr sg : Nat) : Blk × List Host.Cell :=
  let b := (r.1.wr64 (Reg.DMA_CHn_ERR_ADDR_LO n) (Reg.DMA_CHn_ERR_ADDR_HI n) addr).count (Reg.DMA_CHn_ERRORS n)
  let b := (b.setFld (Reg.DMA_CHn_STATUS n) 15 8 code).setFlag (Reg.DMA_CHn_STATUS n) 6 late
  let b := (dmaTo b n 6).irq Reg.DMA_INT_STATUS (16 + n)
  let b := if late then b.irq Reg.DMA_INT_STATUS n else b
  let b := b.wr64 (Reg.DMA_CHn_DESC_LO n) (Reg.DMA_CHn_DESC_HI n) a
  let b := b.setDma n { dmaChan b n with asked := false }
  if told then
    let word := dmaWord late true late code sg
    let w := busWrite (b, r.2) (a + 28) (toLE 4 word)
    if busOk b true (a + 28) 4 then
      let p := dmaPush m (dmaWrote w.1 n [(a + 28, 4)]) n word
      (p.1, w.2 ++ p.2)
    else w
  else (b, r.2)

/-- An error stops channel `n` on the descriptor it is on: codes 3 and 8 write no STATUS (Table 13-3). -/
def dmaStop (m : Mem) (r : Blk × List Host.Cell) (n code : Nat) (late : Bool) (addr sg : Nat) : Blk × List Host.Cell :=
  dmaHalt m r n (dmaDesc r.1 n) code (code != 3 && code != 8) late addr sg

/-- NEXT is read from the descriptor at `a`: the channel goes to FETCH, or to IDLE on 0 (R336); where the read fails, that descriptor is the
failing one (R338). The Bool says that the channel is idle. -/
def dmaNext (m : Mem) (b : Blk) (n a : Nat) (host : List Byte) : Blk × Bool :=
  match (busRead m b a 8 host).1 with
  | none => ((dmaHalt m (b, []) n a 3 false false a 0).1, false)
  | some x =>
    if leNat x = 0 then (dmaTo b n 1, true)
    else (dmaTo (b.wr64 (Reg.DMA_CHn_DESC_LO n) (Reg.DMA_CHn_DESC_HI n) (leNat x)) n 2, false)

/-- A REFETCH in IDLE reads NEXT of DMA_CHn_LAST (R336). -/
def dmaAsk (m : Mem) (b : Blk) (n : Nat) (host : List Byte) : Blk :=
  (dmaNext m (b.setDma n { dmaChan b n with asked := true }) n (dmaLast b n) host).1

/-- Channel `n` enters IDLE: it applies a REFETCH that is pending, in the same clock (R336). -/
def dmaIdle (m : Mem) (b : Blk) (n : Nat) (host : List Byte) : Blk :=
  let b := dmaTo b n 1
  if b.flag (Reg.DMA_CHn_STATUS n) 3 then dmaAsk m (b.setFlag (Reg.DMA_CHn_STATUS n) 3 false) n host else b

/-- Words of fabric SRAM at these addresses, read by channel `n` in one of the states `sts`, were corrected (R26). -/
def dmaFixed (n : Nat) (sts : List Nat) (fixed : List (BitVec 32)) (b : Blk) : Blk :=
  if sts.contains (dmaState b n) then
    fixed.foldl (fun b a => if scrubbed b a.toNat then eccFound b .corrected a.toNat (0x50 + n) 3 else b) b
  else b

/-! ### Control -/

/-- CTRL.GO (R335): from IDLE or HALTED alone; a chain begins. -/
def dmaGo (n : Nat) (b : Blk) : Blk :=
  if dmaOwned b n || !(dmaState b n == 1 || dmaState b n == 6) then b
  else
    let b := b.setDma n { dmaChan b n with asked := false, wrote := [] }
    dmaTo ((b.setFlag (Reg.DMA_CHn_STATUS n) 6 false).setFld (Reg.DMA_CHn_STATUS n) 15 8 0) n 2

/-- DMA_GO (R335). -/
def execDmaGo (n : Fin 16) (s : State) : Result := inDom 1 (onBlk (dmaGo n)) s

/-- CTRL.REFETCH (R336). -/
def dmaRefetch (n : Nat) (host : List Byte) (m : Mem) (b : Blk) : Blk :=
  if dmaOwned b n then b
  else if dmaState b n = 1 then dmaAsk m b n host
  else b.setFlag (Reg.DMA_CHn_STATUS n) 3 true

/-- DMA_REFETCH (R336). -/
def execDmaRefetch (n : Fin 16) (host : List Byte) (fixed : List (BitVec 32)) (s : State) : Result :=
  inDom 1 (onView (fun m b => dmaRefetch n host m (dmaFixed n [1] fixed b))) s

/-- The regions that `k` list entries name from the `i`-th on, up to the first entry that cannot be read or is bad (Table 13-3): what lies in
host memory comes from `host`, in the order of the transfer, which has moved `moved` bytes before. -/
def dmaRegions (m : Mem) (b : Blk) (c : DmaChan) : (k i moved : Nat) → (host : List Byte) → List (Nat × Nat)
  | 0, _, _, _ => []
  | k + 1, i, moved, host =>
    let r := busRead m b (c.list + 16 * i) 16 host
    match r.1 with
    | none => []
    | some x =>
      let addr := leAt x 0 8
      let len := leAt x 8 4
      if len = 0 || 2 ^ 24 < len then []
      else
        let src := if bit c.ctrl 0 then c.dest + moved else addr
        (addr, len) :: dmaRegions m b c k (i + 1) (moved + len) (r.2.drop (busFromHost b src len))

/-- The bytes of regions. -/
def regionsTotal (rs : List (Nat × Nat)) : Nat := (rs.map (·.2)).sum

/-- Where a descriptor whose list names `rs` writes (R333). -/
def dmaDests (c : DmaChan) (rs : List (Nat × Nat)) : List (Nat × Nat) := if bit c.ctrl 0 then rs else [(c.dest, regionsTotal rs)]

/-- `k` bytes from `a` on are no longer known: free values, where they can be written at all. -/
def dmaFree (r : Blk × List Host.Cell) (a k : Nat) : Blk × List Host.Cell :=
  if busOk r.1 true a k then
    let w := busWrite r a (toLE k (Config.freeValue r.1.freeCount))
    (w.1.drawn, w.2)
  else r

/-- The channel drops what it does (R340): BYTES and the memory that its chain has written, or is writing as `host` lets it, are no longer
known. -/
def dmaDrop (m : Mem) (b : Blk) (n : Nat) (host : List Byte) : Blk × List Host.Cell :=
  let u := dmaUndone m b n
  let b := u.1
  let st := dmaState b n
  if st = 0 || st = 7 then (b, [])
  else
    let c := dmaChan b n
    let now := if st = 4 then dmaDests c (dmaRegions m b c c.count 0 0 host) else []
    let r := (c.wrote ++ now.filter (fun r => !c.wrote.contains r)).foldl (fun r d => dmaFree r d.1 d.2) (b, u.2)
    let b := r.1.setDma n { c with asked := false }
    (dmaTo ((b.wrN (Reg.DMA_CHn_BYTES n) (Config.freeValue b.freeCount)).drawn) n 7, r.2)

/-- CTRL.EN is cleared (R340). -/
def dmaEnClear (n : Nat) (host : List Byte) (m : Mem) (b : Blk) : Blk × List Host.Cell :=
  if dmaOwned b n then (b, []) else dmaDrop m (b.setFlag (Reg.DMA_CHn_CTRL n) 0 false) n host

/-- DMA_EN_CLEAR (R340). -/
def execDmaEnClear (n : Fin 16) (host : List Byte) (s : State) : Result := inDom 1 (onMem (dmaEnClear n host)) s

/-- DMA_CHn_RESET (R340): the channel drops, and RESET_BUSY stands until its transactions have completed. -/
def dmaChReset (n : Nat) (host : List Byte) (m : Mem) (b : Blk) : Blk × List Host.Cell :=
  if dmaOwned b n then (b, [])
  else
    let r := dmaEnClear n host m b
    (r.1.setFlag (Reg.DMA_CHn_STATUS n) 5 true, r.2)

/-- DMA_CH_RESET (R340). -/
def execDmaChReset (n : Fin 16) (host : List Byte) (s : State) : Result := inDom 1 (onMem (dmaChReset n host)) s

/-- The transactions of a channel in reset have completed: its registers take their reset values (R340). -/
def dmaResetDone (n : Nat) (b : Blk) : Blk :=
  if b.flag (Reg.DMA_CHn_STATUS n) 5 then (b.zero (dmaRegs n)).setDma n {} else b

/-- DMA_RESET_DONE (R340). -/
def execDmaResetDone (n : Fin 16) (s : State) : Result := inDom 1 (onBlk (dmaResetDone n)) s

/-- DMA_CHn_CTRL has been written over `old` by a requester whose read data is `host`: EN and the order of R340. -/
def dmaCtrlWritten (m : Mem) (b : Blk) (n old v : Nat) (host : List Byte) : Blk × List Host.Cell :=
  if dmaState b n = 7 then
    let b := b.setFlag (Reg.DMA_CHn_CTRL n) 0 false
    (if bit v 9 then dmaRefetch n host m b else b, [])
  else if bit old 0 && !bit v 0 then
    let r := dmaDrop m b n host
    (if bit v 9 then dmaRefetch n host m r.1 else r.1, r.2)
  else if !bit v 0 then (if bit v 9 then dmaRefetch n host m b else b, [])
  else
    let b := if dmaState b n = 0 then dmaIdle m b n host else if bit v 8 then dmaGo n b else b
    (if bit v 9 then dmaRefetch n host m b else b, [])

/-- DMA_CTRL.CLR_COUNTS (R343). -/
def dmaClrCounts (b : Blk) : Blk :=
  b.zero ((List.range 16).flatMap (fun n =>
    [Reg.DMA_CHn_BYTES n, Reg.DMA_CHn_DESCS n, Reg.DMA_CHn_ERRORS n, Reg.DMA_CHn_TRIG_MISS n]))

/-- DMA_CLR_COUNTS (R343). -/
def execDmaClrCounts (s : State) : Result := inDom 1 (onBlk dmaClrCounts) s

/-! ### Fetch and trigger -/

/-- The cycle line pulses at the channels that name it (R337). -/
def dmaCycle (b : Blk) (line : Nat) : Blk :=
  (List.range 16).foldl (fun b n =>
    if b.fld (Reg.DMA_CHn_TRIG n) 4 0 != 16 + line then b
    else if dmaState b n = 3 then dmaTo b n 4
    else (b.setDma n { dmaChan b n with missWas := b.rdN (Reg.DMA_CHn_TRIG_MISS n) }).count (Reg.DMA_CHn_TRIG_MISS n)) b

/-- WAIT_TRIG is entered: a pulse in the same clock is taken, and does not count as missed (R337). -/
def dmaWait (b : Blk) (n : Nat) : Blk :=
  if b.flag (Reg.DMA_CHn_TRIG n) 4 && bit (dmaChan b n).ctrl 2 then
    if Tab.at 0 b.cycAt (b.fld (Reg.DMA_CHn_TRIG n) 3 0) = b.now + 1 then
      dmaTo (b.uncount (Reg.DMA_CHn_TRIG_MISS n) (dmaChan b n).missWas 1) n 4
    else dmaTo b n 3
  else dmaTo b n 4

/-- DMA_CHn_TRIG has been written: with EN clear, WAIT_TRIG is ignored (R337). -/
def dmaTrigWritten (n : Nat) (b : Blk) : Blk :=
  if dmaState b n = 3 && !b.flag (Reg.DMA_CHn_TRIG n) 4 then dmaTo b n 4 else b

/-- A descriptor and its first list entry have been read, and are checked (R333, Table 13-3). -/
def dmaFetched (n : Nat) (host : List Byte) (m : Mem) (b : Blk) : Blk × List Host.Cell :=
  let a := dmaDesc b n
  if dmaState b n != 2 then (b, [])
  else
    let b := dmaMark m b n
    let b := b.setDma n { dmaChan b n with asked := false }
    let d := busRead m b a 32 host
    match d.1 with
    | none => dmaStop m (b, []) n 3 false a 0
    | some x =>
      let c : DmaChan := { dmaChan b n with list := leAt x 8 8, dest := leAt x 16 8, count := leAt x 24 2, ctrl := leAt x 26 2 }
      let b := flashSeen (b.setDma n c) a x
      if a % 32 != 0 || c.count = 0 || 16 ≤ c.ctrl || leAt x 0 8 % 32 != 0 || c.list % 16 != 0 then
        dmaStop m (b, []) n 5 false a 0
      else match (busRead m b c.list 16 d.2).1 with
        | none => dmaStop m (b, []) n 4 false c.list 0
        | some e => (dmaWait (flashSeen b c.list e) n, [])

/-- DMA_DESC_FETCHED (R333). -/
def execDmaDescFetched (n : Fin 16) (host : List Byte) (fixed : List (BitVec 32)) (s : State) : Result :=
  inDom 1 (onMem (fun m b => dmaFetched n host m (dmaFixed n [2] fixed b))) s

/-! ### The transfer -/

/-- A transfer as far as it has come: the block, cells written, what is left of the host's data, bytes moved, the bytes read, and an
error with its address. -/
structure DmaMove where
  blk : Blk
  cells : List Host.Cell := []
  host : List Byte := []
  moved : Nat := 0
  done : Nat := 0
  data : List Byte := []
  err : Option (Nat × Nat) := none

/-- The first of `k` bytes from `a` on whose access answers with an error. -/
def dmaBad (b : Blk) (write : Bool) (a k : Nat) : Nat :=
  a + ((List.range k).find? (fun i => !busOk b write (a + i) 1)).getD 0

/-- Bytes `a` to `a + k` and `c` to `c + l` share an address. -/
def rangesMeet (a k c l : Nat) : Bool := decide (a < c + l) && decide (c < a + k)

/-- Entry `k` of the list moves: checked when reached, read, and written (R333, R334). Where source and destination of the descriptor
`overlap`, the data written is free values. -/
def dmaEntry (m : Mem) (n : Nat) (c : DmaChan) (overlap : Bool) (r : DmaMove) (k : Nat) : DmaMove :=
  if r.err.isSome then r
  else
    let b := r.blk
    let e := c.list + 16 * k
    let l := busRead m b e 16 r.host
    match l.1 with
    | none => { r with err := some (4, e) }
    | some x =>
      let b := if k = 0 then b else flashSeen b e x
      let r := { r with blk := b }
      let addr := leAt x 0 8
      let len := leAt x 8 4
      if len = 0 || 2 ^ 24 < len then { r with err := some (6, e) }
      else
        let src := if bit c.ctrl 0 then c.dest + r.moved else addr
        let dst := if bit c.ctrl 0 then addr else c.dest + r.moved
        let d := busRead m b src len l.2
        match d.1 with
        | none =>
          let bad := dmaBad b false src len
          let w := if bad = src then (b, r.cells) else dmaFree (b, r.cells) dst (bad - src)
          { r with blk := w.1, cells := w.2, err := some (1, bad) }
        | some bs =>
          let b := flashSeen b src bs
          if !busOk b true dst len then
            let bad := dmaBad b true dst len
            let w := if bad = dst then busWrite (b, r.cells) dst bs else dmaFree (b, r.cells) dst (bad - dst)
            { r with blk := w.1, cells := w.2, data := r.data ++ bs, err := some (2, bad) }
          else
            let w := if overlap then dmaFree (b, r.cells) dst len else busWrite (b, r.cells) dst bs
            { blk := w.1.count (Reg.DMA_CHn_BYTES n) len, cells := w.2, host := d.2, moved := r.moved + len, done := r.done + 1,
              data := r.data ++ bs, err := none }

/-- The first `k` entries move; a check-value unit sees what the channel reads (R355). What the descriptor writes is noted. -/
def dmaMove (n k : Nat) (host : List Byte) (m : Mem) (b : Blk) : DmaMove :=
  let c := dmaChan b n
  let rs := dmaRegions m b c c.count 0 0 host
  let meet := rs.any (fun x => rangesMeet x.1 x.2 c.dest (regionsTotal rs))
  let b := dmaWrote (b.setDma n { c with dests := dmaDests c rs }) n (dmaDests c rs)
  let r := (List.range k).foldl (dmaEntry m n c meet) { blk := b, host := host }
  { r with blk := crcSnoop r.blk 4 n 0 r.data }

/-- The data is written, and STATUS is being written back (R334); an error ends the descriptor. -/
def dmaDone (n : Nat) (host : List Byte) (m : Mem) (b : Blk) : Blk × List Host.Cell :=
  if dmaState b n != 4 then (b, [])
  else
    let b := dmaMark m b n
    let a := dmaDesc b n + 28
    let r := dmaMove n (dmaChan b n).count host m b
    match r.err with
    | some e => dmaStop m (r.blk, r.cells) n e.1 false e.2 r.done
    | none =>
      let b := dmaTo r.blk n 5
      busWrite (if busOk b true a 4 then dmaWrote b n [(a, 4)] else b, r.cells) a (toLE 4 (dmaWord true false false 0 r.done))

/-- DMA_TRANSFER_DONE (R334). -/
def execDmaTransferDone (n : Fin 16) (host : List Byte) (fixed : List (BitVec 32)) (s : State) : Result :=
  inDom 1 (onMem (fun m b => dmaDone n host m (dmaFixed n [4] fixed b))) s

/-- The STATUS write of a descriptor has its response (R334, R336, R341): the interrupt, the completion entry, and LAST. -/
def dmaComplete (n : Nat) (m : Mem) (b : Blk) : Blk × List Host.Cell :=
  let b := if bit (dmaChan b n).ctrl 1 then b.irq Reg.DMA_INT_STATUS n else b
  let r := dmaPush m b n (dmaWord true false false 0 (dmaChan b n).count)
  ((r.1.count (Reg.DMA_CHn_DESCS n)).wr64 (Reg.DMA_CHn_LAST_LO n) (Reg.DMA_CHn_LAST_HI n) (dmaDesc b n), r.2)

/-- The STATUS write has its response, and NEXT is read (R336); a failed write is code 8. -/
def dmaBack (n : Nat) (host : List Byte) (m : Mem) (b : Blk) : Blk × List Host.Cell :=
  let a := dmaDesc b n
  if dmaState b n != 5 then (b, [])
  else if !busOk b true (a + 28) 4 then dmaStop m (dmaMark m b n, []) n 8 false (a + 28) 0
  else
    let w := dmaComplete n m (dmaMark m b n)
    let r := dmaNext m w.1 n a host
    (if r.2 then dmaIdle m r.1 n (host.drop (busFromHost b a 8)) else r.1, w.2)

/-- DMA_WRITEBACK_DONE (R336). -/
def execDmaWritebackDone (n : Fin 16) (host : List Byte) (fixed : List (BitVec 32)) (s : State) : Result :=
  inDom 1 (onMem (fun m b => dmaBack n host m (dmaFixed n [5] fixed b))) s

/-! ### Errors -/

/-- A read of fabric SRAM that is answered with an error has met an uncorrectable word: it is counted and latched (R26, R338). -/
def dmaEcc (b : Blk) (n code addr : Nat) : Blk :=
  if (code == 1 || code == 3 || code == 4) && scrubbed b addr then eccFound b .uncorrectable addr (0x50 + n) 3 else b

/-- The burst that failed late, a 64-byte line, is not known to have been written, as far as the descriptor writes it (R339; log entry 52). -/
def dmaBurst (r : Blk × List Host.Cell) (n addr : Nat) : Blk × List Host.Cell :=
  (dmaChan r.1 n).dests.foldl (fun r d =>
    let lo := max d.1 (addr / 64 * 64)
    let hi := min (d.1 + d.2) (addr / 64 * 64 + 64)
    if lo < hi then dmaFree r lo (hi - lo) else r) r

/-- An error response in channel `n`'s transfer, `sg` list entries having completed (R338): what the entry it was on has written is not
known; a late error has written all but the burst that failed (R339). -/
def dmaCut (n code : Nat) (late : Bool) (addr sg : Nat) (host : List Byte) (m : Mem) (b : Blk) : Blk × List Host.Cell :=
  let c := dmaChan b n
  let r := dmaMove n (if late then c.count else min sg c.count) host m b
  let x := (dmaRegions m b c c.count 0 0 host).getD r.done (0, 0)
  let w := if late then dmaBurst (r.blk, r.cells) n addr
    else if (code = 1 || code = 2) && x.2 != 0 then dmaFree (r.blk, r.cells) (if bit c.ctrl 0 then x.1 else c.dest + r.moved) x.2
    else (r.blk, r.cells)
  dmaStop m w n code late addr r.done

/-- An error response to a transaction of channel `n` (R338, R339): of its fetch, its transfer or its write-back, where it is late or of the
STATUS write, or of the NEXT read after that; or of the NEXT read of a REFETCH, in IDLE and in the FETCH that it has led to. -/
def dmaError (n code : Nat) (late : Bool) (addr sg : Nat) (host : List Byte) (m : Mem) (b : Blk) : Blk × List Host.Cell :=
  let st := dmaState b n
  let last := dmaLast b n
  let refetch := (dmaChan b n).asked && decide (last ≤ addr) && decide (addr < last + 8) && (st == 1 || st == 2)
  if !(refetch || st == 2 || st == 4 || st == 5) then (b, [])
  else
    let b := dmaMark m (dmaEcc b n code addr) n
    if refetch then dmaHalt m (b, []) n last code false false addr 0
    else if st = 4 then dmaCut n code late addr sg host m b
    else if st = 2 then dmaStop m (b, []) n code false addr 0
    else if late then dmaStop m (dmaBurst (b, []) n addr) n code true addr (dmaChan b n).count
    else if code = 8 then dmaStop m (b, []) n 8 false addr 0
    else dmaHalt m (dmaComplete n m b) n (dmaDesc b n) code false false addr 0

/-- DMA_ERROR (R338): a code of Table 13-3, and LATE with code 2 alone. -/
def execDmaError (n : Fin 16) (code : Fin 16) (late : Bool) (addr : BitVec 64) (sgDone : BitVec 16) (host : List Byte)
    (fixed : List (BitVec 32)) (s : State) : Result :=
  if code.val = 0 || code.val = 7 || 8 < code.val || (late && code.val != 2) then .fault (.illFormed "DMA_ERROR")
  else inDom 1 (onMem (fun m b => dmaError n code late addr.toNat sgDone.toNat host m (dmaFixed n [1, 2, 4, 5] fixed b))) s

/-- A host read has had no completion for 10 ms (R332): code 3 for the descriptor or NEXT, 4 for the list, else 1. -/
def dmaTimeout (n addr sg : Nat) (host : List Byte) (m : Mem) (b : Blk) : Blk × List Host.Cell :=
  let c := dmaChan b n
  let code := if dmaState b n = 1 || dmaState b n = 5 || rangesMeet addr 1 (dmaDesc b n) 32 then 3
    else if dmaState b n = 2 || rangesMeet addr 1 c.list (16 * c.count) then 4 else 1
  dmaError n code false addr sg host m b

/-- DMA_HOST_READ_TIMEOUT (R332). -/
def execDmaHostReadTimeout (n : Fin 16) (addr : BitVec 64) (sgDone : BitVec 16) (host : List Byte) (fixed : List (BitVec 32)) (s : State) :
    Result :=
  inDom 1 (onMem (fun m b => dmaTimeout n addr.toNat sgDone.toNat host m (dmaFixed n [1, 2, 4, 5] fixed b))) s

end Sys2Proof.Machine
end

