-- ==== Sys2Proof/Machine/Pair.lean ====
section
/-!
DEFINITION. The PAIR block (R284 to R303): heartbeat, beacons, claims and health, the unit states, takeover and yield, the worker
arbiter. 
-/
namespace Sys2Proof.Machine

/-- Total `k` of the Lifelog counts one more (R409, Table 15-14). -/
def lifeTotal (b : Blk) (k : Nat) : Blk := { b with log := { b.log with totals := Tab.upd 0 b.log.totals k (Tab.at 0 b.log.totals k + 1) } }

/-- The PAIR block takes `p`. -/
def Blk.setPair (b : Blk) (p : Pair) : Blk := { b with pair := p }

/-- STATE: 0 DISABLED, 1 STANDBY, 2 ACTIVE, 3 YIELDING (Table 11-9). -/
def pairState (b : Blk) : Nat := b.fld Reg.PAIR_STATUS 1 0
/-- The pair Meridian. -/
def pairMer (b : Blk) : Nat := b.fld Reg.PAIR_CTRL 2 2
/-- The pair-ring ports. -/
def pairPorts (b : Blk) : List Nat := (List.range 32).filter (fun n => b.flag Reg.PAIR_PORTS n)
/-- LINK_PORT. -/
def pairLink (b : Blk) : Nat := b.fld Reg.PAIR_CONFIG 21 20
/-- FORCE: 3 acts as 0. -/
def pairForce (b : Blk) : Nat := b.fld Reg.PAIR_FORCE_CTRL 1 0 % 3
/-- BASE: 0 acts as 1. -/
def pairBase (b : Blk) : Nat := max 1 (b.fld Reg.PAIR_CONFIG 7 0)
/-- HOLD. -/
def pairHold (b : Blk) : Bool := b.flag Reg.PAIR_STATUS 2
/-- The largest STR_n_LEAD among the pair-ring ports, in 0.25 ns (R294). -/
def pairLead (b : Blk) : Nat := (pairPorts b).foldl (fun l n => max l (b.rdN (Reg.STR_n_LEAD n))) 0
/-- The frame period of the pair Meridian, in 2^-48 ns. -/
def pairPeriod (b : Blk) : Nat := merTpf b (pairMer b) * 65536 * merPeriod b (pairMer b)

/-- LATCHING: a pair-ring port of a unit that has taken over, or one that is RING_ACTIVE, has sent a LATCH without REPEAT for frame G or a
later one (R293, R297). -/
def pairLatching (b : Blk) : Bool :=
  (pairPorts b).any (fun n =>
    (2 ≤ pairState b || strRingActive b n) &&
    match (b.str n).lastLatch, Tab.at none b.pairG n with
    | some f, some g => decide (0 ≤ frameDiff f g)
    | _, _ => false)

/-! ### Heartbeat and beacons (R286, R287) -/

/-- PAIR_ALIVE_OUT takes a level. -/
def pairAliveOut (b : Blk) (v : Bool) : Blk :=
  if b.pair.aliveOut = v then b else (b.setPair { b.pair with aliveOut := v }).emit (.pin .aliveOut v)

/-- 100 µs in fabric clocks. -/
def pairBeat : Nat := 100000

/-- Every 100 µs PAIR_ALIVE_OUT toggles while EN is set. -/
def pairHeartbeatToggle (b : Blk) : Blk :=
  if b.flag Reg.PAIR_CTRL 0 && domOn b 1 && b.pair.toggledAt + pairBeat ≤ b.now then
    pairAliveOut (b.setPair { b.pair with toggledAt := b.now }) (!b.pair.aliveOut)
  else b

/-- PAIR_HEARTBEAT_TOGGLE (R286). -/
def execPairHeartbeatToggle (s : State) : Result := inDom 1 (onBlk pairHeartbeatToggle) s

/-- The payload of a beacon (Table 11-1). -/
def beaconPayload (b : Blk) : List Byte :=
  let pos := merPos b (pairMer b)
  let f := pairForce b
  toLE 1 3 ++ toLE 1 1 ++ toLE 1 (pairState b + 4 * b2n (pairHold b) + 8 * b.fld Reg.PAIR_STATUS 3 3)
    ++ toLE 1 (b2n (b.pair.reqLeft != 0) + 2 * b2n (f != 0) + 4 * b2n (pairLatching b))
    ++ toLE 2 b.deviceId ++ toLE 2 (b.fld Reg.PAIR_CLAIM 15 0) ++ toLE 1 (pairBase b) ++ toLE 1 (b.fld Reg.PAIR_CLAIM 23 16)
    ++ toLE 2 (b.rdN Reg.PAIR_FAULTS) ++ toLE 4 b.pair.seq ++ toLE 4 pos.1 ++ toLE 2 (pos.2 / 65536) ++ toLE 2 0
    ++ toLE 4 (b.rdN Reg.PAIR_TAKEOVER_FRAME) ++ toLE 4 (b.rdN Reg.PAIR_CONFIG_TAG) ++ toLE 4 (b.rdN Reg.PAIR_SHADOW_MISMATCH)
    ++ List.replicate 10 0#8

/-- The unit sends a beacon on the pair link in queue 7 (R287). -/
def pairBeacon (b : Blk) : Blk :=
  if !domOn b 3 then b
  else
    let f := toBE 6 0x030000007742 ++ toBE 6 (b.rd64 Reg.PAIR_SRC_MAC_LO Reg.PAIR_SRC_MAC_HI) ++ toBE 2 0x88B5 ++ beaconPayload b
    let b := trkSend b 7 f (some [pairLink b])
    (b.setPair { b.pair with seq := (b.pair.seq + 1) % 2 ^ 32, reqLeft := b.pair.reqLeft - 1 }).count Reg.PAIR_BEACON_TX

/-- Every 100 µs; a DISABLED unit sends only the beacon of its change to DISABLED (log entry 37). -/
def pairBeaconTimer (b : Blk) : Blk :=
  if pairState b != 0 && b.pair.timer + pairBeat ≤ b.now then pairBeacon (b.setPair { b.pair with timer := b.now }) else b

/-- PAIR_BEACON_TIMER (R287). -/
def execPairBeaconTimer (s : State) : Result := inDom 1 (onBlk pairBeaconTimer) s

/-! ### The partner (R286, R288) -/

/-- CLAIM_TIMEOUT Rows of the pair Meridian, in fabric clocks; 0 acts as 1 (R453). -/
def pairTimeout (b : Blk) : Nat := max 1 (b.fld Reg.PAIR_CONFIG 19 16) * rowSpan b (pairMer b) / nsUnit

/-- HEARD, VIA_BEACON and VIA_RING follow; a change is reported (R288). -/
def pairPeer (b : Blk) : Blk :=
  let fresh (t : Option Nat) : Bool := match t with
    | some t => decide (b.now - t ≤ pairTimeout b)
    | none => false
  let v1 := fresh b.pair.byBeacon
  let v2 := fresh b.pair.byRing
  let heard := (v1 || v2) && (b.flag Reg.PAIR_PEER 21 || !b.flag Reg.PAIR_CTRL 1)
  let was := b.flag Reg.PAIR_PEER 18
  let b := ((b.setFlag Reg.PAIR_PEER 18 heard).setFlag Reg.PAIR_PEER 19 v1).setFlag Reg.PAIR_PEER 20 v2
  if heard && !was then b.irq Reg.PAIR_INT_STATUS 3
  else if was && !heard then b.irq Reg.PAIR_INT_STATUS 2
  else b

/-- The partner's claim arrives, by beacon or by a pair-ring port. -/
def pairClaimIn (b : Blk) (claim : Nat) (ring : Bool) : Blk :=
  let p := b.pair
  let p := if ring then { p with byRing := some b.now } else { p with byBeacon := some b.now }
  pairPeer ((b.setPair { p with lastClaim := some b.now }).setFld Reg.PAIR_PEER 15 0 claim)

/-- No claim of the partner for CLAIM_TIMEOUT Rows: a claim that old counts no more; one that arrives in this clock does (R288). -/
def pairClaimTimeout (b : Blk) : Blk :=
  let keep (t : Option Nat) : Option Nat := t.filter (fun t => t == b.now || decide (b.now < t + pairTimeout b))
  pairPeer (b.setPair { b.pair with byBeacon := keep b.pair.byBeacon, byRing := keep b.pair.byRing })

/-- PAIR_CLAIM_TIMEOUT (R288). -/
def execPairClaimTimeout (s : State) : Result := inDom 1 (onBlk pairClaimTimeout) s

/-- An edge on PAIR_ALIVE_IN: the heartbeat is present. -/
def pairAliveInEdge (b : Blk) : Blk :=
  pairPeer (((b.setPair { b.pair with aliveAt := b.now }).setFlag Reg.PAIR_PEER 21 true).setFlag Reg.PAIR_STATUS 7 true)

/-- PAIR_ALIVE_IN_EDGE (R286). -/
def execPairAliveInEdge (s : State) : Result := inDom 1 (onBlk pairAliveInEdge) s

/-- No edge for ALIVE_TIMEOUT: with ALIVE_EN set, the heartbeat is lost and counted. Before that time nothing happens. -/
def pairAliveLoss (b : Blk) : Blk :=
  if b.flag Reg.PAIR_CTRL 1 && b.pair.aliveAt + 10000 * b.fld Reg.PAIR_TIMING 23 16 ≤ b.now then
    pairPeer (((b.count Reg.PAIR_ALIVE_LOSS).setFlag Reg.PAIR_PEER 21 false).setFlag Reg.PAIR_STATUS 7 false)
  else b

/-- PAIR_ALIVE_LOSS (R286). -/
def execPairAliveLoss (s : State) : Result := inDom 1 (onBlk pairAliveLoss) s

/-! ### Health and claim (R289, R290) -/

/-- A windowed condition (R290): its last event, as a frame count plus 1, lies within FAULT_WINDOW frames. -/
def pairWindow (b : Blk) (at1 : Nat) : Bool := at1 != 0 && decide (b.pair.frames - (at1 - 1) < b.fld Reg.PAIR_WEIGHT1 31 24)

/-- A strand port fault (Table 11-2). -/
def portFault (b : Blk) (n : Nat) : Bool :=
  b.flag (Reg.STR_n_STATUS n) 5 || b.flag (Reg.STR_n_STATUS n) 6 || decide (strState b n < 2)

/-- The faults of Table 11-2: the number of times each applies, in the order STREAM, MER, PORT, RB, TEMP, SHADOW. -/
def pairFaults (b : Blk) : List Nat :=
  let m := pairMer b
  let ports := pairPorts b
  let hot := b.flag Reg.PWR_TJ 16 && decide ((16 * b.fld Reg.PAIR_WEIGHT1 23 16 : Nat) ≤ sx 16 (b.fld Reg.PWR_TJ 15 0))
  [b2n (b.flag Reg.CNV_STATUS 6), b2n (merState b m != 3 || b.flag (Reg.MERm_STATUS m) 4),
   (ports.filter (portFault b)).length, (ports.filter (fun n => pairWindow b (Tab.at 0 b.pair.rbFrame n))).length, b2n hot,
   if pairState b = 1 then (ports.filter (fun n => pairWindow b (Tab.at 0 b.pair.shFrame n))).length else 0]

/-- The weights of Table 11-2 in the same order. -/
def pairWeights (b : Blk) : List Nat :=
  [b.fld Reg.PAIR_WEIGHT0 7 0, b.fld Reg.PAIR_WEIGHT0 15 8, b.fld Reg.PAIR_WEIGHT0 23 16, b.fld Reg.PAIR_WEIGHT0 31 24,
   b.fld Reg.PAIR_WEIGHT1 7 0, b.fld Reg.PAIR_WEIGHT1 15 8]

/-- HEALTH and the advertised claim are computed (R289, R290); FORCE ACTIVE stands above HOLD and health (log entry 37). -/
def pairClaim (b : Blk) : Blk :=
  let fs := pairFaults b
  let ded := ((fs.zip (pairWeights b)).map (fun x => x.1 * x.2)).sum
  let flags := ((List.range 6).map (fun i => if fs.getD i 0 = 0 then 0 else 2 ^ i)).sum
  let health := 255 - ded
  let low := decide (health < b.fld Reg.PAIR_CONFIG 15 8)
  let base := if pairForce b = 2 then 255 else if pairHold b || low || pairForce b = 1 then 0 else pairBase b
  let demoted := low && pairForce b != 2
  let b := if demoted && !b.pair.healthLow then b.irq Reg.PAIR_INT_STATUS 5 else b
  ((b.setPair { b.pair with healthLow := demoted }).wrN Reg.PAIR_FAULTS (flags + 256 * sat8 ded)).wrN Reg.PAIR_CLAIM
    (health + 256 * base + 65536 * health)

/-- HOLD sets: its count starts anew. -/
def pairSetHold (b : Blk) : Blk := (b.setPair { b.pair with holdFrom := none }).setFlag Reg.PAIR_STATUS 2 true

/-- HEALTH is at least HEALTH_MIN, and the pair Meridian is LOCKED (R292). -/
def pairFit (b : Blk) : Bool := b.fld Reg.PAIR_CONFIG 15 8 ≤ b.fld Reg.PAIR_CLAIM 23 16 && merState b (pairMer b) == 3

/-- The conditions of R292 are looked at, in every clock: the uninterrupted time goes on, or starts anew. -/
def pairHoldCheck (b : Blk) : Blk :=
  if !pairHold b || pairFit b == b.pair.holdFrom.isSome then b
  else b.setPair { b.pair with holdFrom := if pairFit b then some b.now else none }

/-- REVERT_HOLD has passed without interruption: HOLD clears (R292). Before that nothing happens. -/
def pairRevertHoldExpiry (b : Blk) : Blk :=
  if pairHold b && pairFit b && b.pair.holdFrom.any (fun t => decide (t + 10 ^ 9 * b.fld Reg.PAIR_TIMING 15 0 ≤ b.now)) then
    ((b.setPair { b.pair with holdFrom := none }).setFlag Reg.PAIR_STATUS 2 false).irq Reg.PAIR_INT_STATUS 6
  else b

/-- PAIR_REVERT_HOLD_EXPIRY (R292). -/
def execPairRevertHoldExpiry (s : State) : Result := inDom 1 (onBlk pairRevertHoldExpiry) s

/-! ### Takeover and yield (R291 to R296) -/

/-- The claim timeout TO of the CLAIM frames, in 2^-48 ns (R198). -/
def pairTo (b : Blk) : Nat :=
  let w := claimTimeout b (pairMer b)
  if w < 32768 then w * 10000 * nsUnit else (w - 32768) * 1000000 * nsUnit

/-- G: the first frame that starts at or after t_T + T_S, t_T being the start of the Row (R294). -/
def pairFrameG (b : Blk) (heard : Bool) : Nat :=
  let m := pairMer b
  let f := (merPos b m).1
  let l : Int := (pairLead b * nsUnit / 4 : Nat)
  let ts : Int := (if heard then 0 else (pairTo b : Int)) - rowSpan b m + l
  let d : Int := rowStartNow b m + ts - rowInstant b m f 0 0
  let k : Int := -((-d) / (max 1 (pairPeriod b) : Nat))
  (((f : Int) + k) % 2 ^ 32).toNat

/-- STANDBY and FROM_PAIR on the pair-ring ports; a unit that takes over is no longer active by a ring break (R198, R293). -/
def pairSetPorts (b : Blk) (standby : Bool) (g : Option Nat) : Blk :=
  (pairPorts b).foldl (fun b n =>
    let b := (b.setFlag (Reg.STR_n_CTRL n) 7 standby).setFlag (Reg.STR_n_CLAIM n) 16 true
    let b := if standby then b
      else
        let b := { b with pairG := Tab.upd none b.pairG n g }
        (b.setStr n { b.str n with healDue := false }).setFlag (Reg.STR_n_STATUS n) 11 false
    swStandby (strSync b n) n) b

/-- Entry to ACTIVE from STANDBY: a takeover, which the Lifelog counts too (R293, R294, R303). -/
def pairTakeover (b : Blk) (heard : Bool) : Blk :=
  let g := pairFrameG b heard
  let b := (b.setFld Reg.PAIR_STATUS 1 0 2).wrN Reg.PAIR_TAKEOVER_FRAME g
  pairSetPorts ((lifeTotal (b.count Reg.PAIR_TAKEOVERS) 80).irq Reg.PAIR_INT_STATUS 0) false (some g)

/-- The transitions of Table 11-3 at a Row start; true where the state changed. -/
def pairEvaluate (b : Blk) : Blk × Bool :=
  let heard := b.flag Reg.PAIR_PEER 18
  let own := b.fld Reg.PAIR_CLAIM 15 0
  let peer := b.fld Reg.PAIR_PEER 15 0
  let peerSt := b.fld Reg.PAIR_PEER 17 16
  let sideB := b.flag Reg.PAIR_STATUS 3
  match pairState b with
  | 1 =>
    if !heard || peer < own || (own = peer && peerSt = 1 && !sideB) then (pairTakeover b heard, true) else (b, false)
  | 2 =>
    if heard && peerSt = 2 && (own < peer || (own = peer && sideB)) then
      let b := pairSetHold (b.setFld Reg.PAIR_STATUS 1 0 3)
      ((lifeTotal ((b.setPair { b.pair with yieldFrom := b.now }).count Reg.PAIR_YIELDS) 81).irq Reg.PAIR_INT_STATUS 1, true)
    else (b, false)
  | 3 => if heard then (b, false) else (b.setFld Reg.PAIR_STATUS 1 0 2, true)
  | _ => (b, false)

/-- A Row start of the pair Meridian (R289 to R292): the partner, health and claim, HOLD, the state; a beacon on a change. -/
def pairRow (b : Blk) : Blk :=
  let b := pairPeer b
  if pairState b = 0 then b
  else
    let old := b.fld Reg.PAIR_CLAIM 15 0
    let b := pairHoldCheck (pairClaim b)
    let r := pairEvaluate b
    if r.2 || r.1.fld Reg.PAIR_CLAIM 15 0 != old then pairBeacon r.1 else r.1

/-- A STRAND_LATCH Waypoint of the pair's Meridian `m`: the first one at least P + L after the entry to YIELDING makes the unit STANDBY,
whichever ports it names, and where the unit has no pair ring too (R295). -/
def pairLatchAction (b : Blk) (m : Nat) : Blk :=
  if pairState b = 3 && m = pairMer b
      && b.pair.yieldFrom * nsUnit + pairPeriod b + pairLead b * nsUnit / 4 ≤ b.now * nsUnit then
    let b := b.setFld Reg.PAIR_STATUS 1 0 1
    pairBeacon (pairSetPorts (b.setPair { b.pair with txOn := false }) true none)
  else b

/-- A START_FRAME: a unit that is ACTIVE or YIELDING has its emitters and E1.31 transmit enabled (R293). -/
def pairStartFrame (b : Blk) : Blk := if 2 ≤ pairState b then b.setPair { b.pair with txOn := true } else b

/-- PAIR_CTRL has been written: EN set makes the unit STANDBY with HOLD, EN cleared DISABLED (Table 11-3). -/
def unitCtrlWritten (b : Blk) (old : Nat) : Blk :=
  let en := b.flag Reg.PAIR_CTRL 0
  if en && !bit old 0 then
    let b := b.setPair { b.pair with seq := 0, timer := b.now, toggledAt := b.now, txOn := false }
    let b := pairSetHold (b.setFld Reg.PAIR_STATUS 1 0 1)
    pairPeer (pairBeacon (pairSetPorts (pairClaim b) true none))
  else if !en && bit old 0 then
    let b := (b.setPair { b.pair with holdFrom := none, txOn := false }).setFld Reg.PAIR_STATUS 2 0 0
    pairPeer (pairBeacon (pairAliveOut b false))
  else pairPeer b

/-- PAIR_FORCE_CTRL has been written with `v`: RESET_PARTNER sets RESET_REQ in the unit's next three beacons (R288; log entry 37). -/
def pairForceWritten (b : Blk) (v : Nat) : Blk := if bit v 8 then b.setPair { b.pair with reqLeft := 3 } else b

/-- PAIR_CTRL.CLR_COUNTS (R303). -/
def pairClrCounts (b : Blk) : Blk := (b.zero ((List.range 9).map (fun k => Reg.PAIR_TAKEOVERS + 4 * k))).wr Reg.PAIR_WKR_SWITCHES 0#32

/-- PAIR_CLR_COUNTS (R303). -/
def execPairClrCounts (s : State) : Result := inDom 1 (onBlk pairClrCounts) s

/-! ### Pair-ring breaks (R297) -/

/-- A standby's pair-ring port without the active unit's CLAIM for 2 Rows, the partner heard, becomes RING_ACTIVE and sends from the next Row
start, with the G of a partner that is not heard (R294, R297). -/
def pairRingBreak (n : Nat) (b : Blk) : Blk :=
  if b.flag Reg.PAIR_PORTS n && pairState b = 1 && b.flag Reg.PAIR_PEER 18 && strRuns b n && !strRingActive b n
      && 2 ≤ (b.str n).claimGap then
    let g := pairFrameG b false
    let b := { b with pairG := Tab.upd none b.pairG n (some g) }.wrN Reg.PAIR_TAKEOVER_FRAME g
    let b := b.setStr n { b.str n with joinDue := true }
    let b := (b.setFlag (Reg.STR_n_STATUS n) 11 true).irq (Reg.STR_n_INT_STATUS n) 11
    strSync (b.count (Reg.STR_n_RING_SWITCH n)) n
  else b

/-- PAIR_RING_BREAK (R297). -/
def execPairRingBreak (n : Fin 32) (s : State) : Result := inDom 1 (onBlk (pairRingBreak n)) s

/-! ### Shadow (R300) and the worker arbiter (R298) -/

/-- Comparisons that have waited for two frames without an entry of the standby are skipped. -/
def shadowExpire (b : Blk) : Blk :=
  let old := b.pair.waits.filter (fun w => w.since + 2 ≤ b.pair.frames)
  (b.setPair { b.pair with waits := b.pair.waits.filter (fun w => b.pair.frames < w.since + 2) }).count
    Reg.PAIR_SHADOW_SKIPPED old.length

/-- A write to PAIR_WKR_HEARD: CLAIM and WHICH. -/
def pairWkrHeard (v : Nat) (b : Blk) : Blk :=
  let w := bits v 16 16
  let b := b.setPair { b.pair with wkr := Tab.upd none b.pair.wkr w (some b.pair.frames) }
  (b.setFld Reg.PAIR_WKR_CLAIM (16 * w + 15) (16 * w) (bits v 15 0)).setFlag Reg.PAIR_WKR_STATUS (1 + w) true

/-- PAIR_WKR_HEARD (R298). -/
def execPairWkrHeard (value : Word) (s : State) : Result := inDom 1 (onBlk (pairWkrHeard value.toNat)) s

/-- A claim ages out after WKR_TIMEOUT frames; before that nothing happens. -/
def wkrTimeout (w : Nat) (b : Blk) : Blk :=
  if (Tab.at none b.pair.wkr w).any (fun f => decide (f + b.fld Reg.PAIR_TIMING 31 24 ≤ b.pair.frames)) then
    (b.setPair { b.pair with wkr := Tab.upd none b.pair.wkr w none }).setFlag Reg.PAIR_WKR_STATUS (1 + w) false
  else b

/-- WKR_TIMEOUT (R298). -/
def execWkrTimeout (srcB : Bool) (s : State) : Result := inDom 1 (onBlk (wkrTimeout (b2n srcB))) s

/-- The worker arbiter at a frame boundary: the table of R200 with A for Port-1 and B for Port-2. -/
def wkrSwitch (b : Blk) : Blk :=
  if !b.flag Reg.PAIR_WKR_CTRL 0 then b
  else
    let s := b.fld Reg.PAIR_WKR_STATUS 0 0
    let o := 1 - s
    let hs := b.flag Reg.PAIR_WKR_STATUS (1 + s)
    let ho := b.flag Reg.PAIR_WKR_STATUS (1 + o)
    let c (w : Nat) : Nat := b.fld Reg.PAIR_WKR_CLAIM (16 * w + 15) (16 * w)
    let b := if ho && (!hs || decide (c s < c o)) then
        ((b.setFld Reg.PAIR_WKR_STATUS 0 0 o).count Reg.PAIR_WKR_SWITCHES).irq Reg.PAIR_INT_STATUS 8
      else b
    let none := !hs && !ho
    let b := if none && !b.flag Reg.PAIR_WKR_STATUS 3 then b.irq Reg.PAIR_INT_STATUS 9 else b
    b.setFlag Reg.PAIR_WKR_STATUS 3 none

/-- A frame boundary of Meridian `m`: frames are counted, comparisons expire, the worker arbiter decides. -/
def pairBoundary (b : Blk) (m : Nat) : Blk :=
  if m = pairMer b then wkrSwitch (shadowExpire (b.setPair { b.pair with frames := b.pair.frames + 1 })) else b

end Sys2Proof.Machine
end

