-- ==== Sys2Proof/Machine/MerEvents.lean ====
section
/-!
DEFINITION. What a Meridian's position brings about across the blocks: Row starts, frame boundaries, and the firing of Waypoints
(R59, R61, R78, R79, R82, R83).
-/
namespace Sys2Proof.Machine

/-- Ports 0 to 31. -/
def allPorts : List Nat := List.range 32

/-- The position enters a new Row (R61): the pair evaluates, reserved and PARK frames are queued, DMX takes the Row that ended, E1.31
packets are built, paced movements step. -/
def merRowStart (m : Nat) (lost : List Nat) (mem : Mem) (b : Blk) : Blk × List Host.Cell :=
  let p := merPos b m
  let row := merRow b m
  let b := if pairMer b = m then pairRow b else b
  let b := allPorts.foldl (strRowStart m row) b
  let r := allPorts.foldl (dmxRowStart m mem) (b, [])
  let e := e131RowStart mem m p.1 row lost r.1
  (calRowStart m e.1, r.2 ++ e.2)

/-- MERIDIAN_ROW_START (R61). -/
def execMeridianRowStart (m : Fin 2) (lost : List Nat) (s : State) : Result := inDom 2 (onMem (merRowStart m lost)) s

/-- A gap ends at a boundary at which the state is LOCKED (R79). -/
def merGapEnd (b : Blk) (m : Nat) : Blk :=
  if b.flag (Reg.MERm_STATUS m) 4 && merState b m = 3 then
    let us := match (b.mer m).gapClock with
      | some t => (b.now - t) / 1000
      | none => 0
    (((b.setMer m { b.mer m with gapClock := none }).setFlag (Reg.MERm_STATUS m) 4 false).irq (Reg.MERm_INT_STATUS m) 4).wrN
      (Reg.MERm_GAP_US m) (sat32 us)
  else b

/-- A COMMIT written before this boundary's clock takes effect, and a gap then goes on; without one, or where it is refused, a gap
can end (R78, R79). -/
def merBoundaryMode (b : Blk) (m : Nat) : Blk :=
  if (b.mer m).commits.any (fun c => decide (c < b.now)) then
    let c := merCommitDue b m
    if merModeOk b m c.look then merApplyCommit b m c else merGapEnd (merApplyCommit b m c) m
  else merGapEnd b m

/-- TICK wraps and FRAME increments (R59): canvas, mode and gap, the end of SUPPRESS (R72), the published segment (R73), strands, drive
groups, the pair, Swatches. -/
def merBoundary (m : Nat) (mem : Mem) (b : Blk) : Blk :=
  let b := cnvBoundary mem b m (merPos b m).1
  let b := (merBoundaryMode b m).setFlag (Reg.MERm_STATUS m) 6 false
  let b := merPublish b m (merPos b m).1
  let b := allPorts.foldl (strBoundary m) b
  calBoundary m (pairBoundary (drvBoundary m b) m)

/-- MERIDIAN_FRAME_BOUNDARY (R59). -/
def execMeridianFrameBoundary (m : Fin 2) (s : State) : Result := inDom 2 (onView (merBoundary m)) s

/-! ### Waypoints (R82, R83) -/

/-- Ports of a strand mask that follow Meridian `mer`. -/
def maskPorts (b : Blk) (mer mask : Nat) : List Nat := allPorts.filter (fun n => bit mask n && strMer b n == mer)

/-- A START_ROW of Meridian `mer` at position `p` (Table 3-8). -/
def actStartRow (mer : Nat) (p : Nat × Nat) (ecc : List (Fin 16 × EccResult)) (m : Mem) (b : Blk) : Blk :=
  let row := p.2 / 65536 / merRowLen b mer
  let b := allPorts.foldl (strStartRow mer p.1 row) b
  let b := allPorts.foldl (dmxStartRow mer p.1 row) b
  drvStartRow mer p row ecc m (stitchStartRow mer p row m b)

/-- A START_FRAME: the universe banks, the Stitch engine, and what the pair lets send (R222, R293). -/
def actStartFrame (mer : Nat) (p : Nat × Nat) (m : Mem) (b : Blk) : Blk × List Host.Cell :=
  let held := merWithheld b mer
  let r := stitchStartFrame mer p m (if !held && stcMer b = mer then e131Flip b else b)
  (if !held && pairMer r.1 = mer then pairStartFrame r.1 else r.1, r.2)

/-- A STRAND_LATCH with its mask: the strands, the drive groups that latch with them, the pair's yield (R191, R237, R295). -/
def actStrandLatch (mer : Nat) (p : Nat × Nat) (mask : Nat) (lateOk : Bool) (ecc : List (Fin 16 × EccResult)) (m : Mem)
    (b : Blk) : Blk :=
  let b := (maskPorts b mer mask).foldl (fun b n => strLatchAction b n p lateOk) b
  pairLatchAction (drvStrandLatch mer p mask ecc m b) mer

/-- A cycle line pulses, once in a clock: CYCn, check-value units, DMA channels. R87 names the DRIVE sequencer among the consumers that can select a line in
their trigger fields; no register of it has such a field, so it selects none here (log entry 64). -/
def actCycle (line : Nat) (b : Blk) : Blk :=
  if Tab.at 0 b.cycAt line = b.now + 1 then b
  else
    let b := { b with cycAt := Tab.upd 0 b.cycAt line (b.now + 1) }.irq Reg.EVT_INT_STATUS line
    dmaCycle (crcCycle b line) line

/-- The action of entry `i` at position `p` (Table 3-8); `ecc` is what the check bits of setpoint entries say. -/
def wptAct (i : Nat) (w : Waypoint) (p : Nat × Nat) (ecc : List (Fin 16 × EccResult)) (m : Mem) (b : Blk) : Blk × List Host.Cell :=
  match w.action with
  | 1 => (actStartRow w.mer p ecc m b, [])
  | 2 => actStartFrame w.mer p m b
  | 3 => (actStrandLatch w.mer p w.w3 w.lateOk ecc m b, [])
  | 4 => ((maskPorts b w.mer w.w3).foldl strShutterAction b, [])
  | 5 => (evtAction b i w p, [])
  | 6 => (sensorStart b ((List.range 12).filter (fun k => bit w.w3 k)), [])
  | 7 => (calWaypoint m b (w.w3 % 65536), [])
  | 8 => (cueAction w.mer p (w.w3 % 65536) m b, [])
  | 9 => (actCycle (w.w3 % 16) b, [])
  | 10 => (e131SyncSend (w.w3 % 65536) b, [])
  | 11 => ((b.wrN Reg.WPT_FIRE_TAG (w.w3 % 65536 + 65536 * i)).irq Reg.WPT_INT_STATUS 2, [])
  | _ => (b, [])

/-- Firings so far in this clock. -/
def wptCount (b : Blk) : Nat := if b.wptFired.1 = b.now + 1 then b.wptFired.2 else 0

/-- What fires: an entry of the table, or one taken out of it in this clock, with its instance. -/
structure WptHit where
  clock : Nat
  index : Nat
  entry : Waypoint
  pos : Nat × Nat
  gone : Bool

/-- The instance a late entry fires for: its own position, or for a periodic one the instance it was armed too late for. -/
def wptLateAt (w : Waypoint) : Nat × Nat := if w.period = 0 then (w.w0, w.sub) else w.done.getD (0, w.sub)

/-- The entries that are due, deferred and late ones included, in the order in which they fire: by the clock in which they fell due, then by
index (R82). -/
def wptHits (b : Blk) : List WptHit :=
  let hit (gone : Bool) (i : Nat) (w : Waypoint) : Option WptHit :=
    if w.late then
      match b.wptDue.find? (fun d => d.index == i) with
      | some d => if b.flag Reg.WPT_CTRL 0 then some { clock := d.clock, index := i, entry := w, pos := wptLateAt w, gone } else none
      | none => none
    else (wptReached b w).map (fun p => { clock := wptClock b w p, index := i, entry := w, pos := p, gone })
  let here := b.wpts.filterMap (fun e => e.2.bind (hit false e.1))
  let left := (b.wptGone.filter (fun g => g.clock == b.now && !g.entry.late)).filterMap (fun g => hit true g.index g.entry)
  sortOn (fun h => ((1024 * h.clock + h.index : Nat) : Int)) (here ++ left)

/-- An entry fires: a one-shot entry's VALID clears (R81), of a periodic one the instance has been dealt with. -/
def wptGo (h : WptHit) (ecc : List (Fin 16 × EccResult)) (m : Mem) (b : Blk) : Blk × List Host.Cell :=
  let w := h.entry
  let b := { b with wptFired := (b.now + 1, wptCount b + 1) }
  let b := if h.gone then { b with wptGone := b.wptGone.filter (fun g => g.index != h.index) }
    else (Blk.setWpt { b with wptDue := b.wptDue.filter (fun d => d.index != h.index) } h.index
      (if w.period = 0 then none else some { w with late := false, done := some h.pos }))
  wptAct h.index w h.pos ecc m b

/-- An entry that is due beyond the eighth of a clock is deferred, which counts once (R82). -/
def wptDefer (h : WptHit) (b : Blk) : Blk :=
  if b.wptDue.any (fun d => d.index == h.index && d.deferred) then b
  else
    let due := b.wptDue.filter (fun d => d.index != h.index) ++ [{ clock := h.clock, index := h.index, deferred := true }]
    (Blk.count { b with wptDue := due } Reg.WPT_DEFER_COUNT).irq Reg.WPT_INT_STATUS 4

/-- Entries that are due fire in order, up to 8 in a clock; the others are deferred (R82). -/
def wptRun (m : Mem) (r : Blk × List Host.Cell) : List (WptHit × List (Fin 16 × EccResult)) → Blk × List Host.Cell
  | [] => r
  | (h, ecc) :: hs =>
    if wptCount r.1 < 8 then
      let x := wptGo h ecc (m.write r.2) r.1
      wptRun m (x.1, r.2 ++ x.2) hs
    else wptRun m (wptDefer h r.1, r.2) hs

/-- The position has reached entry `i` (R81, R82): it fires while WPT_CTRL.EN is set and its Meridian runs, after whatever is due before it. An
entry that is not due does not fire. -/
def waypointFire (i : Nat) (ecc : List (Fin 16 × EccResult)) (m : Mem) (b : Blk) : Blk × List Host.Cell :=
  let hs := wptHits b
  if hs.any (fun h => h.index == i) then
    wptRun m (b, []) ((hs.takeWhile (fun h => h.index != i) ++ hs.filter (fun h => h.index == i)).map
      (fun h => (h, if h.index = i then ecc else [])))
  else (b, [])

/-- WAYPOINT_FIRE (R82). -/
def execWaypointFire (index : Fin 1024) (found : List (Fin 16 × EccResult)) (s : State) : Result :=
  inDom 2 (onMem (waypointFire index found)) s

/-- Late and deferred entries fire in a clock, up to 8 (R82, R83). -/
def wptTick (m : Mem) (b : Blk) : Blk × List Host.Cell :=
  wptRun m (b, []) (((wptHits b).filter (fun h => wptWaits b h.index)).map (fun h => (h, [])))

end Sys2Proof.Machine
end

