-- ==== Sys2Proof/Machine/Bearing.lean ====
section
/-!
DEFINITION. What firmware authenticates (R308, R309), and Bearings: built by a manager, taken by a worker (R73 to R77, R298).
-/
namespace Sys2Proof.Machine

/-- What firmware does happens only while its control tasks run. -/
def inFw (act : State → Result) (s : State) : Result := if fwTasks s.blk then act s else .next s

/-! ### Authentication (R308, R309) -/

/-- User key slot `i`. -/
def keyOf (b : Blk) (i : Nat) : Option (BitVec 128) := Tab.at none b.keys i

/-- The IV of a packet: SOURCE, NONCE and two zeros (R308). -/
def authIv (source nonce : Nat) : List Byte := toLE 2 source ++ toLE 8 nonce ++ [0#8, 0#8]

/-- The tag bytes of `aad` under the key of slot `i`, none where the slot is empty. -/
def authTag (b : Blk) (i source nonce : Nat) (aad : List Byte) : Option (List Byte) :=
  (keyOf b i).map (fun k => toLE 16 (Config.gcmTag k (authIv source nonce) aad).toNat)

/-- The device's next NONCE under key slot `i`: one more than the last. -/
def nonceNext (b : Blk) (i : Nat) : Nat := (Tab.at 0 b.nonces i + 1) % 2 ^ 64

/-- That NONCE is used; at a multiple of 65,536 it is saved to the settings area (R309). -/
def nonceUsed (b : Blk) (i : Nat) : Blk :=
  let n := nonceNext b i
  let b := { b with nonces := Tab.upd 0 b.nonces i n }
  if n % 65536 = 0 then { b with noncesSaved := Tab.upd 0 b.noncesSaved i n } else b

/-! ### The replay table (R311) -/

/-- The result of looking a NONCE up. -/
inductive Replay where
  | fresh | stale | full
  deriving DecidableEq, Repr

/-- Whether a NONCE is greater than the last accepted one of its SOURCE and KEY_SLOT; a new pair needs a free entry of the 64. -/
def replayLook (b : Blk) (source slot nonce : Nat) : Replay :=
  match b.firm.replay.find? (fun e => e.1 == source && e.2.1 == slot) with
  | some e => if e.2.2 < nonce then .fresh else .stale
  | none => if b.firm.replay.length < 64 then .fresh else .full

/-- A pass raises the entry, or takes a free one. -/
def replayRaise (b : Blk) (source slot nonce : Nat) : Blk :=
  let rest := b.firm.replay.filter (fun e => !(e.1 == source && e.2.1 == slot))
  { b with firm := { b.firm with replay := rest ++ [(source, slot, nonce)] } }

/-! ### Bearings (Table 3-5) -/

/-- The shutter windows of Meridian `m` that are enabled (Table 3-11). -/
def bearingWindows (b : Blk) (m : Nat) : Nat :=
  ((List.range 8).map (fun w =>
    let v := b.rdN (Reg.MERm_STAGE_SHUTx m w)
    if bits v 15 0 < bits v 31 16 && bits v 31 16 ≤ merTpf b m then 2 ^ w else 0)).sum

/-- A Bearing's bytes 0 to 87, with the segment that is ready (Table 3-5). -/
def bearingBody (b : Blk) (m : Nat) : List Byte :=
  let st := merState b m
  [0xB7#8, 1#8] ++ toLE 1 m ++ toLE 1 (b2n (st == 3) + 2 * b2n (st == 4) + 4 * b2n (b.mer m).jumpSinceBearing)
    ++ toLE 2 (b.deviceId % 4096) ++ toLE 2 b.bearingSeq ++ toLE 2 (b.fld Reg.PAIR_CLAIM 15 0) ++ toLE 2 (merTpf b m)
    ++ toLE 1 (merRows b m) ++ toLE 1 (b.mer m).generation ++ toLE 1 (bearingWindows b m) ++ [0#8]
    ++ (List.range 8).flatMap (fun i => toLE 4 (b.rdN (Reg.MERm_SEG_x m i)))
    ++ (List.range 8).flatMap (fun w => toLE 4 (b.rdN (Reg.MERm_STAGE_SHUTx m w)))
    ++ toLE 8 (nonceNext b 0)

/-- Firmware sends the ready segment of a publishing Meridian as a Bearing under the hierarchy key; with that slot empty there is no tag
and nothing is sent (R73, R74, R309). -/
def bearingSend (m : Nat) (b : Blk) : Blk :=
  if b.flag (Reg.MERm_CTRL m) 2 && b.flag (Reg.MERm_INT_STATUS m) 11 then
    let body := bearingBody b m
    match authTag b 0 (b.deviceId % 4096) (nonceNext b 0) body with
    | none => b
    | some tag =>
      let b := fwSend (ipMac Config.bearingGroup.toNat) Config.bearingGroup.toNat 47741 (body ++ tag) (nonceUsed b 0)
      let b := { b with bearingSeq := (b.bearingSeq + 1) % 65536 }
      (b.setMer m { b.mer m with jumpSinceBearing := false }).setFlag (Reg.MERm_INT_STATUS m) 11 false
  else b

/-- BEARING_SEND (R73). -/
def execBearingSend (m : Fin 2) (s : State) : Result := inFw (inDom 2 (onBlk (bearingSend m))) s

/-- A Bearing that a worker accepts: its form, its tag under the hierarchy key, and a fresh NONCE (R74, R311). -/
def bearingGood (b : Blk) (p : List Byte) : Bool :=
  let src := leAt p 4 2
  let nonce := leAt p 80 8
  p.length == 104 && leAt p 0 2 == 0x01B7 && leAt p 2 1 < 2
    && authTag b 0 src nonce (p.take 88) == some (p.drop 88)
    && replayLook b src 0 nonce == .fresh

/-- The source of the worker arbiter that a Bearing is from: A, B, or neither (R298). -/
def wkrWhich (b : Blk) (src : Nat) : Option Nat :=
  if src = b.fld Reg.PAIR_WKR_SRC 11 0 then some 0 else if src = b.fld Reg.PAIR_WKR_SRC 27 16 then some 1 else none

/-- A GENERATION or layout other than the last: the layout and windows are staged and committed (R77, R78). -/
def bearingLayout (b : Blk) (m : Nat) (p : List Byte) : Blk :=
  let gen := leAt p 13 1
  let lay := leAt p 10 2 + 65536 * bits (leAt p 12 1) 6 0
  let new := (b.mer m).bearingGen != some gen || bits (b.stagedLast (Reg.MERm_STAGE_LAYOUT m)) 22 0 != lay
  let b := b.setMer m { b.mer m with bearingGen := some gen }
  if new then
    let b := b.stage (Reg.MERm_STAGE_LAYOUT m) lay
    let b := (List.range 8).foldl (fun b w =>
      b.stage (Reg.MERm_STAGE_SHUTx m w) (if bit (leAt p 14 1) w then leAt p (48 + 4 * w) 4 else 0)) b
    meridianCommit m b
  else b

/-- The model of a Bearing is loaded into the worker's Meridian of the same number (log entry 55); JUMP first empties the queue (R76). -/
def bearingLoad (b : Blk) (p : List Byte) : Blk :=
  let m := leAt p 2 1
  let flags := leAt p 3 1
  if merSrc b m != 5 || !domOn b 2 then b
  else
    let b := bearingLayout b m p
    let b := if bit flags 2 then merSetQueue b m [] else b
    let b := b.wrWords (Reg.MERm_MODEL_x m 0) ((List.range 8).map (fun i => leAt p (16 + 4 * i) 4))
    modelLoad m (bit flags 0) b

/-- A Bearing arrives: authenticated, its claim given to the worker arbiter, and loaded where it is the selected unit's (R74, R77, R298). -/
def bearingReceive (p : List Byte) (b : Blk) : Blk :=
  if !bearingGood b p then b
  else
    let src := leAt p 4 2 % 4096
    let b := replayRaise b (leAt p 4 2) 0 (leAt p 80 8)
    if !b.flag Reg.PAIR_WKR_CTRL 0 then bearingLoad b p
    else match wkrWhich b src with
      | none => b
      | some w =>
        let b := pairWkrHeard (leAt p 8 2 + 65536 * w) b
        if b.fld Reg.PAIR_WKR_STATUS 0 0 = w then bearingLoad b p else b

/-- BEARING_RECEIVE (R74). -/
def execBearingReceive (payload : List Byte) (s : State) : Result := inFw (onBlk (bearingReceive payload)) s

/-- RESET_PARTNER (R288). -/
def execResetPartner (s : State) : Result := inDom 1 (onBlk (fun b => pairForceWritten b 256)) s

end Sys2Proof.Machine
end

