-- ==== Sys2Proof/Machine/Power.lean ====
section
/-!
DEFINITION. Power, reset and Cast-on (R28, R29, R279 to R281, R360 to R380).
-/
namespace Sys2Proof.Machine

/-- The block with the AON state `p`. -/
def Blk.setPwr (b : Blk) (p : Power) : Blk := { b with pwr := p }

/-! ### What a reset clears (R366, R367) -/

/-- The domain whose reset clears register `a`: the Lifelog registers lie in DIAG and are held in AON (R412). -/
def resetDomain (a : Nat) : Option Nat := if 0x40130000 ≤ a && a < 0x40138000 then some 0 else regDomain a

/-- The registers of domain `d` at their reset values, with their latches and staged values. -/
def domRegs (b : Blk) (d : Nat) : Blk :=
  { b with
    regs := b.regs.filter (fun c => resetDomain c.1 != some d)
    latches := b.latches.filter (fun c => resetDomain (c.1 / 8) != some d)
    staged := b.staged.filter (fun c => resetDomain c.1 != some d) }

/-- The state of domain `d` that has no register, as after reset. What lies in retained memory and in the OTP stays, as do the nodes,
which are not the device's, and the user key slots (R366). A reset of
HOST frees the locks its requesters hold (R324). -/
def domState (b : Blk) (d : Nat) : Blk :=
  match d with
  | 1 => { b with
      regionBlock := [], spareBlocks := [64, 65], regionStage := [], atlasWaiting := [], atlasCommit := [], pair := {}, pairG := []
      deviceId := 0, bearingSeq := 0, fwu := { keyMade := b.fwu.keyMade }
      firm := { replay := b.firm.replay, replaySaved := b.firm.replaySaved, wiped := b.firm.wiped, saved := b.firm.saved }
      dma := [], skn := [], crcCount := [], crcSet := [], cycAt := [], mbxLate := [], lockWon := [], cal := {} }
  | 2 => { evtDown b with tbs := [], mers := [], wpts := [], wptDue := [], wptBusy := [], wptGone := [], wptFired := (0, 0), evtIn := [], evtLost := [] }
  | 3 => { b with
      firm := { b.firm with netUp := false, rxAt := 0, txOut := [] }
      trk := {}, tsq := [], tsqLost := [], synceOnSec := false, syncePriLost := false, synceSecLost := false, synceHist := [], e131Bank := [], e131Rx := [], e131Syncs := [], e131TxSeq := [], e131SyncSeq := []
      e131Term := [] }
  | 4 => { b with cnv := {} }
  | 5 => stcReset b
  | 6 => { (List.range 16).foldl hopsFollow b with strs := b.strs.filter (fun c => decide (16 ≤ c.1)), alts := b.alts.filter (fun c => decide (16 ≤ c.1)) }
  | 7 => { ((List.range 16).map (· + 16)).foldl hopsFollow b with strs := b.strs.filter (fun c => decide (c.1 < 16)), alts := b.alts.filter (fun c => decide (c.1 < 16)) }
  | 8 => { b with drv := {}, drvGot := [] }
  | 9 =>
    let b := (List.range 32).foldl (fun b n =>
      if b.fld (Reg.MBX_LOCK_n n) 2 0 = 3 || b.fld (Reg.MBX_LOCK_n n) 2 0 = 4 then b.wr (Reg.MBX_LOCK_n n) 0#32 else b) b
    { b with host := { intLow := b.host.intLow, hqLow := b.host.hqLow, cc0Irq := b.host.cc0Irq, cc1Irq := b.host.cc1Irq } }
  | _ => b

/-- Pins take a level. -/
def pinsTo (b : Blk) (ps : List Pin) (level : Bool) : Blk := ps.foldl (fun b p => b.emit (.pin p level)) b

/-- The strand pads of the ports in `ns` under FUNC 1 or 2 return to high impedance (R373). -/
def padsBack (b : Blk) (ns : List Nat) : Blk :=
  ns.foldl (fun b n => if (b.alt n).pads.isSome then b.emit (.strandPads n none) else b) b

/-- The pins of domain `d` while it is in reset (Table 14-7). -/
def domPins (b : Blk) (d : Nat) : Blk :=
  match d with
  | 6 => padsBack b (List.range 16)
  | 7 => padsBack b ((List.range 16).map (· + 16))
  | 1 => pinsTo (pinsTo b [.aliveOut] false) [.intN, .hqIntN] true
  | 2 => pinsTo b ((List.range 8).map Pin.evtOut ++ [.ppsOut]) false
  | 3 => (List.range 4).foldl (fun b p => b.emit (.trunkIdle p true)) b
  | 8 => pinsTo b ((List.range 16).map Pin.gate ++ (List.range 16).map Pin.dim) false
  | 9 => b.emit (.pcieIdle true)
  | _ => b

/-- The PCIe transmitters leave electrical idle and train: HOST runs, PERST_N is high and PCIe is selected (R318, R373). -/
def hostPads (b : Blk) : Blk := if domOn b 9 && !b.pwr.perstLow && !b.pwr.hostSel then b.emit (.pcieIdle false) else b

/-- The key slots that hold a key, one bit each. -/
def keysValid (b : Blk) : Nat := ((List.range 8).map (fun i => if (Tab.at none b.keys i).isSome then 2 ^ i else 0)).sum

/-- The registers that show the OTP, the options, the key slots and the straps whatever the resets. -/
def strapsShow (b : Blk) : Blk :=
  let b := (b.setFld Reg.FWU_LC 2 0 b.pwr.lifeCycle).setFld Reg.FWU_KEY_STATUS 7 0 (keysValid b)
  let b := b.wr Reg.HST_IDS (b.rd Reg.OPT_PCI_IDS)
  let b := (b.wrN Reg.FWU_ROLLBACK b.otp.rollback).wrN Reg.FWU_OTP_KEYS (b.otp.rootKeys + 16 * b.otp.revoked)
  (b.setFlag Reg.PAIR_STATUS 3 b.pwr.pairSide).setFlag Reg.HST_STATUS 0 b.pwr.hostSel

/-- The debug challenge changes: random, so a free value (R404; log entry 3). -/
def newChallenge (b : Blk) : Blk :=
  (List.range 4).foldl (fun b i => (b.wrN (Reg.FWU_DBG_CHALLENGEx i) (Config.freeValue b.freeCount)).drawn) b

/-- Domain `d` enters reset (R364, R367). -/
def domReset (b : Blk) (d : Nat) : Blk :=
  let b := strapsShow (domState (calShow (domRegs (calDomainReset (domPins b d) d) d) d) d)
  if d = 1 then newChallenge b else b

/-! ### Reset sources (R362 to R366) -/

/-- Every watchdog's EN and REMAIN, and PWR_CTRL.BOUND (R380). -/
def aonFields (b : Blk) : Blk :=
  let b := [Reg.RST_WDTc_CTRL 0, Reg.RST_WDTc_CTRL 1, Reg.RST_WDTHW_CTRL].foldl (fun b a => b.setFlag a 0 false) b
  let b := b.zero [Reg.RST_WDTc_REMAIN 0, Reg.RST_WDTc_REMAIN 1, Reg.RST_WDTHW_REMAIN]
  (b.setFlag Reg.PWR_CTRL 1 false).setPwr { b.pwr with kicker := none }

/-- A reset during S2 interrupts the option load (R374). -/
def loadCut (b : Blk) : Blk :=
  if b.pwr.stage = .s2 then
    ((b.count Reg.OPT_RESTARTS).setFlag Reg.OPT_STATUS 0 false).setFld Reg.OPT_STATUS 7 4 (min 8 (b.fld Reg.OPT_STATUS 7 4 + 1))
  else b

/-- The arrays a reset of CORE wipes (R375). -/
def sramArrays : List SramArray := [.switchBuffer, .canvasStore, .pool, .firmwareSram]

/-- Every domain but AON enters reset, but for a DRIVE domain that holds (R251, R364, R366). -/
def domainsDown (b : Blk) (hold : Bool) : Blk :=
  let ctrl := b.rd Reg.DRV_HOLD_CTRL
  let b := if hold then drvHoldEnter b else b
  let ds := [1, 2, 3, 4, 5, 6, 7, 8, 9].filter (fun d => !(hold && d == 8))
  let b := aonFields ((ds.foldl domReset b).wr Reg.DRV_HOLD_CTRL ctrl)
  let b := ds.foldl (fun b d => b.setFlag Reg.RST_STATUS d true) (b.wr Reg.RST_STATUS 0#32)
  let b := ({ b with wiping := sramArrays ++ b.wiping.filter (fun x => x == SramArray.retained) }).setFlag Reg.RST_STATUS 18 true
  pinsTo (b.setPwr { b.pwr with holding := [] }) [.resetOutN, .flResetN] false

/-- What a full reset clears beside a warm one: the RSTPWR registers, the Lifelog and its registers. The levels of PWR_EN are
not reset; the option-load record is, at POR (R366, R374). PWR_TJ reads 0 until the next reading, PWR_RAIL until a rail changes or S0
ends (Table 14-8). -/
def aonDown (b : Blk) (por : Bool) : Blk :=
  let opt := b.rdN Reg.OPT_STATUS
  let n := b.rdN Reg.OPT_RESTARTS
  let pins := b.fld Reg.PWR_STATUS 19 16
  let rst := b.rd Reg.RST_STATUS
  let b := ({ domRegs b 0 with life := [], lifeNow := (0, []) }).wr Reg.DRV_HOLD_CTRL (BitVec.ofNat 32 (Reg.resetAt Reg.DRV_HOLD_CTRL).toNat)
  let b := b.wr Reg.RST_STATUS rst
  if por then (pinsTo b ((List.range 4).map Pin.pwrEn) false).setFld Reg.PWR_STATUS 19 16 0
  else
    let b := b.setFld Reg.PWR_STATUS 19 16 pins
    ((b.setFld Reg.OPT_STATUS 7 4 (bits opt 7 4)).setFld Reg.OPT_STATUS 1 1 (bits opt 1 1)).wrN Reg.OPT_RESTARTS n

/-- A reset is asserted and not yet released. -/
def inReset (b : Blk) : Bool := b.pwr.stage = .inReset || b.pwr.stage = .released

/-- The reset with the sources `srcs` asserts (R364). -/
def resetAssert (b : Blk) (srcs : List Nat) (full : Bool) : Blk :=
  let hold := !full && !b.pwr.lcChange && !isDormant b && b.flag Reg.DRV_HOLD_CTRL 0 && domOn b 8
  let b := if isDormant b then pinsTo ((b.setFld Reg.PWR_STATUS 21 20 0)) [.dormantOut] false else b
  let b := domainsDown (loadCut b) hold
  let b := if full then aonDown b (srcs.elem 0) else b
  let b := if full then { b with wiping := b.wiping.filter (fun x => x != SramArray.retained) ++ [.retained] } else b
  b.setPwr { b.pwr with
    stage := .inReset, srcs, full, since := b.now, srcAt := b.now, s1Due := b.pwr.s1Due || full || b.pwr.lcChange
    pllTries := 0, held := none, exitRst := false }

/-- A source is recognised (R362, R363): it raises a reset, joins the sources of the reset's RCLK cycle, or extends the reset in progress,
which becomes full where the source is. In Dormant, only a full source acts; RST_N is dealt with by `rstNLow`. -/
def resetRaise (code : Nat) (b : Blk) : Blk :=
  let full := decide (code ≤ 2)
  let p := b.pwr
  if !inReset b then
    if isDormant b && !full then b else resetAssert b [code] full
  else if full && !p.full then resetAssert b (p.srcs ++ [code]) true
  else
    let same := b.now / 20 == p.srcAt / 20
    let b := if code = 0 && !p.srcs.elem 0 then aonDown b true else b
    b.setPwr { p with stage := .inReset, srcs := if same && !p.srcs.elem code then p.srcs ++ [code] else p.srcs, since := b.now }

/-- LAST and MASK of RST_CAUSE (R363). -/
def resetCause (srcs : List Nat) : Nat :=
  let fulls := srcs.filter (fun c => decide (c ≤ 2))
  let last (l : List Nat) : Nat := l.foldl min 0x0F
  (if srcs.isEmpty then 0x10 else if fulls.isEmpty then last srcs else last fulls)
    + 2 ^ 16 * ((List.range 12).map (fun c => if srcs.elem c then 2 ^ c else 0)).sum

/-- S2 begins: VALID clears; a load that begins with CONSEC at 8 takes safe defaults at once (R374). -/
def optionLoadStart (b : Blk) : Blk :=
  let b := b.setFlag Reg.OPT_STATUS 0 false
  if b.fld Reg.OPT_STATUS 7 4 = 8 then
    let b := (b.wrN Reg.OPT_PCI_IDS 0x77401E7C).zero [Reg.OPT_TRUNK_DEF, Reg.OPT_FLAGS]
    let b := ((b.setFld Reg.OPT_STATUS 7 0 1).irq Reg.OPT_STATUS 1).irq Reg.RST_INT_STATUS 1
    (b.wrN Reg.HST_IDS 0x77401E7C).setPwr { b.pwr with stage := .s3 }
  else b.setPwr { b.pwr with stage := .s2 }

/-- RST_CAUSE is loaded and Cast-on starts (R363, R364, R371, R408). -/
def castOnStart (b : Blk) : Blk :=
  let p := b.pwr
  let cause := resetCause p.srcs
  let b := b.wrN Reg.RST_CAUSE cause
  let b := if p.full then b else lifeAdd b (Reg.LOG_RESET_c (bits cause 7 0)) 1
  let b := b.setPwr { p with srcs := [], full := false, pllTries := 0 }
  if p.s1Due then b.setPwr { b.pwr with stage := .s1 } else optionLoadStart b

/-- A reset is released, its conditions over, and the straps are sampled (R364, R365, R371): not while RST_N is low or a thermal
shutdown lasts; a warm one after its 16 RCLK cycles, a full one only once S0 is over with every rail valid. -/
def resetRelease (mode : Nat) (hostSel side : Bool) (b : Blk) : Blk :=
  if !inReset b || b.pwr.rstLow || b.pwr.thermal then b
  else if (if b.pwr.full then b.pwr.stage != .released || b.pwr.rails != 0x3FF else decide (b.now < b.pwr.since + 320)) then b
  else castOnStart (strapsShow (b.setPwr { b.pwr with bootMode := mode, hostSel := hostSel, pairSide := side }))

/-- RESET_RELEASE (R364). -/
def execResetRelease (bootMode : Fin 8) (hostSel pairSide : Bool) (s : State) : Result :=
  onBlk (resetRelease bootMode hostSel pairSide) s

/-- SW_RESET (R362): without its key it is a bad kick. -/
def swReset (v : Nat) (b : Blk) : Blk :=
  if !bit v 0 then b else if bits v 31 16 = 0x7740 then resetRaise 7 b else b.count Reg.RST_WDT_BADKICK

/-- SW_RESET (R362). -/
def execSwReset (value : Word) (s : State) : Result := onBlk (swReset value.toNat) s

/-- DEBUG_RESET (R362): without effect while the port is locked (R405). -/
def execDebugReset (s : State) : Result := onBlk (fun b => if debugOpen b then resetRaise 11 b else b) s

/-- The delay of an accepted RESET with SCOPE 0 is over: it raises COMMAND (R362). -/
def commandReset (b : Blk) : Blk := if b.firm.later.any (fun x => x.2 == .reset) then resetRaise 8 b else b

/-- COMMAND_RESET (R362). -/
def execCommandReset (s : State) : Result := onBlk commandReset s

/-! ### Rails and PWR_EN (R360, R361, R378) -/

/-- The rails that PWR_EN k switches (Table 14-1). -/
def pinRails (k : Nat) : List Nat := [[4], [5], [6, 7], [8, 9]].getD k []

/-- The rails that must be valid before PWR_EN k rises, beside those of the pins before it (R361). -/
def railsBefore (k : Nat) : List Nat := if k = 0 then [0, 1, 2, 3] else pinRails (k - 1)

/-- PWR_EN k rises where its turn has come. -/
def pwrEnRise (b : Blk) (k : Nat) : Blk :=
  if !b.flag Reg.PWR_STATUS (16 + k) && (List.range k).all (fun j => b.flag Reg.PWR_STATUS (16 + j))
      && (railsBefore k).all (fun r => bit b.pwr.rails r) then
    ((pinsTo b [.pwrEn k] true).setFlag Reg.PWR_STATUS (16 + k) true).setPwr { b.pwr with pinAt := Tab.upd 0 b.pwr.pinAt k b.now }
  else b

/-- The last rail is valid at a Dormant exit: DORMANT_OUT falls and Cast-on starts, after RST_N once it is high (R378). -/
def dormantLeft (b : Blk) : Blk :=
  let b := pinsTo (b.setFld Reg.PWR_STATUS 9 0 (b.fld Reg.PWR_DOMAIN 9 0)) [.dormantOut] false
  let b := b.setPwr { b.pwr with srcs := if b.pwr.exitRst then [3] else [], full := false, exitTries := 0, exitRst := false, since := b.now }
  if b.pwr.rstLow then b.setPwr { b.pwr with stage := .inReset } else castOnStart b

/-- PWR_EN rises in sequence as the rails allow, outside Dormant and at its exit. -/
def pwrSequence (b : Blk) : Blk :=
  let st := b.pwr.stage
  if st = .entry || st = .dormant || st = .retry then b
  else
    let b := [0, 1, 2, 3].foldl pwrEnRise b
    if st = .exit && b.fld Reg.PWR_STATUS 19 16 = 15 && b.pwr.rails = 0x3FF then dormantLeft b else b

/-- A monitor's finding of rail `r`, which PWR_RAIL shows. -/
def railShow (b : Blk) (r : Nat) (ok : Bool) : Blk :=
  (b.setPwr { b.pwr with rails := putBits b.pwr.rails r r (b2n ok) }).setFlag Reg.PWR_RAIL r ok

/-- A rail becomes valid: a dip below its threshold is over, and counts now that its deepest bin is known (R408; log entry 39). -/
def railValid (r : Nat) (b : Blk) : Blk :=
  let b := if bit b.pwr.dipped r then lifeAdd (b.setPwr { b.pwr with dipped := putBits b.pwr.dipped r r 0 }) (Reg.LOG_RAILr_b r 3) 1 else b
  pwrSequence (railShow b r true)

/-- RAIL_VALID (R361). -/
def execRailValid (rail : Fin 10) (s : State) : Result := onBlk (railValid rail) s

/-- A rail is below its threshold for 1 µs (R360): POR or BOR, but for a rail that the device has switched off in Dormant. The dip counts
when the rail is valid again. -/
def railFail (r : Nat) (b : Blk) : Blk :=
  let b := railShow b r false
  let off := isDormant b && [0, 1, 2, 3].any (fun k => (pinRails k).elem r && !b.flag Reg.PWR_STATUS (16 + k))
  if off then b
  else pwrSequence (resetRaise (if r = 0 then 0 else 1) (b.setPwr { b.pwr with dipped := putBits b.pwr.dipped r r 1 }))

/-- RAIL_FAIL (R360). -/
def execRailFail (rail : Fin 10) (s : State) : Result := onBlk (railFail rail) s

/-- EN_TIMEOUT is over since the pin that switches rail `r` rose (R361). -/
def railLate (b : Blk) (r : Nat) : Bool :=
  [0, 1, 2, 3].any (fun k => (pinRails k).elem r && b.flag Reg.PWR_STATUS (16 + k)
    && decide (Tab.at 0 b.pwr.pinAt k + msClocks * limit 1 100 (b.fld Reg.PWR_SEQ 31 16) ≤ b.now))

/-- A rail is not valid within EN_TIMEOUT (R361, R378): RAIL_FAULT; at a Dormant exit every PWR_EN falls again and the exit is tried
again after 100 ms, three times. -/
def railTimeout (r : Nat) (b : Blk) : Blk :=
  if bit b.pwr.rails r || !railLate b r then b
  else
    let b := b.irq Reg.RST_INT_STATUS 3
    if b.pwr.stage != .exit then b
    else
      let b := (pinsTo b ((List.range 4).map Pin.pwrEn) false).setFld Reg.PWR_STATUS 19 16 0
      let n := b.pwr.exitTries
      if n < 3 then b.setPwr { b.pwr with stage := .retry, exitTries := n + 1, failAt := b.now }
      else b.setPwr { b.pwr with stage := .dormant, exitTries := 0, exitRst := false }

/-- RAIL_TIMEOUT (R361). -/
def execRailTimeout (rail : Fin 10) (s : State) : Result := onBlk (railTimeout rail) s

/-! ### Dormant (R281, R377, R378) -/

/-- ENTER_DORMANT: refused without a wake event enabled; otherwise every domain but AON enters reset, a DRIVE hold ends, the wake
detector starts and DORMANT_OUT rises; PWR_EN falls step by step (R377). -/
def dormantEntry (b : Blk) : Blk :=
  if isDormant b then b
  else if !b.flag Reg.PWR_WAKE_CTRL 0 && !b.flag Reg.PWR_WAKE_CTRL 4 then b.irq Reg.RST_INT_STATUS 4
  else
    let port := b.fld Reg.PWR_WAKE_CTRL 2 1
    -- the wake port turns to 1000BASE-X: its link stays where it ran so before (R281)
    let b := b.setFlag Reg.PWR_WAKE_STATUS 0 (domOn b 3 && b.flag Reg.TRK_STATUS port && b.fld (Reg.TRK_Pp_CTRL port) 2 0 == 3)
    let b := domainsDown b false
    let b := pinsTo ((b.emit (.trunkIdle port false)).setFlag Reg.PWR_STATUS 20 true) [.dormantOut] true
    b.setPwr { b.pwr with stage := .entry, held := none, exitTries := 0, exitRst := false, stepAt := b.now }

/-- DORMANT_ENTRY (R377). -/
def execDormantEntry (s : State) : Result := onBlk dormantEntry s

/-- STEP_US is over since DORMANT_OUT rose or the last PWR_EN fell (R377). -/
def stepDue (b : Blk) : Bool := decide (b.pwr.stepAt + 1000 * limit 10 10000 (b.fld Reg.PWR_SEQ 15 0) ≤ b.now)

/-- The next PWR_EN falls, PWR_EN3 first; with PWR_EN0 the entry is complete and every switched domain is off (R377). -/
def dormantEnStep (b : Blk) : Blk :=
  if b.pwr.stage != .entry || !stepDue b then b
  else
    let b := b.setPwr { b.pwr with stepAt := b.now }
    let down (b : Blk) (k : Nat) : Blk := (pinsTo b [.pwrEn k] false).setFlag Reg.PWR_STATUS (16 + k) false
    if b.flag Reg.PWR_STATUS 19 then down b 3
    else if b.flag Reg.PWR_STATUS 18 then down b 2
    else if b.flag Reg.PWR_STATUS 17 then down b 1
    else
      let b := ((down b 0).setFld Reg.PWR_STATUS 9 1 0).setFlag Reg.PWR_STATUS 20 false
      b.setPwr { b.pwr with stage := .dormant }

/-- DORMANT_EN_STEP (R377). -/
def execDormantEnStep (s : State) : Result := onBlk dormantEnStep s

/-- The exit begins: PWR_EN rises in sequence (R378). -/
def exitStart (b : Blk) (rst : Bool) : Blk :=
  let b := b.setFlag Reg.PWR_STATUS 21 false
  pwrSequence (b.setPwr { b.pwr with stage := .exit, held := none, exitTries := 0, exitRst := rst })

/-- A wake event: held during entry, acting in Dormant (R377, R378); RST_N stays the cause once it is one. -/
def wakeEvent (b : Blk) (rst : Bool) : Blk :=
  match b.pwr.stage with
  | .entry => (b.setFlag Reg.PWR_STATUS 21 true).setPwr { b.pwr with held := some (rst || b.pwr.held == some true) }
  | .dormant => exitStart b (rst || b.pwr.held == some true)
  | .exit => b.setPwr { b.pwr with exitRst := b.pwr.exitRst || rst }
  | .retry => b.setPwr { b.pwr with exitRst := b.pwr.exitRst || rst }
  | _ => b

/-- WAKE_N is low: PIN_EN set, it wakes (R281, R378). -/
def wakePin (b : Blk) : Blk :=
  if isDormant b && b.flag Reg.PWR_WAKE_CTRL 4 then wakeEvent (b.irq Reg.PWR_WAKE_STATUS 9) false else b

/-- WAKE_PIN (R378). -/
def execWakePin (s : State) : Result := onBlk wakePin s

/-- The 16 bytes of a frame that the wake detector looks at (R281): none where the frame does not carry the subtype. -/
def wakeBytes (f : List Byte) : Option (List Byte) :=
  let e := ethOf f
  if e.etype = 0x88B5 && beAt f e.off 1 == 2 then some (slice f (e.off + 2) 16)
  else match udpOf f with
    | some u => if u.dport = 47743 && beAt u.payload 0 2 == 0x0201 then some (slice u.payload 2 16) else none
    | none => none

/-- The pattern of Table 10-11. -/
def wakeMatch (b : Blk) (p : List Byte) : Bool :=
  let dev := leAt p 4 2
  p.length == 16 && p.take 4 == [0x57#8, 0xA4#8, 0x77#8, 0x40#8] && bits dev 14 12 == 0
    && (bit dev 15 || bits dev 11 0 == b.fld Reg.PWR_WAKE_ID 11 0)
    && leAt p 6 2 &&& b.fld Reg.PWR_WAKE_ID 31 16 != 0
    && leAt p 8 8 == b.rd64 Reg.PWR_WAKE_CODE_LO Reg.PWR_WAKE_CODE_HI

/-- The wake detector takes a frame with a good FCS (R281). -/
def wakeFrameRx (f : List Byte) (b : Blk) : Blk :=
  let body := f.take (f.length - 4)
  if !isDormant b || !b.flag Reg.PWR_WAKE_CTRL 0 || f.length < 64 || f.drop (f.length - 4) != fcsOf body then b
  else match wakeBytes body with
    | none => b
    | some p => if wakeMatch b p then wakeEvent (b.irq Reg.PWR_WAKE_STATUS 8) false else b.count Reg.PWR_WAKE_SEEN

/-- WAKE_FRAME_RX (R281). -/
def execWakeFrameRx (frame : List Byte) (s : State) : Result := onBlk (wakeFrameRx frame) s

/-- The exit for a held wake event, 1 ms after PWR_EN0 has fallen (R377). -/
def wakeHeldExit (b : Blk) : Blk :=
  match b.pwr.held with
  | some rst => if b.pwr.stage = .dormant && decide (b.pwr.stepAt + msClocks ≤ b.now) then exitStart b rst else b
  | none => b

/-- WAKE_HELD_EXIT (R377). -/
def execWakeHeldExit (s : State) : Result := onBlk wakeHeldExit s

/-- After 100 ms a failed exit is tried again (R378). -/
def dormantExitRetry (b : Blk) : Blk :=
  if b.pwr.stage = .retry && decide (b.pwr.failAt + 100 * msClocks ≤ b.now) then pwrSequence (b.setPwr { b.pwr with stage := .exit }) else b

/-- DORMANT_EXIT_RETRY (R378). -/
def execDormantExitRetry (s : State) : Result := onBlk dormantExitRetry s

/-- RST_N has been low through its filter (R365): it wakes a Dormant device, and resets any other. -/
def rstNLow (b : Blk) : Blk :=
  let b := b.setPwr { b.pwr with rstLow := true }
  if isDormant b then wakeEvent b true else resetRaise 3 b

/-- RST_N_LOW (R365). -/
def execRstNLow (s : State) : Result := onBlk rstNLow s

/-- RST_N_HIGH (R365): the reset may be released. -/
def execRstNHigh (s : State) : Result := onBlk (fun b => b.setPwr { b.pwr with rstLow := false }) s

/-! ### Watchdogs (R368) -/

/-- Control and REMAIN of watchdog `w`, and its lowest TIMEOUT. -/
def wdtRegs (w : Nat) : Nat × Nat × Nat :=
  if w < 2 then (Reg.RST_WDTc_CTRL w, Reg.RST_WDTc_REMAIN w, 1) else (Reg.RST_WDTHW_CTRL, Reg.RST_WDTHW_REMAIN, 10)

/-- Watchdog `w` starts over. -/
def wdtRestart (b : Blk) (w : Nat) : Blk :=
  let r := wdtRegs w
  if b.flag r.1 0 then b.wrN r.2.1 (max r.2.2 (b.fld r.1 31 8)) else b

/-- The control register of watchdog `w` has been written over `old`: EN stays set once it is, and starts the count. -/
def wdtCtrlWritten (b : Blk) (w old : Nat) : Blk :=
  let r := wdtRegs w
  if bit old 0 then b.setFlag r.1 0 true else wdtRestart b w

/-- A kick; in the cycle of expiry it is too late, and a locked debug port has none (R405). -/
def wdtKick (w : Nat) (who : Requester) (v : Nat) (b : Blk) : Blk :=
  let core := who = .cc0 || who = .cc1
  let own := if w = 0 then who == .cc0 else if w = 1 then who == .cc1 else core
  if shutOut b who then b
  else if v != 0x7740 || !own then b.count Reg.RST_WDT_BADKICK
  else if b.flag (wdtRegs w).1 0 && b.rdN (wdtRegs w).2.1 == 0 then b
  else if w < 2 then wdtRestart b w
  else if b.flag Reg.RST_WDTHW_CTRL 1 && b.pwr.kicker == some who then b
  else wdtRestart (b.setPwr { b.pwr with kicker := some who }) 2

/-- WDT_KICK (R368). -/
def execWdtKick (w : Fin 3) (who : Requester) (value : Word) (s : State) : Result := onBlk (wdtKick w who value.toNat) s

/-- A watchdog has reached zero; one that is not enabled does not count. -/
def wdtExpiry (w : Nat) (b : Blk) : Blk :=
  let r := wdtRegs w
  if b.flag r.1 0 && b.rdN r.2.1 == 0 then resetRaise (4 + w) b else b

/-- WATCHDOG_EXPIRY (R368). -/
def execWatchdogExpiry (w : Fin 3) (s : State) : Result := onBlk (wdtExpiry w) s

/-! ### The reset frame and the junction sensor (R369, R370) -/

/-- A reset frame is rejected. -/
def resetFrameBad (b : Blk) (reason : Nat) : Blk :=
  ((b.count Reg.RST_RFRAME_REJECT).wrN Reg.RST_RFRAME_LASTREJ reason).irq Reg.RST_INT_STATUS 0

/-- The reset recogniser checks frame `f`, which arrived with a good FCS at `t`: at most one per 2 µs, and the reasons in the order of
R369. -/
def resetFrameJudge (b : Blk) (t : Nat) (f : List Byte) : Blk :=
  let p := slice f (ethOf f).off 32
  if t < b.pwr.frameBusy then resetFrameBad b 5
  else
    let b := b.setPwr { b.pwr with frameBusy := t + 2000 }
    let tag (k : BitVec 128) : Bool := toBE 16 (Config.cmac k (p.take 16)).toNat == slice p 16 16
    if beAt p 1 1 != 1 || beAt p 4 1 != 0 then resetFrameBad b 2
    else if leAt p 2 2 != b.rdN Reg.RST_RFRAME_ID then resetFrameBad b 1
    else if leAt p 8 8 ≤ b.rd64 Reg.RST_RFRAME_COUNT_LO Reg.RST_RFRAME_COUNT_HI then resetFrameBad b 3
    else match Tab.at none b.keys (b.fld Reg.RST_RFRAME_CTRL 3 1) with
      | none => resetFrameBad b 4
      | some k =>
        if tag k then
          resetRaise 9 ((b.wr64 Reg.RST_RFRAME_COUNT_LO Reg.RST_RFRAME_COUNT_HI (leAt p 8 8)).count Reg.RST_RFRAME_ACCEPT)
        else resetFrameBad b 4

/-- The reset recogniser takes the oldest copy that the trunk has given it, while it is enabled (R369). -/
def resetFrameCheck (b : Blk) : Blk :=
  match inboxTake b 4 with
  | some (x, b) => if b.flag Reg.RST_RFRAME_CTRL 0 then resetFrameJudge b x.2.1 x.2.2 else b
  | none => b

/-- RESET_FRAME_CHECK (R369). -/
def execResetFrameCheck (s : State) : Result := inDom 3 (onBlk resetFrameCheck) s

/-- Firmware gives RST_RFRAME_COUNT back what the settings area holds of it, after a full reset, and saves what an accepted frame has made of
it (R369). -/
def rframeBack (b : Blk) : Blk :=
  let n := max (b.rd64 Reg.RST_RFRAME_COUNT_LO Reg.RST_RFRAME_COUNT_HI) b.pwr.rframeSaved
  (b.wr64 Reg.RST_RFRAME_COUNT_LO Reg.RST_RFRAME_COUNT_HI n).setPwr { b.pwr with rframeSaved := n }

/-- Dips of rails that stayed above the monitor's threshold, each in its deepest bin (R408). -/
def railDips (dips : List (Nat × Nat)) (b : Blk) : Blk := dips.foldl (fun b d => lifeAdd b (Reg.LOG_RAILr_b d.1 d.2) 1) b

/-- The junction sensor is read (R370): THERMAL at 135 °C, held with every switched domain off until 115 °C, from where PWR_EN
rises where Dormant had it low. The dips since the reading
before are counted (log entry 39). -/
def tjReading (raw : Nat) (dips : List (Nat × Nat)) (b : Blk) : Blk :=
  let t := sx 16 raw
  let b := railDips dips b
  let b := b.wrN Reg.PWR_TJ (2 ^ 16 + raw)
  let b := b.setPwr { b.pwr with tjMax := some (match b.pwr.tjMax with | some m => max m t | none => t) }
  let b := if sx 16 (b.fld Reg.PWR_TJ_WARN 15 0) ≤ t then b.irq Reg.RST_INT_STATUS 2 else b
  if b.pwr.thermal then
    if t ≤ 1840 then pwrSequence (pinsTo (b.setPwr { b.pwr with thermal := false }) [.thermShutN] true) else b
  else if 2160 ≤ t then
    let b := resetRaise 2 (pinsTo (b.setPwr { b.pwr with thermal := true }) [.thermShutN] false)
    b.setFld Reg.PWR_STATUS 9 1 0
  else b

/-- TJ_READING (R370). -/
def execTjReading (reading : BitVec 16) (dips : List (Fin 10 × Fin 3)) (s : State) : Result :=
  onBlk (tjReading reading.toNat (dips.map (fun d => (d.1.val, d.2.val)))) s

/-! ### Domains (R29, R367, R376) -/

/-- The array of domain `d`. -/
def domArray (d : Nat) : Option SramArray := if d = 3 then some .switchBuffer else if d = 4 then some .canvasStore else none

/-- Domain `d` is in reset until its array is wiped, or for 16 RCLK cycles (R29, R364, R367). -/
def domHold (b : Blk) (d : Nat) : Blk :=
  let b := b.setFlag Reg.RST_STATUS d true
  match domArray d with
  | some a => ({ b with wiping := b.wiping.filter (fun x => x != a) ++ [a] }).setFlag Reg.RST_STATUS 18 true
  | none => b.setPwr { b.pwr with holding := b.pwr.holding.filter (fun h => h.1 != d) ++ [(d, b.now + 320)] }

/-- A write of RST_DOMAIN: each domain named, but for AON and CORE and those that are off, is reset (R367). -/
def domainReset (v : Nat) (b : Blk) : Blk :=
  [2, 3, 4, 5, 6, 7, 8, 9].foldl (fun b d => if bit v d && b.flag Reg.PWR_STATUS d then domHold (domReset b d) d else b) b

/-- DOMAIN_RESET (R367). -/
def execDomainReset (value : Word) (s : State) : Result := onBlk (domainReset value.toNat) s

/-- PERST_N low resets HOST and holds it (R367, R373). -/
def perstN (b : Blk) : Blk :=
  (domReset b 9).setFlag Reg.RST_STATUS 9 true |>.setPwr { b.pwr with perstLow := true, holding := b.pwr.holding.filter (fun h => h.1 != 9) }

/-- PERST_N (R367). -/
def execPerstN (s : State) : Result := onBlk perstN s

/-- PERST_N rises: HOST leaves reset, once the Cast-on wipe is over (R371, R373). -/
def perstNRelease (b : Blk) : Blk :=
  let up := match b.pwr.stage with
    | .s5 => true
    | .recovery => true
    | .s6 => true
    | .configured => true
    | _ => false
  let b := b.setPwr { b.pwr with perstLow := false }
  if up then hostPads (b.setFlag Reg.RST_STATUS 9 false) else b

/-- PERST_N_RELEASE (R373). -/
def execPerstNRelease (s : State) : Result := onBlk perstNRelease s

/-- The image in program buffer `p` contains SAMPLE: its FLAGS say so, as its check has made sure (R121). -/
def progSamples (m : Mem) (p : Nat) : Bool := Mem.le m (progBase p + 22) 2 == 1

/-- A program that samples is in effect, draining or staged. -/
def samplesLoaded (m : Mem) (b : Blk) : Bool :=
  let buf := b.fld Reg.STC_PROG_STATUS 0 0
  (b.stc.loaded && progSamples m buf) || (b.flag Reg.STC_PROG_STATUS 3 && progSamples m (1 - buf))
    || (b.flag Reg.STC_PROG_STATUS 1 && progSamples m b.stc.stagedBuf)

/-- The domains `w` may be on together (R29, Table 1-14). -/
def domainsFit (m : Mem) (b : Blk) (w : Nat) : Bool :=
  bit w 0 && bit w 1 && (bit w 2 || !(bit w 5 || bit w 6 || bit w 7 || bit w 8)) && (bit w 4 || !(bit w 5 && samplesLoaded m b))

/-- A write of PWR_DOMAIN (R29): a domain switched off is reset, any drive hold with it; one switched on is wiped first. -/
def pwrDomainWrite (v : Nat) (m : Mem) (b : Blk) : Blk :=
  let w := v % 1024
  if !domainsFit m b w then b.irq Reg.RST_INT_STATUS 5
  else
    let b := b.wrN Reg.PWR_DOMAIN w
    [2, 3, 4, 5, 6, 7, 8, 9].foldl (fun b d =>
      if b.flag Reg.PWR_STATUS d && !bit w d then
        let b := (domReset b d).setFlag Reg.PWR_STATUS d false
        let b := b.setPwr { b.pwr with holding := b.pwr.holding.filter (fun h => h.1 != d) }
        b.setFlag Reg.RST_STATUS d false
      else if !b.flag Reg.PWR_STATUS d && bit w d then domHold (b.setFlag Reg.PWR_STATUS d true) d
      else b) b

/-- PWR_DOMAIN_WRITE (R29). -/
def execPwrDomainWrite (value : Word) (s : State) : Result := onView (pwrDomainWrite value.toNat) s

/-- BKP_CTRL.WIPE, which only CC0 may write, starts the wipe of retained memory and backup registers (R376). -/
def bkpWipe (who : Requester) (b : Blk) : Blk :=
  if who = .cc0 then
    ({ b with wiping := b.wiping.filter (fun x => x != SramArray.retained) ++ [SramArray.retained] }).setFlag Reg.RST_STATUS 18 true
  else b

/-- BKP_WIPE (R376). -/
def execBkpWipe (who : Requester) (s : State) : Result := onBlk (bkpWipe who) s

/-- The addresses of an array; the switch buffer has none (R15, R17, R376). -/
def arrayRange (a : SramArray) : List (Nat × Nat) :=
  match a with
  | .canvasStore => [(0x20000000, 0x23000000)]
  | .pool => [(0x10000000, 0x11000000)]
  | .firmwareSram => [(0x08000000, 0x08800000)]
  | .switchBuffer => []
  | .retained => [(0x50000000, 0x50004040)]

/-- What firmware keeps in retained memory is gone with it (R309, R311, R376). -/
def retainedGone (b : Blk) : Blk := { b with nonces := [], firm := { b.firm with replay := [], wiped := true } }

/-- What a wipe of retained memory has taken comes back from the settings area: the counters at the saved values plus 65,536, which crosses
a multiple of 65,536 and so is saved too (R309), and the replay table (R311). -/
def retainedBack (b : Blk) : Blk :=
  if b.firm.wiped then
    let resumed := (List.range 8).foldl (fun t i => Tab.upd 0 t i ((Tab.at 0 b.noncesSaved i + 65536) % 2 ^ 64)) []
    { b with
      nonces := resumed
      noncesSaved := resumed
      firm := { b.firm with replay := b.firm.replaySaved, wiped := false } }
  else b

/-- The wipe of an array is no longer running. -/
def wipeEnd (b : Blk) (a : SramArray) : Blk :=
  let b := { b with wiping := b.wiping.filter (fun x => x != a) }
  let b := if a = .retained then (if fwRuns b then retainedBack (retainedGone b) else retainedGone b) else b
  b.setFlag Reg.RST_STATUS 18 (!b.wiping.isEmpty)

/-! ### Cast-on (R371 to R375) -/

/-- The switch starts from its reset values and OPT_TRUNK_DEF (R279); a word that names one port twice loads with both rings
disabled. -/
def trkRestart (b : Blk) : Blk :=
  let w := b.rdN Reg.OPT_TRUNK_DEF
  let b := (List.range 4).foldl (fun b p => b.setFld (Reg.TRK_Pp_CTRL p) 2 0 (bits w (3 * p + 2) (3 * p))) b
  let b := [0, 1].foldl (fun b i =>
    let o := 12 + 6 * i
    let old := b.rdN (Reg.TRK_RINGi_CTRL i)
    let new := bits w o o + 2 * bits w (o + 1) (o + 1) + 4 * bits w (o + 3) (o + 2) + 16 * bits w (o + 5) (o + 4)
      + 256 * bits w (27 + 4 * i) (24 + 4 * i)
    ringCtrlWritten (b.setFld (Reg.TRK_RINGi_CTRL i) 11 0 new) i old) b
  trkSync (trkCells b)

/-- OPT_TRUNK_DEF as it loads. -/
def trunkDefLoaded (w : Nat) : Nat :=
  let ports (i : Nat) : List Nat :=
    if bit w (12 + 6 * i) then [bits w (15 + 6 * i) (14 + 6 * i), bits w (17 + 6 * i) (16 + 6 * i)] else []
  if (ports 0 ++ ports 1).Nodup then w else putBits (putBits w 12 12 0) 18 18 0

/-- TRUNK leaves reset with its buffer wiped. -/
def trunkUp (b : Blk) : Blk :=
  if b.flag Reg.PWR_DOMAIN 3 then
    (List.range 4).foldl portPads (trkRestart ((b.setFlag Reg.PWR_STATUS 3 true).setFlag Reg.RST_STATUS 3 false))
  else b

/-- The wipe of array `a` can run: a reset that interrupts it makes it start anew at its release, the switch buffer's in S3 and those of the
other arrays of SRAM in S4 (R371, R375). -/
def wipeRuns (b : Blk) (a : SramArray) : Bool :=
  match b.pwr.stage with
  | .inReset => false
  | .released => false
  | .s1 => a == .retained
  | .s2 => a == .retained
  | .s3 => a == .retained || a == .switchBuffer
  | .pllFail => a == .retained
  | .entry => a == .retained
  | .dormant => a == .retained
  | .exit => a == .retained
  | .retry => a == .retained
  | _ => true

/-- The wipe of an array completes: it reads zero and is reachable, and the domain reset that waited for it ends (R29, R367, R375,
R376). -/
def memoryWipeDone (a : SramArray) (_ : Mem) (b : Blk) : Blk × List (Nat × Nat) :=
  if !b.wiping.elem a || !wipeRuns b a then (b, [])
  else
    let b := wipeEnd b a
    let coreUp := !b.flag Reg.RST_STATUS 1
    let b := if a = .canvasStore && coreUp then b.setFlag Reg.RST_STATUS 4 false
      else if a = .switchBuffer && coreUp then trunkUp b else b
    (b, arrayRange a)

/-- MEMORY_WIPE_DONE (R375). -/
def execMemoryWipeDone (array : SramArray) (s : State) : Result := onWipe (memoryWipeDone array) s

/-- S0 ends (R371): supplies valid, RST_N high, and the crystal good. -/
def castOnS0Done (b : Blk) : Blk :=
  if b.pwr.stage = .inReset && !b.pwr.rstLow then (b.setPwr { b.pwr with stage := .released }).wrN Reg.PWR_RAIL b.pwr.rails else b

/-- CAST_ON_S0_DONE (R371). -/
def execCastOnS0Done (s : State) : Result := onBlk castOnS0Done s

/-- S1 ends: the life cycle is sensed from its fuses, retained memory and backup registers are wiped (R371, R376, R402). -/
def castOnS1Done (_ : Mem) (b : Blk) : Blk × List (Nat × Nat) :=
  if b.pwr.stage != .s1 then (b, [])
  else
    let b := strapsShow (b.setPwr { b.pwr with lifeCycle := b.otp.lifeCycle, lcChange := false, s1Due := false })
    (optionLoadStart (wipeEnd b .retained), arrayRange .retained)

/-- CAST_ON_S1_DONE (R371). -/
def execCastOnS1Done (s : State) : Result := onWipe castOnS1Done s

/-- An option word as it loads: an uncorrectable one is taken as unprogrammed (R374). -/
def optionWord (w : Nat) (found : EccResult) : Nat := if found = .uncorrectable then 0 else w

/-- The option load completes in the last cycle of S2 (R3, R374, R400, R407). The spec gives the PCI-ID option word no layout: the model
takes the Vendor ID in [15:0] and the Device ID in [31:16], and a half of 0 as no override of that ID (DESIGN CHOICE, log entry 42). -/
def optionLoadDone (pci trunk flags ip : EccResult) (b : Blk) : Blk :=
  if b.pwr.stage != .s2 then b
  else
    let ids := optionWord b.otp.pciIds pci
    let ids := (if bits ids 15 0 = 0 then 0x1E7C else bits ids 15 0) + 2 ^ 16 * (if bits ids 31 16 = 0 then 0x7740 else bits ids 31 16)
    let b := ((b.wrN Reg.OPT_PCI_IDS ids).wrN Reg.HST_IDS ids).wrN Reg.OPT_TRUNK_DEF (trunkDefLoaded (optionWord b.otp.trunkDef trunk))
    let b := (b.wrN Reg.OPT_FLAGS (optionWord b.otp.flags flags % 2)).wrN Reg.FWU_REC_IP (optionWord b.otp.recIp ip)
    let b := (List.range 8).foldl (fun b i => b.wrN (Reg.FWU_CART_x i) (cartWord i)) b
    let b := b.setFlag Reg.FWU_STATUS 6 (crc32 (slice cartouche 0 28) == cartWord 7)
    let any (e : EccResult) : Bool := [pci, trunk, flags, ip].elem e
    let b := b.setFld Reg.OPT_STATUS 7 0 (1 + 4 * b2n (any .corrected) + 8 * b2n (any .uncorrectable))
    b.setPwr { b.pwr with stage := .s3 }

/-- OPTION_LOAD_DONE (R374). -/
def execOptionLoadDone (pciIds trunkDef flags recIp : EccResult) (s : State) : Result :=
  onBlk (optionLoadDone pciIds trunkDef flags recIp) s

/-- S3 ends: the fabric PLL is locked, the switch buffer wiped, and the trunk bridges (R279, R371). -/
def pllLock (refclk : Bool) (b : Blk) : Blk :=
  if b.pwr.stage != .s3 then b
  else
    let b := (b.setFlag Reg.RST_STATUS 17 (!refclk)).setFlag Reg.PWR_STATUS 1 true
    let b := trunkUp (wipeEnd b .switchBuffer)
    b.setPwr { b.pwr with stage := .s4 }

/-- PLL_LOCK (R371). -/
def execPllLock (refclk : Bool) (s : State) : Result := onBlk (pllLock refclk) s

/-- The fabric PLL fails to lock: S3 repeats up to three times, then the device stays in reset with PLL_FAIL (R371). -/
def pllLockFail (b : Blk) : Blk :=
  if b.pwr.stage != .s3 then b
  else if b.pwr.pllTries < 3 then b.setPwr { b.pwr with pllTries := b.pwr.pllTries + 1 }
  else pinsTo ((b.setFlag Reg.RST_STATUS 16 true).setPwr { b.pwr with stage := .pllFail }) [.resetOutN] false

/-- PLL_LOCK_FAIL (R371). -/
def execPllLockFail (s : State) : Result := onBlk pllLockFail s

/-- S4 ends: all memory is wiped, the domains that PWR_DOMAIN asks for are released in their reset state, RESET_OUT_N and FL_RESET_N
rise, and the hardware watchdog starts where the options say so (R366, R368, R371, R373, R375). -/
def castOnS4Done (_ : Mem) (b : Blk) : Blk × List (Nat × Nat) :=
  if b.pwr.stage != .s4 then (b, [])
  else
    let b := { b with wiping := b.wiping.filter (fun x => x == SramArray.retained) }
    let b := (b.setFld Reg.PWR_STATUS 9 0 (b.fld Reg.PWR_DOMAIN 9 0)).setFld Reg.RST_STATUS 9 0 0
    let b := (b.setFlag Reg.RST_STATUS 9 b.pwr.perstLow).setFlag Reg.RST_STATUS 18 (!b.wiping.isEmpty)
    let b := hostPads (pinsTo b [.resetOutN, .flResetN] true)
    let b := if b.flag Reg.OPT_FLAGS 0 then wdtRestart (b.setFlag Reg.RST_WDTHW_CTRL 0 true) 2 else b
    (b.setPwr { b.pwr with stage := .s5 }, [SramArray.canvasStore, .pool, .firmwareSram].flatMap arrayRange)

/-- CAST_ON_S4_DONE (R375). -/
def execCastOnS4Done (s : State) : Result := onWipe castOnS4Done s

/-! ### The partner's reset request (R287, R288) -/

/-- A pair beacon, the oldest that the trunk has given the pair logic, is accepted on the pair link from the partner; with ALLOW_RESET, three in a row that carry RESET_REQ reset the
unit (R288). -/
def pairBeaconTake (p : Nat) (f : List Byte) (b : Blk) : Blk :=
  let e := ethOf f
  let x := f.drop e.off
  if p != pairLink b || leAt x 4 2 != b.rdN Reg.PAIR_PARTNER then b.count Reg.PAIR_BEACON_BAD
  else if pairState b = 0 then b
  else
    let req := bit (leAt x 3 1) 0
    let b := (b.count Reg.PAIR_BEACON_RX).setPair { b.pair with reqRun := if req then b.pair.reqRun + 1 else 0 }
    let tag := leAt x 28 4
    let b := (b.setFld Reg.PAIR_PEER 17 16 (leAt x 2 1 % 4)).wrN Reg.PAIR_PEER_TAG tag
    let b := if tag != b.rdN Reg.PAIR_CONFIG_TAG then b.irq Reg.PAIR_INT_STATUS 7 else b
    let b := pairClaimIn b (leAt x 6 2) false
    if 3 ≤ b.pair.reqRun && b.flag Reg.PAIR_FORCE_CTRL 9 then
      resetRaise 10 (b.setPair { b.pair with reqRun := 0 })
    else b

/-- The pair logic takes the oldest beacon that the trunk has given it (R287, Table 10-5). -/
def pairBeaconRx (b : Blk) : Blk :=
  match inboxTake b 3 with
  | some (x, b) => pairBeaconTake x.1 x.2.2 b
  | none => b

/-- PAIR_BEACON_RX (R287). -/
def execPairBeaconRx (s : State) : Result := inDom 1 (onBlk pairBeaconRx) s

end Sys2Proof.Machine
end

