-- ==== Sys2Proof/Machine/Fwu.lean ====
section
/-!
DEFINITION. Images in flash, handover, keys, tokens and the life cycle: what the FWU block does in hardware, and the commit
(R381 to R385, R391 to R397, R402 to R407, R411).
-/
namespace Sys2Proof.Machine

/-- The block with the FWU state `f`. -/
def Blk.setFwu (b : Blk) (f : Fwu) : Blk := { b with fwu := f }

/-- `k` bytes at address `a` are erased: they read 0xFF. -/
def eraseCells (a k : Nat) : List Host.Cell := cellsAt a (List.replicate k 0xFF#8)

/-! ### Flash and images (R381 to R385) -/

/-- The address of slot `s`. -/
def slotBase (s : Nat) : Nat := 0x60100000 + 0x400000 * s
/-- The address of boot header copy `i`. -/
def hdrBase (i : Nat) : Nat := 0x60000000 + 0x800 * i

/-- Copy `i` of the boot header is valid (R382). -/
def hdrValid (m : Mem) (i : Nat) : Bool :=
  let h := m.bytes (hdrBase i) 64
  leAt h 0 4 == 0xB0077740 && leAt h 4 2 == 1 && crc32 (h.take 60) == leAt h 60 4

/-- GENERATION of copy `i`. -/
def hdrGen (m : Mem) (i : Nat) : Nat := w32 m (hdrBase i + 8)

/-- The copy in use, none where neither is valid (R382). -/
def bootCopy (m : Mem) : Option Nat :=
  match hdrValid m 0, hdrValid m 1 with
  | true, true => some (if hdrGen m 0 < hdrGen m 1 then 1 else 0)
  | true, false => some 0
  | false, true => some 1
  | false, false => none

/-- The preferred slot: A without a valid header. -/
def preferredSlot (m : Mem) : Nat := match bootCopy m with
  | some i => (m.byte (hdrBase i + 6)).toNat % 2
  | none => 0

/-- The boot header is rewritten to prefer slot `s`: in the copy not in use, with a GENERATION one above the other's (R382). -/
def setPreferred (m : Mem) (s : Nat) : List Host.Cell :=
  let use := bootCopy m
  let i := match use with | some u => 1 - u | none => 0
  let gen := match use with | some u => hdrGen m u + 1 | none => 1
  let mode := match use with | some u => (m.byte (hdrBase u + 7)).toNat | none => 2
  let h := toLE 4 0xB0077740 ++ toLE 2 1 ++ toLE 1 s ++ toLE 1 mode ++ toLE 4 gen ++ List.replicate 48 0#8
  cellsAt (hdrBase i) (h ++ toLE 4 (crc32 h) ++ List.replicate (0x800 - 64) 0xFF#8)

/-- Where an image stands: how many bytes there are, and the bytes from an offset on. -/
structure ImageAt where
  size : Nat
  read : Nat → Nat → List Byte

/-- The image in slot `s`. -/
def slotImage (m : Mem) (s : Nat) : ImageAt := { size := 0x400000, read := fun o k => m.bytes (slotBase s + o) k }

/-- A root key that is programmed and not revoked. -/
def rootKeyGood (b : Blk) (k : Nat) : Bool := decide (k < 4) && bit b.otp.rootKeys k && !bit b.otp.revoked k

/-- FORMAT: MAGIC, HDR_VERSION, the reserved fields, LENGTH and ENTRY (Table 15-3). -/
def imageFormat (size : Nat) (h : List Byte) : Bool :=
  let len := leAt h 16 4
  leAt h 0 4 == 0x5A7E7740 && leAt h 4 2 == 1 && leAt h 6 2 == 0 && leAt h 14 2 == 0 && leAt h 32 16 == 0 && leAt h 96 64 == 0
    && len % 4 == 0 && decide (4 ≤ len) && decide (len ≤ 4194048) && decide (256 + len ≤ size) && decide (leAt h 20 4 < len)

/-- The checks of R384 on a header alone: 1, 3, 4 and 5. -/
def headerCheck (b : Blk) (size : Nat) (err : Bool) (h : List Byte) : Nat :=
  let k := leAt h 13 1
  if !imageFormat size h then 1
  else if err then 2
  else if !rootKeyGood b k then 3
  else if !Config.sigOk (Tab.at [] b.otp.rootPub k) (Config.sha384 (h.take 160)) (slice h 160 96) then 4
  else if 64 < leAt h 12 1 || leAt h 12 1 < b.otp.rollback then 5
  else 0

/-- The check code of an image, 0 where it is valid (R384); `err`: reading it meets an error. -/
def imageCheck (b : Blk) (err : Bool) (i : ImageAt) : Nat :=
  let h := i.read 0 256
  let c := headerCheck b i.size err h
  if c != 0 then c
  else if toLE 48 (leAt h 48 48) != toBE 48 (Config.sha384 (i.read 256 (leAt h 16 4))).toNat then 6 else 0

/-- Slot `s` has been read with check code `c`: its header, and its body where the checks come to the hash (R355). -/
def slotSeen (m : Mem) (b : Blk) (s c : Nat) : Blk :=
  let i := slotImage m s
  let b := crcSnoop b 6 0 0 (i.read 0 256)
  if c = 0 || c = 6 then crcSnoop b 6 0 0 (i.read 256 (leAt (i.read 16 4) 0 4)) else b

/-- The header of the image that runs (Table 15-3). -/
def runHead (m : Mem) (b : Blk) : List Byte := b.fwu.direct.getD (m.bytes (slotBase b.fwu.running) 256)

/-- ROLLBACK of a slot's image. -/
def slotRollback (m : Mem) (s : Nat) : Nat := (m.byte (slotBase s + 12)).toNat

/-! ### The copy engine and handover (R391, R393, R394) -/

/-- The base of firmware SRAM half `h`. -/
def halfBase (h : Nat) : Nat := 0x08000000 + 0x400000 * (h % 2)
/-- The half that runs. -/
def runHalf (b : Blk) : Nat := b.fld Reg.FWU_STATUS 0 0

/-- Both cores restart at address `a` with RUN_HALF flipped; ADOPT says whether the image takes over the running hardware. -/
def coresFlip (b : Blk) (adopt : Bool) (a : Nat) : Blk :=
  let f := b.fwu
  let b := b.setFwu { f with
    running := f.before, before := f.running, direct := f.directBefore, directBefore := f.direct
    entry := f.entryBefore, entryBefore := f.entry, startedAt := a }
  (b.setFld Reg.FWU_STATUS 0 0 (1 - runHalf b)).setFlag Reg.FWU_STATUS 5 adopt

/-- Protection ends. -/
def protectEnd (b : Blk) : Blk := b.setFwu { b.fwu with protect := none }

/-- The old image is back at its resume address, with the handover's status (R393). -/
def handoverBack (b : Blk) (status : Nat) : Blk :=
  let b := (coresFlip (protectEnd b) false (b.rdN Reg.FWU_RESUME_ADDR)).setFlag Reg.FWU_STATUS 3 false
  b.setFwu { b.fwu with hoStatus := some status }

/-- HO_ACTIVE's time is over: a CONFIRM in that clock is too late (R393). -/
def handoverLate (b : Blk) : Bool := decide (b.fwu.hoFrom + 1000 * b.fld Reg.FWU_HO_TIMEOUT 15 0 ≤ b.now)

/-- The copy engine starts. -/
def fwuCopy (b : Blk) : Blk := (b.setFlag Reg.FWU_STATUS 1 true).setFlag Reg.FWU_STATUS 2 false

/-- SWITCH: the new image starts in the other half at FWU_ENTRY_ADDR, the old half is protected and the timer runs (R391, R394). -/
def fwuSwitch (b : Blk) : Blk :=
  let old := runHalf b
  let a := b.rdN Reg.FWU_ENTRY_ADDR
  let b := (coresFlip (b.setFwu { b.fwu with entryBefore := a }) false a).setFlag Reg.FWU_STATUS 3 true
  b.setFwu { b.fwu with protect := some old, hoFrom := b.now }

/-- CONFIRM: probation begins (R393, R395). -/
def fwuConfirm (b : Blk) : Blk :=
  if !b.flag Reg.FWU_STATUS 3 || handoverLate b then b
  else
    let b := ((b.setFlag Reg.FWU_STATUS 3 false).setFlag Reg.FWU_STATUS 4 true).wrN Reg.FWU_PROB_REMAIN b.fwu.probation
    b.setFwu { b.fwu with hoStatus := some 0 }

/-- RETURN: the old image resumes and will reply SCHEMA_MISMATCH (R393). -/
def fwuReturn (b : Blk) : Blk := if b.flag Reg.FWU_STATUS 3 then handoverBack b 0x61 else b

/-- REVERT: the old image starts at its ENTRY with ADOPT; probation and protection end (R397). -/
def fwuRevert (b : Blk) : Blk :=
  if b.flag Reg.FWU_STATUS 4 then
    lifeTotal (((coresFlip (protectEnd b) true b.fwu.entryBefore).setFlag Reg.FWU_STATUS 4 false).wr Reg.FWU_PROB_REMAIN 0#32) 78
  else b

/-- COMMIT: probation and protection end (R396). -/
def fwuCommit (b : Blk) : Blk := (((protectEnd b).setFlag Reg.FWU_STATUS 4 false).setFlag Reg.FWU_STATUS 5 false).wr Reg.FWU_PROB_REMAIN 0#32

/-- A write of FWU_CTRL (Table 15-16): SWITCH, RETURN, REVERT and COMMIT need the key, without which the write is ignored; CONFIRM
with RETURN acts as RETURN (R393). -/
def fwuCtrlWrite (v : Nat) (b : Blk) : Blk :=
  if (bit v 1 || bit v 3 || bit v 4 || bit v 5) && bits v 31 16 != 0x7740 then b
  else
    let b := if bit v 0 then fwuCopy b else b
    let b := if bit v 3 then fwuReturn b else if bit v 2 then fwuConfirm b else b
    let b := if bit v 1 then fwuSwitch b else b
    let b := if bit v 4 then fwuRevert b else b
    if bit v 5 then fwuCommit b else b

/-- FWU_COPY (R391). -/
def execFwuCopy (value : Word) (s : State) : Result := inDom 1 (onBlk (fwuCtrlWrite (value.toNat ||| 1))) s
/-- FWU_SWITCH (R391). -/
def execFwuSwitch (value : Word) (s : State) : Result := inDom 1 (onBlk (fwuCtrlWrite (value.toNat ||| 2))) s
/-- FWU_RETURN (R393). -/
def execFwuReturn (value : Word) (s : State) : Result := inDom 1 (onBlk (fwuCtrlWrite (value.toNat ||| 8))) s
/-- FWU_REVERT (R397). -/
def execFwuRevert (value : Word) (s : State) : Result := inDom 1 (onBlk (fwuCtrlWrite (value.toNat ||| 16))) s
/-- FWU_COMMIT (R396). -/
def execFwuCommit (value : Word) (s : State) : Result := inDom 1 (onBlk (fwuCtrlWrite (value.toNat ||| 32))) s

/-- FWU_COPY_HASH as a digest. -/
def copyHash (b : Blk) : List Byte := (List.range 12).flatMap (fun j => toLE 4 (b.rdN (Reg.FWU_COPY_HASHx j)))

/-- The copy completes: the body stands in the inactive half, and its SHA-384 is right or not; on a failure FW_HANDOVER returns
VERIFY_FAIL (R391). -/
def fwuCopyDone (m : Mem) (b : Blk) : Blk × List Host.Cell :=
  if !b.flag Reg.FWU_STATUS 1 then (b, [])
  else
    let body := m.bytes (0x60000000 + b.rdN Reg.FWU_COPY_SRC) (min (b.rdN Reg.FWU_COPY_LEN) 0x400000)
    let b := crcSnoop b 6 0 0 body
    let ok := copyHash b == toBE 48 (Config.sha384 body).toNat
    let b := ((b.setFlag Reg.FWU_STATUS 1 false).setFlag Reg.FWU_STATUS 2 ok).irq Reg.FWU_INT_STATUS 0
    let b := if ok then b else (b.irq Reg.FWU_INT_STATUS 1).setFwu { b.fwu with hoStatus := some 0x60 }
    (b, cellsAt (halfBase (1 - runHalf b)) body)

/-- FWU_COPY_DONE (R391). -/
def execFwuCopyDone (s : State) : Result := inDom 1 (onMem fwuCopyDone) s

/-- The time that Lifelog records carry: TB0 in seconds, 0 while it is OFF (R410). -/
def lifeSec (b : Blk) : Nat := if b.fld (Reg.TBn_STATUS 0) 2 0 = 0 then 0 else (b.tb 0).time / secUnit

/-- An event for the Lifelog, with a code that the spec does not state: a free value (log entries 3 and 47). -/
def lifeEvent (b : Blk) (arg : Nat) : Blk :=
  { b.drawn with log := { b.log with events := b.log.events ++ [(lifeSec b, Config.freeValue b.freeCount, arg)] } }

/-- Neither CONFIRM nor RETURN within FWU_HO_TIMEOUT of SWITCH: as RETURN, with HO_TIMEOUT; the old image will reply INTERNAL and records the
event (R393). -/
def handoverTimeout (b : Blk) : Blk :=
  if !(b.flag Reg.FWU_STATUS 3 && handoverLate b) then b
  else lifeEvent ((handoverBack b 0xF0).irq Reg.FWU_INT_STATUS 2) 0

/-- HANDOVER_TIMEOUT (R393). -/
def execHandoverTimeout (s : State) : Result := inDom 1 (onBlk handoverTimeout) s

/-- The anti-rollback counter is raised to a target above it (R385). -/
def rollbackSet (v : Nat) (b : Blk) : Blk :=
  let t := min 64 (v % 128)
  if t ≤ b.otp.rollback then b else { b with otp := { b.otp with rollback := t } }.wrN Reg.FWU_ROLLBACK t

/-- ROLLBACK_SET (R385). -/
def execRollbackSet (value : Word) (s : State) : Result := inDom 1 (onBlk (rollbackSet value.toNat)) s

/-- The commit of the image in probation (R396): the boot header, the counter, and COMMIT; counted for the Lifelog. -/
def commitImage (m : Mem) (b : Blk) : Blk × List Host.Cell :=
  if !b.flag Reg.FWU_STATUS 4 then (b, [])
  else
    let s := b.fwu.running
    let b := fwuCommit (rollbackSet (slotRollback m s) b)
    (lifeTotal b 77, setPreferred m s)

/-- The probation count has reached 0: PROB_EXPIRED, and firmware commits (R395). -/
def probationExpired (m : Mem) (b : Blk) : Blk × List Host.Cell :=
  if !b.flag Reg.FWU_STATUS 4 || b.rdN Reg.FWU_PROB_REMAIN != 0 then (b, [])
  else commitImage m (b.irq Reg.FWU_INT_STATUS 5)

/-- PROBATION_EXPIRED (R395). -/
def execProbationExpired (s : State) : Result := inDom 1 (onMem probationExpired) s

/-! ### Life cycle, root keys, tokens (R384, R402 to R405) -/

/-- The fuse group of the target state is blown, every key slot is invalidated, and the warm reset with wipes follows (R366, R403);
a target above 4 acts as 4 (R453). -/
def lcCmd (v : Nat) (b : Blk) : Blk :=
  if bits v 31 16 != 0x7740 then b
  else
    let b := { b with otp := { b.otp with lifeCycle := min 4 (v % 8) }, keys := [] }
    let b := resetRaise 7 (b.setPwr { b.pwr with lcChange := true })
    { b with wiping := b.wiping.filter (fun x => x != SramArray.retained) ++ [SramArray.retained] }

/-- LC_CMD (R403). -/
def execLcCmd (value : Word) (s : State) : Result := inDom 1 (onBlk (lcCmd value.toNat)) s

/-- A root key's revoke bit is blown, unless no programmed key would be left (R384). -/
def otpRevoke (v : Nat) (b : Blk) : Blk :=
  let k := v % 4
  if bits v 31 16 != 0x7740 then b
  else if !(List.range 4).any (fun j => j != k && rootKeyGood b j) then b.irq Reg.FWU_INT_STATUS 6
  else
    let r := b.otp.revoked ||| 2 ^ k
    { b with otp := { b.otp with revoked := r } }.wrN Reg.FWU_OTP_KEYS (b.otp.rootKeys + 16 * r)

/-- OTP_REVOKE (R384). -/
def execOtpRevoke (value : Word) (s : State) : Result := inDom 1 (onBlk (otpRevoke value.toNat)) s

/-- TOKEN_CHECK (R404): the engine takes up the token. -/
def execTokenCheck (s : State) : Result := inDom 1 (onBlk (fun b => b.setFlag Reg.FWU_TOKEN_STATUS 0 true)) s

/-- Whether the token in FWU_TOKEN is good (R404). -/
def tokenGood (b : Blk) (t : List Byte) : Bool :=
  let chal := (List.range 4).flatMap (fun j => toLE 4 (b.rdN (Reg.FWU_DBG_CHALLENGEx j)))
  let digest := Config.sha384 (slice cartouche 16 8 ++ chal ++ t.take 1)
  rootKeyGood b (leAt t 1 1) && Config.sigOk (Tab.at [] b.otp.rootPub (leAt t 1 1)) digest (slice t 4 96)

/-- The token check completes; the challenge changes whether it passes or not, and a debug-unlock token opens the port (R404, R405). -/
def tokenCheckDone (b : Blk) : Blk :=
  if !b.flag Reg.FWU_TOKEN_STATUS 0 then b
  else
    let t := (List.range 25).flatMap (fun j => toLE 4 (b.rdN (Reg.FWU_TOKEN_x j)))
    let ok := tokenGood b t
    let scope := leAt t 0 1
    let b := newChallenge ((b.setFld Reg.FWU_TOKEN_STATUS 1 0 (2 * b2n ok)))
    let b := if ok then b.setFld Reg.FWU_TOKEN_STATUS 9 2 scope else b
    if ok && scope == 1 then (b.setFlag Reg.FWU_LC 8 true).irq Reg.FWU_INT_STATUS 4 else b

/-- TOKEN_CHECK_DONE (R404). -/
def execTokenCheckDone (s : State) : Result := inDom 1 (onBlk tokenCheckDone) s

/-! ### User keys (R406) -/

/-- The words of FWU_KEY_DATA as a number, word 0 least significant. -/
def keyData (b : Blk) (k : Nat) : Nat := leNat ((List.range k).flatMap (fun j => toLE 4 (b.rdN (Reg.FWU_KEY_DATAx j))))

/-- A store entry (R406): SLOT, VALID, two zeros, WRAP and its CRC. -/
def keyEntry (slot : Nat) (wrap : Option Nat) : List Byte :=
  let e := toLE 1 slot ++ toLE 1 (b2n wrap.isSome) ++ toLE 2 0 ++ toLE 24 (wrap.getD 0)
  e ++ toLE 4 (crc32 e)

/-- The entry is written to both copies of the key store. -/
def keyCells (slot : Nat) (wrap : Option Nat) : List Host.Cell :=
  cellsAt (0x60001000 + 32 * slot) (keyEntry slot wrap) ++ cellsAt (0x60002000 + 32 * slot) (keyEntry slot wrap)

/-- The key that a KEY_WRITE loads, none where it is refused. -/
def keyIncoming (b : Blk) (slot : Nat) (wrapped : Bool) : Option (BitVec 128) :=
  let lc := b.fld Reg.FWU_LC 2 0
  let k0 := Tab.at none b.keys 0
  if lc = 4 then none
  else if wrapped then k0.bind (fun k => Config.keyUnwrap (some k) 0 (BitVec.ofNat 192 (keyData b 6)))
  else if lc != 2 || (slot = 0 && k0.isNone) then some (BitVec.ofNat 128 (keyData b 4))
  else none

/-- A user key slot's content changes; its bit in FWU_KEY_STATUS follows. -/
def keyPut (b : Blk) (slot : Nat) (k : Option (BitVec 128)) : Blk :=
  let b := { b with keys := Tab.upd none b.keys slot k }
  b.setFld Reg.FWU_KEY_STATUS 7 0 (keysValid b)

/-- FWU_KEY_CMD.WRITE: the slot is loaded, its store entry returned and written by firmware; or FAIL and nothing else (R406). -/
def keyWrite (v : Nat) (_ : Mem) (b : Blk) : Blk × List Host.Cell :=
  let slot := v % 8
  match keyIncoming b slot (bit v 4) with
  | none => (b.setFlag Reg.FWU_KEY_STATUS 9 true, [])
  | some k =>
    let lc := b.fld Reg.FWU_LC 2 0
    let w := (Config.keyWrap none lc k).toNat
    let b := (keyPut b slot (some k)).setFlag Reg.FWU_KEY_STATUS 9 false
    let b := (List.range 6).foldl (fun b j => b.wrN (Reg.FWU_KEY_WRAPx j) (w / 2 ^ (32 * j))) b
    (b.setFwu { b.fwu with keyMade := Tab.upd none b.fwu.keyMade slot (some (lc, k)) }, keyCells slot (some w))

/-- KEY_WRITE (R406). -/
def execKeyWrite (value : Word) (s : State) : Result := inDom 1 (onMem (keyWrite value.toNat)) s

/-- FWU_KEY_CMD.ERASE: the slot is empty, and its store entry not valid (R406). -/
def keyErase (v : Nat) (_ : Mem) (b : Blk) : Blk × List Host.Cell :=
  ((keyPut b (v % 8) none).setFlag Reg.FWU_KEY_STATUS 9 false, keyCells (v % 8) none)

/-- KEY_ERASE (R406). -/
def execKeyErase (value : Word) (s : State) : Result := inDom 1 (onMem (keyErase value.toNat)) s

/-- The key that WRAP `w` of slot `i`'s entry unwraps to: an entry that this device made gives its key back, but in the life-cycle state
only in which it was made (R403, R406). -/
def unwrapStored (b : Blk) (i : Nat) (w : BitVec 192) : Option (BitVec 128) :=
  match Tab.at none b.fwu.keyMade i with
  | some (lc, k) =>
    if w = Config.keyWrap none lc k then (if lc = b.pwr.lifeCycle then some k else none) else Config.keyUnwrap none b.pwr.lifeCycle w
  | none => Config.keyUnwrap none b.pwr.lifeCycle w

/-- The key of slot `i` from the store (R406): copy 0, or copy 1 where copy 0 is bad. -/
def storedKey (m : Mem) (b : Blk) (i : Nat) : Option (BitVec 128) :=
  let good (c : Nat) : Bool :=
    let e := m.bytes (0x60001000 + 0x1000 * c + 32 * i) 32
    crc32 (e.take 28) == leAt e 28 4
  let c := if good 0 then 0 else 1
  let e := m.bytes (0x60001000 + 0x1000 * c + 32 * i) 32
  if good c && leAt e 0 1 == i && leAt e 1 1 == 1 then unwrapStored b i (BitVec.ofNat 192 (leAt e 4 24)) else none

/-- The ROM fills the key slots from the store. -/
def keysLoad (m : Mem) (b : Blk) : Blk := (List.range 8).foldl (fun b i => keyPut b i (storedKey m b i)) b

end Sys2Proof.Machine
end

