-- ==== Sys2Proof/Machine/Life.lean ====
section
/-!
DEFINITION. The Lifelog (R408 to R410, R412).
-/
namespace Sys2Proof.Machine

/-- The snapshot registers of the accumulators, in the order of Table 15-14's TOTALS, then the banks. -/
def lifeRegs : List Nat :=
  [Reg.LOG_CORE_S, Reg.LOG_DORMANT_S] ++ (List.range 16).map Reg.LOG_TJ_k
    ++ (List.range 10).flatMap (fun r => (List.range 4).map (Reg.LOG_RAILr_b r))
    ++ (List.range 17).map Reg.LOG_RESET_c ++ (List.range 192).map Reg.LOG_ECC_m

/-- SNAP copies every accumulator and restarts it; what this clock has added counts in the new interval (R409). -/
def logSnap (b : Blk) : Blk :=
  let new := if b.lifeNow.1 = b.now then b.lifeNow.2 else []
  let b := lifeRegs.foldl (fun b a => b.wrN a (Tab.get (fun _ => 0) b.life a - Tab.get (fun _ => 0) new a)) b
  ({ b with life := new }).setFld Reg.LOG_STATUS 15 0 (b.fld Reg.LOG_STATUS 15 0 + 1)

/-- LOG_SNAP (R409). -/
def execLogSnap (s : State) : Result := inDom 1 (onBlk logSnap) s

/-- Total `k` adds `n`. -/
def totalAdd (b : Blk) (k n : Nat) : Blk :=
  { b with log := { b.log with totals := Tab.upd 0 b.log.totals k (Tab.at 0 b.log.totals k + n) } }

/-- What the counter in register `a` has counted since it was last looked at is added to total `k` (R409). -/
def totalSince (b : Blk) (k a : Nat) : Blk :=
  let v := b.rdN a
  let was := Tab.at 0 b.log.seen a
  let b := { b with log := { b.log with seen := Tab.upd 0 b.log.seen a v } }
  totalAdd b k (if was ≤ v then v - was else v)

/-- Firmware adds the snapshot and what the hardware counts elsewhere to its totals (R409). -/
def totalsTake (b : Blk) : Blk :=
  let b := ((List.range 75).zip lifeRegs).foldl (fun b x => totalAdd b x.1 (b.rdN x.2)) b
  let b := (List.range 192).foldl (fun b k => totalAdd b (300 + k) (b.rdN (Reg.LOG_ECC_m k))) b
  let b := totalSince b 76 Reg.OPT_RESTARTS
  let b := (List.range 32).foldl (fun b n =>
    totalSince (totalSince b (100 + 2 * n) (Reg.STR_n_RX_CRC_ERR n)) (101 + 2 * n) (Reg.STR_n_RB_MISMATCH n)) b
  let b := (List.range 4).foldl (fun b p => totalSince b (200 + p) (Reg.TRK_Pp_LINK_DOWN p)) b
  totalSince b 500 Reg.SYS_ECC_UE_COUNT

/-- The payload of a record of type `t` (Table 15-14). -/
def lifePayload (b : Blk) (t : Nat) : List Byte :=
  let w (k n : Nat) : List Byte := toLE n (Tab.at 0 b.log.totals k)
  match t with
  | 0 => (List.range 82).flatMap (fun k => w k 8)
  | 1 => (List.range 64).flatMap (fun k => w (100 + k) 8) ++ (List.range 4).flatMap (fun k => w (200 + k) 8)
  | 2 => (List.range 192).flatMap (fun k => w (300 + k) 4) ++ w 500 4
  | _ => (b.log.events.drop (b.log.events.length - 256)).flatMap (fun e => toLE 4 e.1 ++ toLE 2 e.2.1 ++ toLE 2 0 ++ toLE 8 e.2.2)

/-- A record is appended where the log stands (R410). -/
def recordPut (r : Blk × List Host.Cell) (t : Nat) : Blk × List Host.Cell :=
  let b := r.1
  let p := lifePayload b t
  let sec := lifeSec b
  let h := toLE 2 0x1F7E ++ toLE 1 t ++ toLE 1 1 ++ toLE 4 p.length ++ toLE 4 b.log.seq ++ toLE 4 sec ++ p
  let a := 0x61B00000 + 0x10000 * b.log.sector + b.log.offset
  ({ b with log := { b.log with
      seq := (b.log.seq + 1) % 2 ^ 32, offset := b.log.offset + h.length + 4
      records := Tab.upd [] b.log.records t ((a, h.length + 4) :: Tab.at [] b.log.records t) } },
    r.2 ++ cellsAt a (h ++ toLE 4 (crc32 h)))

/-- Sector `s` is erased, and the records in it are gone. -/
def sectorErase (r : Blk × List Host.Cell) (s : Nat) : Blk × List Host.Cell :=
  let a := 0x61B00000 + 0x10000 * s
  let kept := [0, 1, 2, 3].foldl (fun t k =>
    Tab.upd [] t k ((Tab.at [] t k).filter (fun x => decide (x.1 < a ∨ a + 0x10000 ≤ x.1)))) r.1.log.records
  ({ r.1 with log := { r.1.log with sector := s, offset := 0, records := kept } }, r.2 ++ eraseCells a 0x10000)

/-- A record is appended; where its sector has no room left, the next sector is erased and opens with a TOTALS record (R410). -/
def recordAppend (r : Blk × List Host.Cell) (t : Nat) : Blk × List Host.Cell :=
  let b := r.1
  if b.log.offset + 20 + (lifePayload b t).length ≤ 0x10000 then recordPut r t
  else
    let s := (b.log.sector + 1) % 64
    let r := sectorErase r s
    if t = 0 then recordPut r 0 else recordPut (recordPut r 0) t

/-- Firmware snaps, adds to its totals and appends the records of Table 15-14 (R409). -/
def logFlush (b : Blk) : Blk × List Host.Cell := [0, 1, 2, 3].foldl recordAppend (totalsTake (logSnap b), [])

/-- Every LOG_FLUSH_MIN minutes: FLUSH_DUE, and the flush that running firmware makes at it (R409). -/
def logFlushDue (_ : Mem) (b : Blk) : Blk × List Host.Cell :=
  if b.now < b.log.due + 60 * 1000 * msClocks * b.fld Reg.LOG_FLUSH_MIN 15 0 then (b, [])
  else
  let b := ({ b with log := { b.log with due := b.now } }).irq Reg.LOG_INT_STATUS 0
  if fwRuns b then logFlush b else (b, [])

/-- LOG_FLUSH_DUE (R409). -/
def execLogFlushDue (s : State) : Result := onMem logFlushDue s

/-- The record of type `t` that stands at `x` is valid: its MAGIC, TYPE and CRC are good (R410). -/
def recordValid (m : Mem) (t : Nat) (x : Nat × Nat) : Bool :=
  let p := m.bytes x.1 x.2
  leAt p 0 2 == 0x1F7E && leAt p 2 1 == t && crc32 (p.take (x.2 - 4)) == leAt p (x.2 - 4) 4

/-- The newest valid record of type `t` as it stands in flash, empty where there is none (R410). -/
def lifeRecord (m : Mem) (b : Blk) (t : Nat) : List Byte :=
  match (Tab.at [] b.log.records t).find? (recordValid m t) with
  | some x => m.bytes x.1 x.2
  | none => []

/-- After a boot, a full reset's cause and a thermal shutdown are added to the totals (R409). -/
def bootTotals (b : Blk) : Blk :=
  let c := b.fld Reg.RST_CAUSE 7 0
  let b := if c ≤ 2 && b.fld Reg.RST_CAUSE 27 16 != 0 then totalAdd b (58 + c) 1 else b
  if c = 2 then totalAdd b 75 1 else b

end Sys2Proof.Machine
end

