-- ==== Sys2Proof/Machine/Flags.lean ====
section
/-!
DEFINITION. Interrupt flags: the blocks' bits of SYS_INT_SUMMARY, the host's 64 sources, the MSI-X vectors and the interrupt pins
(R327).
-/
namespace Sys2Proof.Machine

/-- Status register `st` has a bit that its enable register `en` lets through. -/
def pendReg (b : Blk) (st en : Nat) : Bool := b.rd st &&& b.rd en != 0#32

/-- A port of the strand block has an interrupt pending and enabled: its bit of STR_INT_SUMMARY. -/
def strPend (b : Blk) (n : Nat) : Bool := pendReg b (Reg.STR_n_INT_STATUS n) (Reg.STR_n_INT_ENABLE n)

/-- STR_INT_SUMMARY. -/
def strSummary (b : Blk) : Nat := ((List.range 32).map (fun n => if strPend b n then 2 ^ n else 0)).sum

/-- Block `k` of R327 has an interrupt that is pending and enabled. -/
def blockPend (b : Blk) (k : Nat) : Bool :=
  match k with
  | 0 => pendReg b Reg.SYS_INT_STATUS Reg.SYS_INT_ENABLE
  | 1 => pendReg b Reg.RST_INT_STATUS Reg.RST_INT_ENABLE
  | 2 => (List.range 4).any (fun n => pendReg b (Reg.TBn_INT_STATUS n) (Reg.TBn_INT_ENABLE n))
      || (List.range 2).any (fun m => pendReg b (Reg.MERm_INT_STATUS m) (Reg.MERm_INT_ENABLE m))
      || pendReg b Reg.WPT_INT_STATUS Reg.WPT_INT_ENABLE || pendReg b Reg.EVT_INT_STATUS Reg.EVT_INT_ENABLE
  | 3 => pendReg b Reg.TRK_INT_STATUS Reg.TRK_INT_ENABLE || pendReg b Reg.E131_INT_STATUS Reg.E131_INT_ENABLE
      || (List.range 4).any (fun p => pendReg b (Reg.TRK_Pp_INT_STATUS p) (Reg.TRK_Pp_INT_ENABLE p))
      || (List.range 16).any (fun r => pendReg b (Reg.TRK_RXr_INT_STATUS r) (Reg.TRK_RXr_INT_ENABLE r))
      || (List.range 4).any (fun t => pendReg b (Reg.TRK_TXt_INT_STATUS t) (Reg.TRK_TXt_INT_ENABLE t))
  | 4 => pendReg b Reg.CNV_INT_STATUS Reg.CNV_INT_ENABLE
  | 5 => pendReg b Reg.STC_INT_STATUS Reg.STC_INT_ENABLE
  | 6 => strSummary b != 0 || pendReg b Reg.STR_INT_STATUS Reg.STR_INT_ENABLE
  | 7 => pendReg b Reg.DRV_INT_STATUS Reg.DRV_INT_ENABLE
      || (List.range 16).any (fun c => pendReg b (Reg.DRV_c_INT_STATUS c) (Reg.DRV_c_INT_ENABLE c))
  | 8 => pendReg b Reg.PAIR_INT_STATUS Reg.PAIR_INT_ENABLE
  | 9 => pendReg b Reg.MBX_INT_STATUS Reg.MBX_INT_ENABLE
  | 10 => pendReg b Reg.DMA_INT_STATUS Reg.DMA_INT_ENABLE
  | 11 => pendReg b Reg.SKN_INT_STATUS Reg.SKN_INT_ENABLE
  | 12 => pendReg b Reg.CRC_INT_STATUS Reg.CRC_INT_ENABLE
  | 13 => pendReg b Reg.CAL_INT_STATUS Reg.CAL_INT_ENABLE
  | 14 => pendReg b Reg.FWU_INT_STATUS Reg.FWU_INT_ENABLE
  | 15 => pendReg b Reg.HST_INT_STATUS Reg.HST_INT_ENABLE
  | 16 => pendReg b Reg.LOG_INT_STATUS Reg.LOG_INT_ENABLE || pendReg b Reg.TRC_INT_STATUS Reg.TRC_INT_ENABLE
  | _ => false

/-- The domain of each block of R327, whose bit reads 0 while it is off; the strand block counts by port. -/
def blockDomain (k : Nat) : Nat := [1, 0, 2, 3, 4, 5, 1, 8, 1, 1, 1, 1, 1, 1, 1, 9, 1].getD k 1

/-- SYS_INT_SUMMARY. -/
def intSummary (b : Blk) : Nat :=
  ((List.range 17).map (fun k => if domOn b (blockDomain k) && blockPend b k then 2 ^ k else 0)).sum

/-- Interrupt source `k` of the host is pending. -/
def sourcePend (b : Blk) (k : Nat) : Bool :=
  let mbx := (b.rd Reg.MBX_INT_STATUS &&& b.rd Reg.MBX_INT_ENABLE).toNat
  if k < 17 then domOn b (blockDomain k) && blockPend b k
  else if 32 ≤ k && k < 48 then domOn b 3 && pendReg b (Reg.TRK_RXr_INT_STATUS (k - 32)) (Reg.TRK_RXr_INT_ENABLE (k - 32))
  else if 48 ≤ k && k < 52 then domOn b 3 && pendReg b (Reg.TRK_TXt_INT_STATUS (k - 48)) (Reg.TRK_TXt_INT_ENABLE (k - 48))
  else if 52 ≤ k && k < 56 then bit mbx (k - 48)
  else if 56 ≤ k && k < 60 then bit mbx (k - 40)
  else if k = 60 then bits (b.rd Reg.DBL_STATUS &&& b.rd Reg.DBL_ENABLE).toNat 31 24 != 0
  else false

/-- CC0 or CC1 has an interrupt: of its enabled mailbox events, or of its doorbells, 0 to 15 for CC0 and 16 to 23 for CC1 (R323, R327). -/
def corePend (b : Blk) (cc1 : Bool) : Bool :=
  let rung := (b.rd Reg.DBL_STATUS &&& b.rd Reg.DBL_ENABLE).toNat
  domOn b 1 && (if cc1 then pendReg b Reg.MBX_INT_STATUS Reg.MBX_INT_EN_CC1 || bits rung 23 16 != 0
    else pendReg b Reg.MBX_INT_STATUS Reg.MBX_INT_EN_CC0 || bits rung 15 0 != 0)

/-- The 64 sources as a number. -/
def sourcesPend (b : Blk) : Nat := ((List.range 64).map (fun k => if sourcePend b k then 2 ^ k else 0)).sum

/-- Vector `v` is masked in the MSI-X table, whose mask bits are set after reset (log entry 50). -/
def vectorMasked (b : Blk) (v : Nat) : Bool := Tab.get (fun _ => 1) b.host.msix (4 * v + 3) % 2 == 1

/-- The OR of the sources that vector `v` selects. -/
def vectorOr (b : Blk) (src v : Nat) : Bool := src &&& b.rd64 (Reg.HST_MSIXv_SEL_LO v) (Reg.HST_MSIXv_SEL_HI v) != 0

/-- The host interface takes `x`. -/
def Blk.setHost (b : Blk) (x : HostIf) : Blk := { b with host := x }

/-- Messages for the vectors that have come to be unmasked with a source pending, where the host has enabled them; the levels of
INT_N and HQ_INT_N; and the interrupts of the cores (R323, R327). -/
def intSettle (b : Blk) : Blk :=
  let src := sourcesPend b
  let was := b.host.vectors
  let on := (List.range 32).filter (fun v => vectorOr b src v && !vectorMasked b v)
  let live := b.fld Reg.HST_STATUS 7 6 == 3 && b.flag Reg.HST_STATUS 1 && domOn b 9
  let b := (on.filter (fun v => live && !bit was v)).foldl (fun b v => b.emit (.msix v)) b
  let low := src &&& b.rd64 Reg.HST_INTN_SEL_LO Reg.HST_INTN_SEL_HI != 0 && domOn b 9
  let hq := low && b.flag Reg.HST_STATUS 0
  let b := if low != b.host.intLow then b.emit (.pin .intN (!low)) else b
  let b := if hq != b.host.hqLow then b.emit (.pin .hqIntN (!hq)) else b
  let c0 := corePend b false
  let c1 := corePend b true
  let b := if c0 != b.host.cc0Irq then b.emit (.coreIrq false c0) else b
  let b := if c1 != b.host.cc1Irq then b.emit (.coreIrq true c1) else b
  b.setHost { b.host with vectors := (on.map (fun v => 2 ^ v)).sum, intLow := low, hqLow := hq, cc0Irq := c0, cc1Irq := c1 }

end Sys2Proof.Machine
end

