-- ==== Sys2Proof/Machine/Mail.lean ====
section
/-!
DEFINITION. Mailboxes, doorbells and locks, the PCIe link and the QSPI target's own transactions (R318, R319, R321 to R325, R330).
-/
namespace Sys2Proof.Machine

/-! ### Mailboxes (R321, R322) -/

/-- `who` is a host requester. -/
def isHost (who : Requester) : Bool := who = .pcie || who = .qspi

/-- `who` may post to mailbox `m` (Table 12-18). -/
def mbxSender (m : Nat) (who : Requester) : Bool :=
  if m < 4 then isHost who else if m = 10 || m = 11 || m = 13 || m = 15 then who = .cc1 else who = .cc0

/-- `who` may take from mailbox `m`; mailboxes 12 to 15 are taken by hardware. -/
def mbxReceiver (m : Nat) (who : Requester) : Bool :=
  if m < 4 || m = 10 || m = 11 then who = .cc0 else if m < 8 then isHost who else if m < 10 then who = .cc1 else false

/-- The domain that receives from mailbox `m`. -/
def mbxDomain (m : Nat) : Nat := if 4 ≤ m && m < 8 then 9 else if m = 12 || m = 13 then 8 else if 14 ≤ m then 3 else 1

/-- The notice in mailbox `m` is taken with a return code. -/
def mbxTake (b : Blk) (m code : Nat) : Blk :=
  (((b.setFlag (Reg.MBX_m_STATUS m) 0 false).irq (Reg.MBX_m_STATUS m) 1).wrN (Reg.MBX_m_RCODE m) (code % 65536)).irq Reg.MBX_INT_STATUS (16 + m)

/-- The DRIVE sequencer takes a notice (R322): tag 1 reloads the trims at the next START_FRAME, where the lanes take them anyway (R156),
and tag 2 starts every conversion. -/
def driveNotice (b : Blk) (m tag : Nat) : Blk :=
  if tag = 1 then mbxTake b m 0
  else if tag = 2 then mbxTake (sensorStart b (List.range 12)) m 0
  else mbxTake b m 0x12

/-- The pair link transmitter takes a notice (R322): the frame leaves on the pair link in queue 4, or is turned away. -/
def pairLinkNotice (mem : Mem) (b : Blk) (m len : Nat) (host : List Byte) : Blk :=
  if len < 60 || 9212 < len then mbxTake b m 0x11
  else if !b.flag Reg.TRK_STATUS (pairLink b) then mbxTake b m 0x40
  else
    let a := b.rd64 (Reg.MBX_m_PTR_LO m) (Reg.MBX_m_PTR_HI m)
    let bytes := ((busRead mem b a len host).1).getD (List.replicate len 0#8)
    trkFromDevice b 4 { trkFrame (bytes ++ fcsOf bytes) with directed := true, tx := (m, 1) } (some [pairLink b])

/-- A notice is posted. -/
def mbxFill (b : Blk) (m tag : Nat) : Blk :=
  let b := (b.wrN (Reg.MBX_m_TAG m) (tag % 65536)).setFlag (Reg.MBX_m_STATUS m) 0 true
  (b.count (Reg.MBX_m_POSTS m)).irq Reg.MBX_INT_STATUS m

/-- A post to a full mailbox is ignored: OVERRUN, and the error count; an ACK in the same clock may still make it good (R321). -/
def mbxOver (b : Blk) (m tag : Nat) (host : List Byte) : Blk :=
  let x : LatePost := ⟨b.now, m, tag, b.flag (Reg.MBX_m_STATUS m) 2, b.rdN Reg.MBX_ERR_COUNT, host⟩
  ({ b with mbxLate := b.mbxLate.filter (fun (y : LatePost) => y.clock == b.now) ++ [x] }.count Reg.MBX_ERR_COUNT).irq (Reg.MBX_m_STATUS m) 2

/-- The first post that mailbox `m` has refused in this clock. -/
def mbxLateOf (b : Blk) (m : Nat) : Option LatePost := b.mbxLate.find? (fun (x : LatePost) => x.clock == b.now && x.mbx == m)

/-- An ACK comes before a post of the same clock (R321): the first post that the mailbox has refused in this clock counts as posted, and was
no overrun; one after it stays an overrun. -/
def mbxLatePost (b : Blk) (m : Nat) : Blk :=
  match mbxLateOf b m with
  | none => b
  | some x =>
    let rest := b.mbxLate.erase x
    let v := b.rdN Reg.MBX_ERR_COUNT
    let stays := v + 1 = 2 ^ 32 && 2 ^ 32 ≤ x.errs + b.mbxLate.length
    let b := { b with mbxLate := rest }.wrN Reg.MBX_ERR_COUNT (if stays then v else v - 1)
    mbxFill (if (mbxLateOf b m).isSome then b else b.setFlag (Reg.MBX_m_STATUS m) 2 x.was) m x.tag

/-- A write of MBX_m_TAG (R321): answered with an error where the writer is not the sender or the receiving domain is off; otherwise
it posts, or overruns a full mailbox. The Bool says that the access succeeds. -/
def mbxPost (m : Nat) (who : Requester) (tag : Nat) (host : List Byte) (mem : Mem) (b : Blk) : Blk × Bool :=
  if !mbxSender m who then (b.count Reg.MBX_ERR_COUNT, false)
  else if !domOn b (mbxDomain m) then (b, false)
  else if b.flag (Reg.MBX_m_STATUS m) 0 then (mbxOver b m (tag % 65536) host, true)
  else
    let b := mbxFill b m tag
    let b := if m = 12 || m = 13 then driveNotice b m (tag % 65536)
      else if 14 ≤ m then pairLinkNotice mem b m (tag % 65536) host else b
    (b, true)

/-- The completion of a write goes to its requester. -/
def writeDone (r : Blk × Bool) (who : Requester) (a : Nat) : Blk := r.1.emit (.writeDone who a (!r.2))

/-- MBX_POST (R321), with the interrupts that follow it (R327). -/
def execMbxPost (m : Fin 16) (who : Requester) (tag : Word) (host : List Byte) (s : State) : Result :=
  inDomWrite 1 who (Reg.MBX_m_TAG m)
    (onView (fun mem b => intSettle (writeDone (mbxPost m who tag.toNat host mem b) who (Reg.MBX_m_TAG m)))) s

/-- A write of MBX_m_ACK (R321); without a notice to take it has no effect (log entry 51). -/
def mbxAck (m : Nat) (who : Requester) (code : Nat) (b : Blk) : Blk × Bool :=
  if !mbxReceiver m who then (b.count Reg.MBX_ERR_COUNT, false)
  else if b.flag (Reg.MBX_m_STATUS m) 0 then (mbxLatePost (mbxTake b m code) m, true)
  else (b, true)

/-- MBX_ACK (R321). -/
def execMbxAck (m : Fin 16) (who : Requester) (code : Word) (s : State) : Result :=
  inDomWrite 1 who (Reg.MBX_m_ACK m) (onBlk (fun b => writeDone (mbxAck m who code.toNat b) who (Reg.MBX_m_ACK m))) s

/-- The frame posted by mailbox 14 or 15 has left (R322), and a post that the mailbox has refused in this clock is the next (R321); while
the frame waits in the port's queue it has not left. -/
def pairLinkTxDone (m : Nat) (mem : Mem) (b : Blk) : Blk :=
  if b.flag (Reg.MBX_m_STATUS m) 0 && !txWaiting b m 1 then
    let b := mbxTake b m 0
    match mbxLateOf b m with
    | none => b
    | some x => pairLinkNotice mem (mbxLatePost b m) m x.tag x.host
  else b

/-- PAIR_LINK_TX_DONE (R322). -/
def execPairLinkTxDone (cc1 : Bool) (s : State) : Result := inDom 1 (onView (pairLinkTxDone (14 + b2n cc1))) s

/-! ### Doorbells and locks (R323, R324) -/

/-- DOORBELL_RAISE (R323). -/
def execDoorbellRaise (value : Word) (s : State) : Result := inDom 1 (onBlk (fun b => b.raise Reg.DBL_STATUS value)) s

/-- A requester's ID (R324). -/
def reqId (who : Requester) : Nat := reqNo who + 1

/-- The answer `o` to a read of lock `n` that has given it to `id` or told its owner. -/
def lockTell (n id : Nat) (o : Output) : Output :=
  match o with
  | .readDone w a v false => .readDone w a (if a = Reg.MBX_LOCK_n n then BitVec.ofNat 32 id else v) false
  | o => o

/-- Lock `n` goes to `id` from a requester that comes after it: the answers of this clock since that one's tell the new owner. -/
def lockYield (n id : Nat) (x : LockWin) (b : Blk) : Blk :=
  let h := b.host
  let i := Reg.MBX_LOCK_n n - h.rbufAt.1
  let inBuf := h.rbufAt.1 ≤ Reg.MBX_LOCK_n n && i + 4 ≤ h.rbuf.length && x.before ≤ h.rbufAt.2
  { b with
    lockWon := { x with owner := id } :: b.lockWon.erase x
    out := b.out.take x.before ++ (b.out.drop x.before).map (lockTell n id)
    host := if inBuf then { h with rbuf := h.rbuf.take i ++ toLE 4 id ++ h.rbuf.drop (i + 4) } else h }

/-- A read of lock `n`: its owner, and the reader becomes the owner of a free lock. Reads of one clock come in the order of the requesters'
IDs: a reader that comes before the one that has taken the lock in this clock is its owner, and that one has read its ID. -/
def lockRead (n : Nat) (who : Requester) (b : Blk) : Nat × Blk :=
  let o := b.fld (Reg.MBX_LOCK_n n) 2 0
  let won := b.lockWon.filter (fun x => x.clock == b.now)
  if o = 0 then
    (0, { b with lockWon := ⟨b.now, n, reqId who, b.out.length⟩ :: won }.wrN (Reg.MBX_LOCK_n n) (reqId who))
  else
    match won.find? (fun x => x.lock == n && x.owner == o && decide (reqId who < o)) with
    | some x => (0, (lockYield n (reqId who) x b).wrN (Reg.MBX_LOCK_n n) (reqId who))
    | none => (o, b)

/-- LOCK_ACQUIRE (R324). -/
def execLockAcquire (n : Fin 32) (who : Requester) (s : State) : Result :=
  inDomRead 1 who (Reg.MBX_LOCK_n n)
    (onBlk (fun b => (lockRead n who b).2.emit (.readDone who (Reg.MBX_LOCK_n n) (BitVec.ofNat 32 (lockRead n who b).1) false))) s

/-- A write of lock `n`: its owner frees it with 0; any other requester's write is ignored and counted. -/
def lockWrite (n : Nat) (who : Requester) (v : Nat) (b : Blk) : Blk :=
  if b.fld (Reg.MBX_LOCK_n n) 2 0 != reqId who then b.count Reg.MBX_LOCK_VIOL
  else if v = 0 then b.wr (Reg.MBX_LOCK_n n) 0#32
  else b

/-- LOCK_RELEASE (R324). -/
def execLockRelease (n : Fin 32) (who : Requester) (value : Word) (s : State) : Result := 
  inDomBy 1 who (onBlk (lockWrite n who value.toNat)) s

/-- A write of MBX_LOCK_BREAK: CC0 only. -/
def lockBreak (who : Requester) (v : Nat) (b : Blk) : Blk := if who = .cc0 then b.wr (Reg.MBX_LOCK_n (v % 32)) 0#32 else b

/-- LOCK_BREAK (R324). -/
def execLockBreak (who : Requester) (value : Word) (s : State) : Result := inDomBy 1 who (onBlk (lockBreak who value.toNat)) s

/-! ### The PCIe link (R325, R330, R332) -/

/-- The link trains where the straps select PCIe and HOST is out of reset; Gen1 is the least speed. -/
def pcieLinkUp (speed : Nat) (x2 bm mx : Bool) (b : Blk) : Blk :=
  if b.flag Reg.HST_STATUS 0 || !domOn b 9 || b.pwr.perstLow then b
  else b.setFld Reg.HST_STATUS 7 1 (1 + 2 * max 1 speed + 8 * (1 + b2n x2) + 32 * b2n bm + 64 * b2n mx)

/-- PCIE_LINK_UP (R330). -/
def execPcieLinkUp (speed : Fin 4) (x2 busMaster msixEn : Bool) (s : State) : Result := onBlk (pcieLinkUp speed x2 busMaster msixEn) s

/-- The link is lost: LINK_DOWN (R332). -/
def pcieLinkDown (b : Blk) : Blk :=
  if b.flag Reg.HST_STATUS 1 then (b.setFld Reg.HST_STATUS 7 1 0).irq Reg.HST_INT_STATUS 0 else b

/-- PCIE_LINK_DOWN (R332). -/
def execPcieLinkDown (s : State) : Result := onBlk pcieLinkDown s

/-! ### QSPI transactions (R318, R319) -/

/-- The QSPI target serves the host. -/
def qspiOn (b : Blk) : Bool := b.flag Reg.HST_STATUS 0 && domOn b 9

/-- WRITE: into the write buffer, or discarded with WR_DROP while it drains. -/
def qspiWrite (a : Nat) (bs : List Byte) (b : Blk) : Blk :=
  if !qspiOn b then b
  else if b.flag Reg.HST_QSPI_STATUS 0 then (b.irq Reg.HST_QSPI_STATUS 4).irq Reg.HST_INT_STATUS 3
  else { b with host := { b.host with wbuf := some (a / 4 * 4, bs) } }.setFlag Reg.HST_QSPI_STATUS 0 true

/-- QSPI_WRITE (R319). -/
def execQspiWrite (addr : BitVec 32) (data : List Byte) (s : State) : Result := onBlk (qspiWrite addr.toNat data) s

/-- READ_REQ: ignored while RD_BUSY; a COUNT outside 1 to 64 acts as the nearest limit (R453). -/
def qspiReadReq (a n : Nat) (b : Blk) : Blk :=
  if !qspiOn b || b.flag Reg.HST_QSPI_STATUS 1 then b
  else { b with host := { b.host with rreq := some (a, limit 1 64 n) } }.setFld Reg.HST_QSPI_STATUS 2 1 1

/-- QSPI_READ_REQ (R319). -/
def execQspiReadReq (addr count : BitVec 32) (s : State) : Result := onBlk (qspiReadReq addr.toNat count.toNat) s

/-- READ_DATA returns the read buffer (R318). -/
def execQspiReadData (s : State) : Result := onBlk (fun b => if qspiOn b then b.emit (.qspi b.host.rbuf) else b) s

/-- The status word of Table 12-5. -/
def qspiStatus (b : Blk) : Nat := putBits (b.rdN Reg.HST_QSPI_STATUS) 8 8 (b2n b.host.hqLow)

/-- STATUS returns the word and clears its sticky bits (R319). -/
def qspiStatusRead (b : Blk) : Blk :=
  if qspiOn b then (b.emit (.qspi (toLE 4 (qspiStatus b)))).setFld Reg.HST_QSPI_STATUS 7 4 0 else b

/-- QSPI_STATUS (R319). -/
def execQspiStatus (s : State) : Result := onBlk qspiStatusRead s

/-- QSPI_BAD_OP (R318). -/
def execQspiBadOp (s : State) : Result := onBlk (fun b => if qspiOn b then b.irq Reg.HST_QSPI_STATUS 7 else b) s

end Sys2Proof.Machine
end

