-- ==== Sys2Proof/Machine/Rom.lean ====
section
/-!
DEFINITION. What the ROM does: boot, and recovery by the host or over T0 (R386, R387, R398 to R401).
-/
namespace Sys2Proof.Machine

/-! ### Boot (R386, R387) -/

/-- The address of backup register `n`. -/
def bkp (n : Nat) : Nat := 0x50004000 + 4 * n

/-- The boot record of BKP_14. -/
def bootRecord (b : Blk) (slot rec ea eb reason : Nat) : List Host.Cell :=
  leCells (bkp 14) 4 (slot + 2 * b.pwr.bootMode + 16 * rec + 256 * ea + 4096 * eb + 65536 * reason)

/-- BOOT_FAILS. -/
def bootFails (m : Mem) : Nat := w32 m (bkp 15) % 16

/-- The ROM enters recovery mode for `reason` (R387, R398). -/
def recoveryEntry (b : Blk) (ea eb reason : Nat) : Blk × List Host.Cell :=
  (b.setPwr { b.pwr with stage := .recovery }, bootRecord b 0 1 ea eb reason)

/-- The ROM loads an image's body into half 0 and jumps to its ENTRY (R387); firmware starts with what it restores from the settings area
(R309, R311). `direct`: the image comes from the host (R386). -/
def romJump (m : Mem) (b : Blk) (direct : Bool) (slot ea eb : Nat) (i : ImageAt) : Blk × List Host.Cell :=
  let entry := halfBase 0 + leAt (i.read 20 4) 0 4
  let b := retainedBack ((b.setFld Reg.FWU_STATUS 0 0 0).setFwu
    { b.fwu with
        running := slot, before := slot, awaitsHost := false, startedAt := entry, entry, entryBefore := entry, directBefore := none
        direct := if direct then some (i.read 0 256) else none })
  (b.setPwr { b.pwr with stage := .s6 },
    bootRecord b slot 0 ea eb 0 ++ leCells (bkp 15) 4 (min 15 (bootFails m + 1))
      ++ cellsAt (halfBase 0) (i.read 256 (leAt (i.read 16 4) 0 4)))

/-- An image boots from slot `s`, and raises the anti-rollback counter that it finds below its ROLLBACK (R387, R396). -/
def slotBoot (m : Mem) (b : Blk) (s ea eb : Nat) : Blk × List Host.Cell :=
  let r := romJump m b false s ea eb (slotImage m s)
  (rollbackSet (slotRollback m s) r.1, r.2)

/-- S5: the key slots, then the boot source; a DECOMMISSIONED device boots nothing, and HOST_DIRECT waits for the host (R386, R387,
R402, R406). -/
def romBoot (errA errB : Bool) (m : Mem) (b : Blk) : Blk × List Host.Cell :=
  if b.pwr.stage != .s5 || b.pwr.lifeCycle = 4 || b.fwu.awaitsHost then (b, [])
  else
    let b := keysLoad m b
    let mode := b.pwr.bootMode
    if b.otp.rootKeys = 0 then recoveryEntry b 0 0 1
    else if mode = 3 then recoveryEntry b 0 0 3
    else if 3 ≤ bootFails m then recoveryEntry b 0 0 4
    else if mode = 2 then (b.setFwu { b.fwu with awaitsHost := true }, [])
    else
      let first := preferredSlot m
      let check (s : Nat) : Nat := imageCheck b (if s = 0 then errA else errB) (slotImage m s)
      let c := check first
      let d := if c = 0 then 0 else check (1 - first)
      let b := slotSeen m b first c
      let b := if c = 0 then b else slotSeen m b (1 - first) d
      let ea := if first = 0 then c else d
      let eb := if first = 0 then d else c
      if c = 0 then slotBoot m b first ea eb
      else if d = 0 then slotBoot m b (1 - first) ea eb
      else recoveryEntry b ea eb 2

/-- ROM_BOOT (R387). -/
def execRomBoot (errA errB : Bool) (s : State) : Result := onMem (romBoot errA errB) s

/-! ### Writing a recovered image (R399, R401) -/

/-- The slot that is written: the one named, or the ROM's choice, which is the slot that is invalid, or B. -/
def recoverySlot (m : Mem) (b : Blk) (named : Nat) : Nat :=
  if named < 2 then named
  else if imageCheck b false (slotImage m 0) != 0 && imageCheck b false (slotImage m 1) == 0 then 0 else 1

/-- The image is written to its slot, which is erased first, and preferred; the recovery is counted for the Lifelog. -/
def recoveryWrite (m : Mem) (b : Blk) (named : Nat) (bs : List Byte) : Blk × List Host.Cell :=
  let s := recoverySlot m b named
  let b := lifeTotal b 79
  (b.setFwu { b.fwu with recOk := some b.now },
    cellsAt (slotBase s) (bs ++ List.replicate (0x400000 - bs.length) 0xFF#8) ++ setPreferred m s)

/-- The ROM waits for an image from the host: in recovery mode, or under HOST_DIRECT once it has found no cause for recovery (R386, R387).
A DECOMMISSIONED device takes none (R402). -/
def hostImage (b : Blk) : Bool := b.pwr.lifeCycle != 4 && (b.pwr.stage = .recovery || (b.pwr.stage = .s5 && b.fwu.awaitsHost))

/-- FWU_REC_CMD.GO (R399). -/
def recoveryGo (v : Nat) (b : Blk) : Blk :=
  if hostImage b then (b.setFlag Reg.FWU_REC_STATUS 0 true).wrN Reg.FWU_REC_CMD v else b

/-- RECOVERY_GO (R399). -/
def execRecoveryGo (value : Word) (s : State) : Result := inDom 1 (onBlk (recoveryGo value.toNat)) s

/-- The image in the Pool is verified and written to its slot, or run under HOST_DIRECT; RESULT and ERR tell (R386, R399). -/
def recoveryDone (err : Bool) (m : Mem) (b : Blk) : Blk × List Host.Cell :=
  if !b.flag Reg.FWU_REC_STATUS 0 || !hostImage b then (b, [])
  else
    let n := min 0x400000 (b.rdN Reg.FWU_REC_LEN)
    let img : ImageAt := { size := n, read := fun o k => m.bytes (0x10000000 + o) k }
    let c := imageCheck b err img
    if c != 0 then (b.wrN Reg.FWU_REC_STATUS (256 * c + 65536 * 0x60), [])
    else
      let b := b.wr Reg.FWU_REC_STATUS 0#32
      if b.pwr.stage = .s5 then romJump m b true 0 0 0 img
      else recoveryWrite m b (b.fld Reg.FWU_REC_CMD 2 1) (m.bytes 0x10000000 n)

/-- RECOVERY_DONE (R399). -/
def execRecoveryDone (err : Bool) (s : State) : Result := onMem (recoveryDone err) s

/-! ### Recovery over T0 (R400, R401) -/

/-- A recovery message (Table 15-10). -/
def recBytes (type block status : Nat) (data : List Byte) : List Byte :=
  let p := toLE 1 0xEC ++ toLE 1 type ++ toLE 2 block ++ toLE 2 data.length ++ toLE 2 status ++ data
  p ++ toLE 4 (crc32 p)

/-- The ROM sends a message from T0 as DIRECTED, with a UDP checksum of 0; the spec states no queue (log entry 46). -/
def recSend (b : Blk) (dst : Nat × Nat × Nat) (type block status : Nat) (data : List Byte) : Blk :=
  trkSend b.drawn 0 (udpFull (Config.freeValue b.freeCount) recMac dst.1 0 (recIp b) dst.2.1 47744 dst.2.2 0 none
    (recBytes type block status data)) (some [0])

/-- Every 1 s without a session the ROM broadcasts a HELLO (R400). -/
def recHello (m : Mem) (b : Blk) : Blk :=
  if b.pwr.stage != .recovery || b.fwu.session.isSome || b.fwu.helloAt.any (fun t => decide (b.now < t + 1000 * msClocks)) then b
  else
    let r := w32 m (bkp 14)
    recSend (b.setFwu { b.fwu with helloAt := some b.now }) (0xFFFFFFFFFFFF, 0xFFFFFFFF, 47744) 1 0 0
      (toLE 8 uniqueId ++ slice cartouche 24 2 ++ toLE 1 (b.fld Reg.FWU_LC 2 0) ++ toLE 1 (bits r 19 16)
        ++ toLE 1 (bits r 11 8) ++ toLE 1 (bits r 15 12) ++ toLE 2 0)

/-- REC_HELLO (R400). -/
def execRecHello (s : State) : Result := onView recHello s

/-- The oldest frame that T0 has given the ROM, taken where it is one of the kind `ok`. -/
def recTake (b : Blk) (ok : List Byte → Bool) : Option (List Byte × Blk) :=
  (inboxTake b 0).bind fun r => if ok r.1.2.2 then some (r.1.2.2, r.2) else none

/-- The message of TYPE `t` that stands first: its source, BLOCK and data. -/
def recNext (b : Blk) (t : Nat) : Option (((Nat × Nat × Nat) × Nat × List Byte) × Blk) :=
  (recTake b (fun f => (recParse b f).any (fun x => x.2.1 == t))).bind fun r =>
    (recParse b r.1).map (fun x => ((x.1, x.2.2), r.2))

/-- The ROM answers an ARP request for its address (R400). -/
def recArp (b : Blk) : Blk :=
  match recTake b (recAsks b) with
  | some (f, b) =>
    let p := f.drop (ethOf f).off
    trkSend b 0 (toBE 6 (beAt p 8 6) ++ toBE 6 recMac ++ toBE 2 0x0806 ++ toBE 8 0x0001080006040002
      ++ toBE 6 recMac ++ toBE 4 (recIp b) ++ slice p 8 10 ++ List.replicate 18 0#8) (some [0])
  | none => b

/-- REC_ARP (R400). -/
def execRecArp (s : State) : Result := onBlk recArp s

/-- The session takes `x`. -/
def setSession (b : Blk) (x : Option RecSession) : Blk := b.setFwu { b.fwu with session := x }

/-- A RESULT (R401). -/
def recResult (b : Blk) (dst : Nat × Nat × Nat) (r : Nat × Nat) : Blk := recSend b dst 6 0 r.1 (toLE 1 r.2 ++ toLE 3 0)

/-- START (R401): opens a session; from its own source it is acknowledged again, from another it gets BUSY. -/
def recStart (b : Blk) : Blk :=
  match recNext b 2 with
  | none => b
  | some ((src, _, d), b) =>
    let total := leAt d 0 4
    let slot := leAt d 4 1
    if d.length != 8 || total < 257 || 4194304 < total || !(slot < 2 || slot == 0xFF) then b
    else match b.fwu.session with
      | none => recSend (setSession b (some { src, total, slot, heard := b.now })) src 4 0 0 []
      | some x =>
        if x.src = src then recSend (setSession b (some { x with heard := b.now })) src 4 x.next 0 []
        else recResult b src (0x30, 0)

/-- REC_START (R401). -/
def execRecStart (s : State) : Result := onBlk recStart s

/-- DATA (R401): the block expected is taken; any other is acknowledged with the block expected. -/
def recData (b : Blk) : Blk :=
  match recNext b 3, b.fwu.session with
  | some ((src, block, d), b), some x =>
    if x.src != src then b
    else
      let want := min 1024 (x.total - x.bytes.length)
      let take := block == x.next && d.length == want && decide (0 < want)
      let x := if take then { x with next := x.next + 1, bytes := x.bytes ++ d } else x
      recSend (setSession b (some { x with heard := b.now })) src 4 x.next 0 []
  | some (_, b), none => b
  | none, _ => b

/-- REC_DATA (R401). -/
def execRecData (s : State) : Result := onBlk recData s

/-- END (R401): the image is checked and written, and the RESULT sent; a repeated END gets the same. -/
def recEnd (m : Mem) (b : Blk) : Blk × List Host.Cell :=
  match recNext b 5, b.fwu.session with
  | some ((src, _), b), some x =>
    if x.src != src then (b, [])
    else match x.result with
      | some r => (recResult (setSession b (some { x with heard := b.now })) src r, [])
      | none =>
        let c := if x.bytes.length < x.total then 1
          else imageCheck b false { size := x.bytes.length, read := fun o k => slice x.bytes o k }
        let r := (if c = 0 then 0 else 0x60, c)
        let b := setSession b (some { x with heard := b.now, result := some r })
        let w := if c = 0 then recoveryWrite m b x.slot x.bytes else (b, [])
        (recResult w.1 src r, w.2)
  | some (_, b), none => (b, [])
  | none, _ => (b, [])

/-- REC_END (R401). -/
def execRecEnd (s : State) : Result := onMem recEnd s

/-- 10 s without a message: the session closes (R401). -/
def recSessionTimeout (b : Blk) : Blk :=
  match b.fwu.session with
  | some x => if x.heard + 10000 * msClocks ≤ b.now then setSession b none else b
  | none => b

/-- REC_SESSION_TIMEOUT (R401). -/
def execRecSessionTimeout (s : State) : Result := onBlk recSessionTimeout s

/-- 100 ms after RESULT OK, the ROM clears BOOT_FAILS and takes a warm reset (R401). -/
def recRestart (_ : Mem) (b : Blk) : Blk × List Host.Cell :=
  if b.fwu.recOk.any (fun t => decide (t + 100 * msClocks ≤ b.now)) then
    (resetRaise 7 (b.setFwu { b.fwu with recOk := none }), leCells (bkp 15) 4 0)
  else (b, [])

/-- REC_RESTART (R401). -/
def execRecRestart (s : State) : Result := onMem recRestart s

end Sys2Proof.Machine
end

