-- ==== Sys2Proof/Machine/RegRead.lean ====
section
/-!
DEFINITION. Reads of the register region: error responses (R10, R14, R405), registers whose value is formed when they are read,
captures (R36), and reads that act (R52, R86, R324, R345).
-/
namespace Sys2Proof.Machine

/-! ### Where an address falls -/

/-- Address `a` is word `k` of instance `i`, of `count` instances `stride` bytes apart with `len` words each from `base` on. -/
def grp (a base stride count len : Nat) : Option (Nat × Nat) :=
  if base ≤ a && (a - base) % 4 = 0 && (a - base) / stride < count && (a - base) % stride < 4 * len then
    some ((a - base) / stride, (a - base) % stride / 4)
  else none

/-- Address `a` is instance `i` of a register. -/
def inst (a base stride count : Nat) : Option Nat := (grp a base stride count 1).map (·.1)

/-- The registers a locked debug port reaches: the challenge, the token and its status (R405). -/
def debugReach (a : Nat) : Bool :=
  (grp a Reg.FWU_TOKEN_STATUS 4 1 1).isSome || (Reg.FWU_DBG_CHALLENGEx 0 ≤ a && a ≤ Reg.FWU_DBG_CHALLENGEx 3)
    || (Reg.FWU_TOKEN_x 0 ≤ a && a ≤ Reg.FWU_TOKEN_CMD)

/-- An access of `who` to register address `a` is answered, not with an error: a block is there, its domain is on, the
Skein's host aperture is for PCIe alone and its fabric aperture for the others, and a locked debug port may reach it (R10, R14, R344,
R405). -/
def regReach (b : Blk) (who : Requester) (a : Nat) : Bool :=
  (match regDomain a with
   | some d => domOn b d
   | none => false)
    && !(0x400E4000 ≤ a && a < 0x400EC000 && (who == .pcie) != decide (0x400E8000 ≤ a)) && (!shutOut b who || debugReach a)

/-! ### Registers whose value is formed when they are read -/

/-- The clocks from `t` to now. -/
def since (b : Blk) (t : Nat) : Nat := b.now - t

/-- PAIR_STATUS with FORCED, LATCHING and LINK (Table 11-9). -/
def pairStatusNow (b : Blk) : Nat :=
  putBits (b.rdN Reg.PAIR_STATUS) 6 4
    (b2n (pairForce b != 0) + 2 * b2n (pairLatching b) + 4 * b2n (b.flag Reg.TRK_STATUS (pairLink b)))

/-- PAIR_PEER_AGE: microseconds since the partner's claim, all ones before the first. -/
def pairAgeNow (b : Blk) : Nat :=
  match b.pair.lastClaim with
  | some t => sat32 (since b t / 1000)
  | none => max32

/-- PAIR_REVERT_REMAIN: seconds until HOLD clears; the whole of REVERT_HOLD while its time does not run (R292). -/
def pairRevertNow (b : Blk) : Nat :=
  let all := b.fld Reg.PAIR_TIMING 15 0
  if !pairHold b then 0
  else match b.pair.holdFrom with
    | some t => all - since b t / 10 ^ 9
    | none => all

/-- STC_STATUS with SUPPRESSED, IN_FLIGHT and ACTIVE_BATCHES (Table 5-9). -/
def stcStatusNow (b : Blk) : Nat :=
  let act := (b.stc.batches.filter (fun t => t.state == .active)).length
  putBits (putBits (putBits (b.rdN Reg.STC_STATUS) 4 4 (b2n (merWithheld b (stcMer b)))) 15 8 (stcFlying b)) 21 16 act

/-- DRV_CH_SUMMARY. -/
def drvSummary (b : Blk) : Nat :=
  ((List.range 16).map (fun c => if pendReg b (Reg.DRV_c_INT_STATUS c) (Reg.DRV_c_INT_ENABLE c) then 2 ^ c else 0)).sum

/-- DRV_HOLD_REMAIN: milliseconds left in HOLD. -/
def drvHoldNow (b : Blk) : Nat :=
  match b.drv.holdEnd with
  | some t => (t - b.now + 999999) / 1000000
  | none => 0

/-- DRV_SNSs_STAT with the time since the last good reading, 0 as at reset before the first one (Table 9-3). -/
def snsStatNow (b : Blk) (s : Nat) : Nat :=
  putBits (b.rdN (Reg.DRV_SNSs_STAT s)) 31 16 ((Tab.at none b.drv.snsGood s).elim 0 (fun t => min 65535 (since b t / 1000000)))

/-- MERm_GAP_US: the gap so far, while one lasts. -/
def gapNow (b : Blk) (m : Nat) : Nat :=
  match (b.mer m).gapClock with
  | some t => if b.flag (Reg.MERm_STATUS m) 4 then sat32 (since b t / 1000) else b.rdN (Reg.MERm_GAP_US m)
  | none => b.rdN (Reg.MERm_GAP_US m)

/-- The registers of one instance that are formed at a read. -/
def lookOne (b : Blk) (a : Nat) : Option Nat :=
  if a = Reg.SYS_INT_SUMMARY then some (intSummary b)
  else if a = Reg.HST_SRC_PEND_LO then some (sourcesPend b % 2 ^ 32)
  else if a = Reg.HST_SRC_PEND_HI then some (sourcesPend b / 2 ^ 32)
  else if a = Reg.HST_QSPI_STATUS then some (qspiStatus b)
  else if a = Reg.STR_INT_SUMMARY then some (strSummary b)
  else if a = Reg.DRV_CH_SUMMARY then some (drvSummary b)
  else if a = Reg.DRV_HOLD_REMAIN then some (drvHoldNow b)
  else if a = Reg.STC_STATUS then some (stcStatusNow b)
  else if a = Reg.PAIR_STATUS then some (pairStatusNow b)
  else if a = Reg.PAIR_PEER_AGE then some (pairAgeNow b)
  else if a = Reg.PAIR_REVERT_REMAIN then some (pairRevertNow b)
  else if a = Reg.PWR_WAKE_STATUS && domOn b 3 then
    some (putBits (b.rdN a) 0 0 (b2n (b.flag Reg.TRK_STATUS (b.fld Reg.PWR_WAKE_CTRL 2 1))))
  else if a = Reg.TRK_STATUS then some (putBits (b.rdN Reg.TRK_STATUS) 8 8 (b2n (!b.trk.intSeen)))
  else if a = Reg.DBL_RAISE then some (b.rdN Reg.DBL_STATUS)
  else if a = Reg.DMA_STATUS then some (dmaStatus b)
  else none

/-- The registers of several instances that are formed at a read. -/
def lookMany (b : Blk) (a : Nat) : Option Nat :=
  ((inst a (Reg.DMA_CHn_STATUS 0) 0x40 16).map (fun n => putBits (b.rdN a) 4 4 (b2n (dmaOwned b n))))
  <|> ((inst a (Reg.DRV_SNSs_STAT 0) 0x10 64).map (snsStatNow b))
  <|> ((inst a (Reg.CAL_STRn_AGE_MS 0) 0x20 32).map (fun n => calAgeMs b n))
  <|> ((inst a (Reg.CAL_DRVc_AGE_MS 0) 0x20 16).map (fun c => calAgeMs b (32 + c)))
  <|> ((inst a (Reg.CAL_TRKp_AGE_MS 0) 0x10 4).map (fun p => calAgeMs b (48 + p)))
  <|> (((inst a (Reg.SKN_Qn_FLAGS 0) 0x40 256) <|> (inst a (Reg.SKN_Hn_FLAGS 0) 0x40 256)).map (sknFlagsNow b))
  <|> ((inst a (Reg.MERm_GAP_US 0) 0x200 2).map (gapNow b))
  <|> ((inst a (Reg.MERm_SLEW_REMAIN 0) 0x200 2).map (fun m => ux 32 (merSlewRemain b m)))
  <|> ((grp a (Reg.TRK_Pp_TSQ_Wx 0 0) 0x40 4 4).map (fun x => (tsqWords (b.tsqOf x.1)).getD x.2 0))
  <|> ((grp a (Reg.EVT_INj_Fx 0 0) 0x40 4 6).map (fun x => evtInWord b x.1 x.2))

/-- The value of register `a` to a reader, captures and reads that act apart: a WO register reads 0 (R6). -/
def look (b : Blk) (a : Nat) : Nat :=
  match lookOne b a with
  | some v => v
  | none =>
    match lookMany b a with
    | some v => v
    | none =>
      match regRow a with
      | some r => if r.acc = .wo then 0 else b.rdN a
      | none => 0

/-! ### Captures (R36) -/

/-- Registers `k` from `a` on, as they stand. -/
def wordsAt (b : Blk) (a k : Nat) : List Nat := (List.range k).map (fun j => b.rdN (a + 4 * j))

/-- The words of a value that is captured whole, where `a` is its word `k`: `k` and the words now. -/
def capWords (b : Blk) (a : Nat) : Option (Nat × List Nat) :=
  let val (base stride count len : Nat) (f : Nat → List Nat) : Option (Nat × List Nat) :=
    (grp a base stride count len).map (fun x => (x.2, f x.1))
  let plain (base stride count len : Nat) : Option (Nat × List Nat) :=
    (grp a base stride count len).map (fun x => (x.2, wordsAt b (base + stride * x.1) len))
  val (Reg.TBn_TIME_SUBNS 0) 0x100 4 4 (fun n => tbTimeWords (b.tb n).time)
  <|> plain (Reg.TBn_LAST_OFS_LO 0) 0x100 4 2
  <|> plain (Reg.TBn_LAST_REFUSED_LO 0) 0x100 4 2
  <|> val Reg.TB0_PAIR_DIFF_LO 8 1 2 (fun _ => [ux 64 (pairDiff b) % 2 ^ 32, ux 64 (pairDiff b) / 2 ^ 32])
  <|> plain Reg.TB0_PAIR_DSW_LO 8 1 2
  <|> val (Reg.MERm_POS_x 0 0) 0x200 2 8 (merSnapshot b)
  <|> plain (Reg.MERm_SEG_x 0 0) 0x200 2 8
  <|> plain (Reg.TRK_Pp_RX_OCTETS_LO 0) 0x400 5 2
  <|> plain (Reg.TRK_Pp_TX_OCTETS_LO 0) 0x400 5 2
  <|> plain Reg.RST_RFRAME_COUNT_LO 8 1 2
  <|> plain (Reg.DMA_CHn_DESC_LO 0) 0x40 16 2
  <|> plain (Reg.DMA_CHn_LAST_LO 0) 0x40 16 2
  <|> plain (Reg.DMA_CHn_ERR_ADDR_LO 0) 0x40 16 2
  <|> plain (Reg.CRC_n_POLY_LO 0) 0x80 8 2
  <|> plain (Reg.CRC_n_INIT_LO 0) 0x80 8 2
  <|> plain (Reg.CRC_n_XOROUT_LO 0) 0x80 8 2
  <|> plain (Reg.CRC_n_VALUE_LO 0) 0x80 8 2
  <|> plain (Reg.CRC_n_EXPECT_LO 0) 0x80 8 2
  <|> plain (Reg.CRC_n_RESULT_LO 0) 0x80 8 2

/-- A register held per requester: the staging words of a time base, and the captured words of a pop (R36, R345). -/
def perRequester (a : Nat) : Bool :=
  (grp a (Reg.TBn_SET_SUBNS 0) 0x100 4 6).isSome || (grp a (Reg.SKN_Qn_POPx 0 0) 0x40 256 4).isSome
    || (grp a (Reg.SKN_Hn_POPx 0 0) 0x40 256 4).isSome

/-! ### Reads -/

/-- A read that removes or takes what it reads: its value, the block after it, and success. -/
def readActs (who : Requester) (a : Nat) (b : Blk) : Option (Nat × Blk × Bool) :=
  ((inst a (Reg.TRK_Pp_TSQ_Wx 0 3) 0x40 4).map (fun p => ((tsqTake p b).1, (tsqTake p b).2, true)))
  <|> ((inst a (Reg.EVT_INj_Fx 0 5) 0x40 4).map (fun j => (evtInWord b j 5, evtRemove j b, true)))
  <|> ((inst a (Reg.MBX_LOCK_n 0) 4 32).map (fun n => ((lockRead n who b).1, (lockRead n who b).2, true)))
  <|> ((inst a (Reg.SKN_Qn_POPx 0 0) 0x40 256).map (fun n => let r := skeinPop n false who b; (r.2.1, r.1, r.2.2)))
  <|> ((inst a (Reg.SKN_Hn_POPx 0 0) 0x40 256).map (fun n => let r := skeinPop n true who b; (r.2.1, r.1, r.2.2)))

/-- A read of register `a` by `who`: the value, success, and the block after it. -/
def regRead (who : Requester) (a : Nat) (b : Blk) : Nat × Bool × Blk :=
  if !regReach b who a then (0, false, b)
  else match readActs who a b with
    | some (v, b', ok) => (if ok then v else 0, ok, b')
    | none =>
      match capWords b a with
      | some (0, ws) => (ws.getD 0 0, true, b.capture who a ws)
      | some _ => ((b.latch who a).toNat, true, b)
      | none => if perRequester a then ((b.latch who a).toNat, true, b) else (look b a, true, b)

/-- A read completes to its requester. -/
def regReadDone (who : Requester) (a : Nat) (b : Blk) : Blk :=
  let r := regRead who a b
  r.2.2.emit (.readDone who a (BitVec.ofNat 32 r.1) (!r.2.1))

/-- MULTIWORD_CAPTURE_READ (R36). -/
def execMultiwordCaptureRead (who : Requester) (addr : BitVec 32) (s : State) : Result := onBlk (regReadDone who addr.toNat) s

end Sys2Proof.Machine
end

