-- ==== Sys2Proof/Machine/RegWrite.lean ====
section
/-!
DEFINITION. Writes of the register region (R5 to R10, R453): what a register stores under its access code, and what its write does.
A trigger bit acts by the operation of the command that names it. Triggers in one word act in the order written here (log entry 56).
-/
namespace Sys2Proof.Machine

/-- What a write leaves: the block, cells of memory, and success. -/
abbrev WriteRes := Blk × List Host.Cell × Bool

/-- A write that succeeds and writes no memory. -/
def wOk (b : Blk) : WriteRes := (b, [], true)

/-- What a register stores (R6): the bits of `rw`, less the 1s written to bits of `w1c` that hardware has not set in this clock (R7); a
RWC register stages the word (R8). A WO, W1S or reserved bit stores nothing. -/
def regStore (r : RegRow) (a : Nat) (v : Word) (b : Blk) : Blk :=
  let rw := BitVec.ofNat 32 r.rw
  let w1c := BitVec.ofNat 32 r.w1c &&& ~~~BitVec.ofNat 32 (b.raisedNow a)
  if r.acc = .rwc then b.stage a (v &&& rw).toNat
  else (b.lowered a (v.toNat &&& r.w1c)).wr a ((b.rd a &&& ~~~rw &&& ~~~(v &&& w1c)) ||| (v &&& rw))

/-! ### Registers whose write is not a plain store -/

/-- A 64-bit pair at `lo`: the low word waits, per requester, for the write of the high word, which commits both (R36, R343, R358). -/
def pairStore (b : Blk) (who : Requester) (lo k : Nat) (v : Word) : Blk :=
  if k = 0 then b.setLatch who (lo + 1) v
  else match inst lo (Reg.CRC_n_VALUE_LO 0) 0x80 8 with
    | some n => crcWritten b n ((b.latch who (lo + 1)).toNat + 2 ^ 32 * v.toNat)
    | none => (b.wr lo (b.latch who (lo + 1))).wr (lo + 4) v

/-- The pairs that a write of the high word commits. -/
def pairAt (a : Nat) : Option (Nat × Nat) :=
  let two (base stride count : Nat) : Option (Nat × Nat) := (grp a base stride count 2).map (fun x => (base + stride * x.1, x.2))
  two (Reg.DMA_CHn_DESC_LO 0) 0x40 16 <|> two (Reg.CRC_n_POLY_LO 0) 0x80 8 <|> two (Reg.CRC_n_INIT_LO 0) 0x80 8
    <|> two (Reg.CRC_n_XOROUT_LO 0) 0x80 8 <|> two (Reg.CRC_n_VALUE_LO 0) 0x80 8 <|> two (Reg.CRC_n_EXPECT_LO 0) 0x80 8
    <|> two Reg.RST_RFRAME_COUNT_LO 8 1

/-- Words held per requester until another write uses them (R36, R345); TBn_STEP_HI too, which R36 does not list, so that a step is one
requester's (log entry 62). -/
def heldWord (a : Nat) : Bool :=
  (grp a (Reg.TBn_SET_SUBNS 0) 0x100 4 7).isSome || (grp a (Reg.SKN_Qn_PUSHx 0 0) 0x40 256 3).isSome
    || (grp a (Reg.SKN_Hn_PUSHx 0 0) 0x40 256 3).isSome

/-- Counters that any write clears (R90, R380). -/
def clearsOnWrite (a : Nat) : Bool :=
  a = Reg.RST_WDT_BADKICK || a = Reg.RST_RFRAME_ACCEPT || a = Reg.RST_RFRAME_REJECT || (grp a Reg.WPT_MISSED_COUNT 12 1 3).isSome || (inst a (Reg.EVT_OUTk_COUNT 0) 0x10 8).isSome
    || (inst a (Reg.EVT_INj_LOST 0) 0x40 4).isSome

/-- Write-only words that a later command uses: a key, a token (R404, R406). -/
def keptWord (a : Nat) : Bool := (grp a (Reg.FWU_KEY_DATAx 0) 24 1 6).isSome || (grp a (Reg.FWU_TOKEN_x 0) 100 1 25).isSome

/-- The channel whose register `a` is. -/
def dmaChanAt (a : Nat) : Option Nat := (grp a (Reg.DMA_CHn_CTRL 0) 0x40 16 16).map (·.1)

/-- The writes that do more or less than store. -/
def regSpecial (who : Requester) (a : Nat) (v : Word) (host : List Byte) (mem : Mem) (b : Blk) : Option WriteRes :=
  let n := v.toNat
  if (dmaChanAt a).any (fun c => dmaOwned b c) then some (wOk b)
  else if heldWord a then
    some (wOk (b.setLatch who a (match regRow a with
      | some r => if r.acc = .wo then v else v &&& BitVec.ofNat 32 r.rw
      | none => v)))
  else if clearsOnWrite a then some (wOk (b.wr a 0#32))
  else if keptWord a then some (wOk (b.wr a v))
  else if a = Reg.PWR_DOMAIN then some (wOk (pwrDomainWrite n mem b))
  else if a = Reg.SKN_CTRL then some (wOk (onSet (bit n 8) sknClrCounts (skeinMode n b)))
  else if a = Reg.SKN_CELLS then some (wOk (if b.flag Reg.SKN_CTRL 0 then b else sknCellShow (b.wrN a (n % 2 ^ 17))))
  else if a = Reg.DBL_RAISE then some (wOk (b.raise Reg.DBL_STATUS v))
  else if a = Reg.MBX_LOCK_BREAK then some (wOk (lockBreak who n b))
  else
    ((pairAt a).map (fun x => wOk (pairStore b who x.1 x.2 v)))
    <|> ((inst a (Reg.DRV_c_CTRL 0) 0x100 16).map (fun c =>
      let old := b.rdN a
      let b := (b.wrN a (putBits (bits n 31 0 % 8) 11 8 (bits old 11 8))).stage a (n % 4096)
      let b := onSet (bit n 16) (drvClrCounts (some c)) (drvCtrlWritten (onSet (bit old 0 && !bit n 0) (drvJobAbort · c) b))
      wOk (onSet (bit n 15) (drvFaultClr c) b)))
    <|> ((inst a (Reg.MBX_m_TAG 0) 0x20 16).map (fun m => let r := mbxPost m who n host mem b; (r.1, [], r.2)))
    <|> ((inst a (Reg.MBX_m_ACK 0) 0x20 16).map (fun m => let r := mbxAck m who n b; (r.1, [], r.2)))
    <|> ((inst a (Reg.MBX_LOCK_n 0) 4 32).map (fun k => wOk (lockWrite k who n b)))
    <|> ((inst a (Reg.SKN_Qn_QUOTA 0) 0x20 256).map (fun q => wOk (skeinQuota q n b)))
    <|> ((inst a (Reg.SKN_Qn_PUSHx 0 3) 0x40 256).map (fun q => skeinPush q false who n mem b))
    <|> ((inst a (Reg.SKN_Hn_PUSHx 0 3) 0x40 256).map (fun q => skeinPush q true who n mem b))

/-! ### What a stored write does, by block -/

/-- SYS and RSTPWR (Tables 1-11, 14-8). -/
def actsSys (who : Requester) (a old v : Nat) (b : Blk) : Blk :=
  if a = Reg.SYS_FAB_CTRL then fabCtrlWritten b v
  else if a = Reg.RST_CTRL then onSet (bit v 0) (swReset v) b
  else if a = Reg.RST_DOMAIN then domainReset v b
  else if a = Reg.RST_WDTc_CTRL 0 then wdtCtrlWritten b 0 old
  else if a = Reg.RST_WDTc_CTRL 1 then wdtCtrlWritten b 1 old
  else if a = Reg.RST_WDTHW_CTRL then wdtCtrlWritten b 2 old
  else if a = Reg.RST_WDTc_KICK 0 then wdtKick 0 who v b
  else if a = Reg.RST_WDTc_KICK 1 then wdtKick 1 who v b
  else if a = Reg.RST_WDTHW_KICK then wdtKick 2 who v b
  else if a = Reg.PWR_CTRL then onSet (bit v 0) dormantEntry b
  else if a = Reg.PWR_WAKE_STATUS then b.wr Reg.PWR_WAKE_SEEN 0#32
  else if a = Reg.BKP_CTRL then onSet (bit v 0) (bkpWipe who) b
  else b

/-- The time bases (Tables 2-12, 2-15, 2-17). -/
def actsTime (who : Requester) (a old v : Nat) (b : Blk) : Blk :=
  if a = Reg.TB0_PAIR_CTRL then pairCtrlWritten b old
  else if a = Reg.TRK_SYNCE_CTRL then synceCtrlWritten b old
  else match inst a (Reg.TBn_CTRL 0) 0x100 4 with
    | some n =>
      let b := tbCtrlWritten b n old
      let b := onSet (bit v 11) (tbClrCounts n) b
      let b := onSet (bit v 10) (acceptJump n) b
      if bit v 8 then tbSet n who b else onSet (bit v 9) (tbStep n who) b
    | none =>
      match inst a (Reg.TBn_OFS_HI 0) 0x100 4 with
      | some n => tbOffsetSample n who (BitVec.ofNat 32 v) b
      | none =>
        match inst a (Reg.TBn_FREQ_SET 0) 0x100 4 with
        | some n => onSet (tbState b n == 1) (fun b => tbSetFreq b n (b.rdI a)) b
        | none =>
          match inst a (Reg.TRK_Pp_TSQ_STATUS 0) 0x40 4 with
          | some p => tsqStatusWritten p b
          | none => b

/-- Meridians, Waypoints and event pins (Tables 3-12 and 3-16). -/
def actsMer (a old v : Nat) (b : Blk) : Blk :=
  if a = Reg.WPT_CTRL then wptCtrlWritten (onSet (bit v 8) wptClearAll b) old
  else if a = Reg.WPT_CMD then
    (match v % 4 with
     | 1 => wptWrite b
     | 2 => wptRead b
     | 3 => wptCancel b
     | _ => b)
  else match inst a (Reg.MERm_CTRL 0) 0x200 2 with
    | some m =>
      let b := merCtrlWritten b m old
      let b := onSet (bit v 12) (merClrCounts m) b
      let b := onSet (bit v 11) (fun b => merSetQueue b m []) b
      let b := onSet (bit v 10) (modelLoad m (bit v 13)) b
      let b := onSet (bit v 9) (fun b => merDropStaged b m) b
      onSet (bit v 8) (meridianCommit m) b
    | none =>
      match inst a (Reg.EVT_OUTk_CTRL 0) 0x10 8 with
      | some k => evtCtrlWritten b k
      | none => b

/-- The canvas block (Table 4-7). -/
def actsCnv (a old v : Nat) (mem : Mem) (b : Blk) : Blk :=
  if a = Reg.CNV_CTRL then onSet (bit v 8) canvasApply (onSet (bit v 9) cnvClrCounts (cnvCtrlWritten b old))
  else if a = Reg.CNV_NEXT then onSet (bit v 0) (cnvNext [] mem) b
  else if a = Reg.CNV_HOST_CTRL then onSet (bit v 8) hostGo b
  else b

/-- The Stitch engine (Tables 5-9 and 5-10). -/
def actsStc (a v : Nat) (mem : Mem) (b : Blk) : Blk :=
  if a = Reg.STC_CTRL then
    let b := onSet (bit v 10) stcClrCounts (stcCtrlWritten b)
    let b := onSet (bit v 11) discardStaged b
    onSet (bit v 9) stcHalt (onSet (bit v 8) programLoad b)
  else if a = Reg.STC_FLOW_CANCEL then flowCancel (v % 1024) b
  else if a = Reg.STC_CUE then stcCue (v % 4096) mem b
  else if a = Reg.STC_DELAY_FLUSH then delayFlush (bit v 0) (bit v 1) b
  else if a = Reg.STC_PARAM_CMD then onSet (bit v 16) (paramWrite (v % 1024) (bits v 13 12)) b
  else b

/-- The strand ports (Table 7-10). -/
def actsStr (a old v : Nat) (mem : Mem) (b : Blk) : Blk :=
  match grp a (Reg.STR_n_CTRL 0) 0x200 32 32 with
  | none => b
  | some (n, _) =>
    if a = Reg.STR_n_CTRL n then
      let b := onSet (bit v 16) (strClrCounts n) (strCtrlWrite mem b n old)
      onSet (bit v 11) (parkStart n) b
    else if a = Reg.STR_n_RATE n then strRateNow b n
    else if a = Reg.STR_n_PHY n then phyWritten b n
    else if a = Reg.STR_n_CTL_CMD n then onSet (bit v 0) (ctlGo n mem) b
    else if a = Reg.STR_n_SURVEY_CTRL n then onSet (bit v 1) (surveyAbort n) (onSet (bit v 0) (surveyStart n) b)
    else if a = Reg.STR_n_RING n || a = Reg.STR_n_MIRROR n then strSync b n
    else b

/-- The drive block (Tables 9-3 and 9-4). -/
def actsDrv (a v : Nat) (b : Blk) : Blk :=
  if a = Reg.DRV_CTRL then onSet (bit v 9) drvReclaim (onSet (bit v 8) (drvClrCounts none) (drvCtrlWritten b))
  else if a = Reg.DRV_INT_STATUS then onSet (bit v 1 && !b.flag Reg.DRV_INT_STATUS 1) (fun b => b.setFlag Reg.DRV_STATUS 17 false) b
  else match grp a (Reg.DRV_c_THERM 0) 0x100 16 9 with
    | some (c, k) => thermWritten (k == 0) b c
    | none =>
      match grp a (Reg.DRV_c_FSW 0) 0x100 16 4 with
      | some (c, _) => drvSwitchWritten b c
      | none => b

/-- The trunk switch and E1.31 (Tables 8-10 and 10-12). -/
def actsTrk (a old v : Nat) (b : Blk) : Blk :=
  if a = Reg.TRK_CTRL then
    let b := onSet (bit v 0) (fun b => b.setTrk { b.trk with intSeen := true }) b
    onSet (bit v 9) (trkClrCounts none) (onSet (bit v 8) (fun b => fdbForget b (fun _ => true)) b)
  else if a = Reg.TRK_Q_RESERVE then trkCells b
  else if a = Reg.TRK_TBL_CMD then
    (match v % 4 with
     | 1 => tblWrite v b
     | 2 => tblRead v b
     | 3 => tblDelete v b
     | _ => b)
  else if a = Reg.E131_CTRL then onSet (bit v 8) e131ClrCounts b
  else match inst a (Reg.TRK_RINGi_CTRL 0) 0x20 2 with
    | some i => trkSync (ringCtrlWritten b i old)
    | none =>
      match inst a (Reg.TRK_Pp_CTRL 0) 0x400 4 with
      | some p =>
        let b := onSet (bit v 16) (trkClrCounts (some p)) (trkSync b)
        onSet (bits v 2 0 != bits old 2 0) (portModeChange p (bits v 2 0)) b
      | none =>
        match inst a (Reg.TRK_RXr_TAIL 0) 0x40 16 with
        | some r => rxTailWritten b r old
        | none => b

/-- The PAIR block (Tables 11-7 and 11-8). -/
def actsPair (a old v : Nat) (b : Blk) : Blk :=
  if a = Reg.PAIR_CTRL then onSet (bit v 8) pairClrCounts (unitCtrlWritten b old)
  else if a = Reg.PAIR_FORCE_CTRL then pairForceWritten b v
  else if a = Reg.PAIR_WKR_HEARD then pairWkrHeard v b
  else b

/-- DMA (Table 13-5). -/
def actsDma (a old v : Nat) (host : List Byte) (mem : Mem) (b : Blk) : WriteRes :=
  if a = Reg.DMA_CTRL then wOk (onSet (bit v 8) dmaClrCounts b)
  else match inst a (Reg.DMA_CHn_CTRL 0) 0x40 16 with
    | some n => let r := dmaCtrlWritten mem b n old v host; (r.1, r.2, true)
    | none =>
      match inst a (Reg.DMA_CHn_RESET 0) 0x40 16 with
      | some n => if bit v 0 then (let r := dmaChReset n host mem b; (r.1, r.2, true)) else wOk b
      | none => wOk (match inst a (Reg.DMA_CHn_TRIG 0) 0x40 16 with
        | some n => dmaTrigWritten n b
        | none => b)

/-- Skein queues, check-value units, CAL, LOG, the trace and HOST (Tables 5-13, 12-21, 13-6, 13-9, 15-17, 16-2). -/
def actsRest (a old v : Nat) (b : Blk) : Blk :=
  if a = Reg.CRC_CTRL then onSet (bit v 8) crcClrCounts b
  else if a = Reg.CAL_CTRL then onSet (bit v 24) calClrCounts b
  else if a = Reg.LOG_CTRL then onSet (bit v 8) logSnap b
  else if a = Reg.TRC_CTRL then onSet (bit v 3) traceClear b
  else if a = Reg.HST_CTRL then onSet (bit v 8) (fun b => b.zero [Reg.HST_ACL_DROPS, Reg.HST_CA_COUNT, Reg.HST_UR_COUNT]) b
  else match inst a (Reg.CRC_n_CMD 0) 0x80 8 with
    | some n => onSet (bit v 1) (crcInitCmd n) (onSet (bit v 0) (crcEndCmd n) b)
    | none =>
      match inst a (Reg.SKN_Qn_CTRL 0) 0x20 256 with
      | some q => sknCtrlWritten b q old
      | none =>
        match inst a (Reg.SKN_EVENT_ENk 0) 4 8 with
        | some k => sknEventEn b k
        | none => b

/-- The FWU block (Tables 15-15 and 15-16). -/
def actsFwu (a v : Nat) (mem : Mem) (b : Blk) : WriteRes :=
  if a = Reg.FWU_CTRL then wOk (fwuCtrlWrite v b)
  else if a = Reg.FWU_LC_CMD then wOk (lcCmd v b)
  else if a = Reg.FWU_ROLLBACK_SET then wOk (rollbackSet v b)
  else if a = Reg.FWU_OTP_REVOKE then wOk (otpRevoke v b)
  else if a = Reg.FWU_TOKEN_CMD then wOk (onSet (bit v 0) (fun b => b.setFlag Reg.FWU_TOKEN_STATUS 0 true) b)
  else if a = Reg.FWU_KEY_CMD then
    let r := if bit v 8 then keyWrite v mem b else if bit v 9 then keyErase v mem b else (b, [])
    (r.1, r.2, true)
  else if a = Reg.FWU_REC_CMD then wOk (onSet (bit v 0) (recoveryGo v) b)
  else wOk b

/-- What a stored write of register `a` over `old` does. -/
def regActs (who : Requester) (a old v : Nat) (host : List Byte) (mem : Mem) (b : Blk) : WriteRes :=
  match a / 65536 with
  | 0x4000 => wOk (actsSys who a old v b)
  | 0x4001 => wOk (actsSys who a old v b)
  | 0x4002 => wOk (actsMer a old v (actsTime who a old v b))
  | 0x4004 => wOk (actsTrk a old v b)
  | 0x4005 => wOk (actsTrk a old v (actsTime who a old v b))
  | 0x4006 => wOk (actsCnv a old v mem b)
  | 0x4007 => wOk (actsStc a v mem b)
  | 0x4009 => wOk (actsStr a old v mem b)
  | 0x400A => wOk (actsDrv a v b)
  | 0x400B => wOk (actsPair a old v b)
  | 0x400D => actsDma a old v host mem b
  | 0x4011 => actsFwu a v mem b
  | _ => wOk (actsRest a old v b)

/-! ### Writes -/

/-- A write of register `a` by `who`: an error response changes nothing (R10); an address with no register stores nothing (R5). -/
def regWrite (who : Requester) (a : Nat) (v : Word) (host : List Byte) (mem : Mem) (b : Blk) : WriteRes :=
  if !regReach b who a then (b, [], false)
  else match regSpecial who a v host mem b with
    | some r => r
    | none =>
      match regRow a with
      | none => wOk b
      | some r => regActs who a (b.rdN a) v.toNat host mem (regStore r a v b)

/-- An access of `who` outside the registers is let through: a locked debug port reaches no memory (R405), and retained memory with the
backup registers is for the cores, DMA and debug (R376; log entry 53). -/
def memReach (b : Blk) (who : Requester) (a : Nat) : Bool :=
  (who != .debug || debugOpen b) && !((who == .pcie || who == .qspi) && arrayAt a == some .retained)

/-- A write of one word anywhere: a register, or memory and host memory behind the windows (R13, R14). -/
def fabWrite (who : Requester) (a : Nat) (v : Word) (host : List Byte) (mem : Mem) (b : Blk) : WriteRes :=
  if 0x40000000 ≤ a && a < 0x50000000 then regWrite who a v host mem b
  else
    let ok := busOk b true a 4
    let r := busWrite (b, []) a (toLE 4 v.toNat)
    if memReach b who a then (r.1, r.2, ok) else (b, [], false)

/-- A read of one word anywhere; `host` is what host memory returns, and a check-value unit sees what the flash returns (R355). -/
def fabRead (who : Requester) (a : Nat) (host : List Byte) (mem : Mem) (b : Blk) : Nat × Bool × Blk :=
  if 0x40000000 ≤ a && a < 0x50000000 then regRead who a b
  else if !memReach b who a then (0, false, b)
  else if inRom a then (leNat (mem.bytes a 4), true, b)
  else match (busRead mem b a 4 host).1 with
    | some bs => (leNat bs, true, flashSeen b a bs)
    | none => (0, false, b)

/-- REGISTER_WRITE, with the interrupts that follow it (R327) and its completion (R10). -/
def registerWrite (who : Requester) (a : Nat) (v : Word) (host : List Byte) (mem : Mem) (b : Blk) : Blk × List Host.Cell :=
  let r := fabWrite who a v host mem b
  ((intSettle r.1).emit (.writeDone who a (!r.2.2)), r.2.1)

/-- REGISTER_WRITE (R6). -/
def execRegisterWrite (who : Requester) (addr : BitVec 32) (value : Word) (host : List Byte) (s : State) : Result :=
  onMem (registerWrite who addr.toNat value host) s

/-- CC0 writes a register. -/
def fwWrite (m : Mem) (r : Blk × List Host.Cell) (a v : Nat) : Blk × List Host.Cell :=
  let x := regWrite .cc0 a (BitVec.ofNat 32 v) [] (m.write r.2) r.1
  (x.1, r.2 ++ x.2.1)

/-- CC0 writes registers in order. -/
def fwWrites (m : Mem) (r : Blk × List Host.Cell) (ws : List (Nat × Nat)) : Blk × List Host.Cell :=
  ws.foldl (fun r w => fwWrite m r w.1 w.2) r

/-- CC0 writes field [hi:lo] of a register. -/
def fwField (m : Mem) (r : Blk × List Host.Cell) (a hi lo v : Nat) : Blk × List Host.Cell :=
  fwWrite m r a (putBits (r.1.rdN a) hi lo v)

end Sys2Proof.Machine
end

