-- ==== Sys2Proof/Machine/Command.lean ====
section
/-!
DEFINITION. Command packets (R304 to R317): their form, authentication, transports, the checks of R307 in order, and replies. What each
opcode does is in the Cmd… files.
-/
namespace Sys2Proof.Machine

/-! ### Status codes (Table 12-2) -/

abbrev Status.ok : Nat := 0x00
abbrev Status.accepted : Nat := 0x01
abbrev Status.badOpcode : Nat := 0x10
abbrev Status.badLength : Nat := 0x11
abbrev Status.badParam : Nat := 0x12
abbrev Status.badState : Nat := 0x13
abbrev Status.authFail : Nat := 0x20
abbrev Status.replayed : Nat := 0x21
abbrev Status.busy : Nat := 0x30
abbrev Status.noResource : Nat := 0x31
abbrev Status.domainOff : Nat := 0x40
abbrev Status.timeout : Nat := 0x50
abbrev Status.verifyFail : Nat := 0x60
abbrev Status.schemaMismatch : Nat := 0x61
abbrev Status.internal : Nat := 0xF0

/-! ### The packet (Table 12-1, R308) -/

def pktOpcode (p : List Byte) : Nat := leAt p 2 2
def pktSeq (p : List Byte) : Nat := leAt p 4 2
def pktTarget (p : List Byte) : Nat := leAt p 6 2 % 4096
def pktLength (p : List Byte) : Nat := leAt p 8 4
def pktFlag (p : List Byte) (i : Nat) : Bool := bit (leAt p 12 2) i
def pktAuth (p : List Byte) : Bool := pktFlag p 0
def pktRelay (p : List Byte) : Bool := pktFlag p 1
def pktNoReply (p : List Byte) : Bool := pktFlag p 2
def pktReply (p : List Byte) : Bool := pktFlag p 3
def pktBroadcast (p : List Byte) : Bool := pktFlag p 4
def pktStatus (p : List Byte) : Nat := leAt p 14 2
def pktSource (p : List Byte) : Nat := leAt p 16 2
def pktSlot (p : List Byte) : Nat := leAt p 18 1
def pktNonce (p : List Byte) : Nat := leAt p 20 8
/-- Where the payload starts: after the header, and after the security block where there is one. -/
def pktBody (p : List Byte) : Nat := if pktAuth p then 28 else 16
/-- The size that LENGTH and AUTH give. -/
def pktSize (p : List Byte) : Nat := pktBody p + pktLength p + (if pktAuth p then 16 else 0)
/-- The payload. -/
def pktPayload (p : List Byte) : List Byte := (p.drop (pktBody p)).take (pktLength p)

/-- Check 1 of R307. -/
def pktForm (limit : Nat) (p : List Byte) : Bool :=
  16 ≤ p.length && leAt p 0 1 == 0xC7 && p.length == pktSize p && p.length ≤ limit

/-- The tag of a packet with AUTH is right under its KEY_SLOT; an empty slot fails (R308). -/
def pktTagOk (b : Blk) (p : List Byte) : Bool :=
  let n := 28 + pktLength p
  pktSlot p < 8 && authTag b (pktSlot p) (pktSource p) (pktNonce p) (p.take n) == some (p.drop n)

/-- The transports of Table 12-3: a host mailbox, UDP, and the pair link. -/
inductive Path where
  | mailbox | udp | link
  deriving DecidableEq, Repr

/-- This device, a manager, relays the packet: RELAY is set, and its TARGET is another device or it is a broadcast (R305, R317). -/
def relays (b : Blk) (p : List Byte) : Bool :=
  pktRelay p && b.firm.role == 1 && (pktBroadcast p || pktTarget p != b.deviceId % 4096)

/-- AUTH is required (R310): always over UDP and the pair link and for relay; in DEPLOYED and RETURNED for group 0x09, LIFECYCLE_ADVANCE,
WRITE_REG and RESET, but not on the host mailboxes while no user key slot is valid. -/
def authMust (b : Blk) (path : Path) (p : List Byte) : Bool :=
  path != .mailbox || relays b p ||
    ((b.fld Reg.FWU_LC 2 0 == 2 || b.fld Reg.FWU_LC 2 0 == 3) && keysValid b != 0
      && (pktOpcode p / 256 == 9 || pktOpcode p == 0x0018 || pktOpcode p == 0x0021 || pktOpcode p == 0x0010))

/-- A header and what follows it, with a security block and a tag under `slot` where there is one; none where the slot is empty. -/
def pktBuild (b : Blk) (slot : Option Nat) (opcode seq target flags status : Nat) (payload : List Byte) : Option (Blk × List Byte) :=
  let head (f : Nat) : List Byte :=
    [0xC7#8, 1#8] ++ toLE 2 opcode ++ toLE 2 seq ++ toLE 2 (target % 4096) ++ toLE 4 payload.length ++ toLE 2 f ++ toLE 2 status
  match slot with
  | none => some (b, head flags ++ payload)
  | some i =>
    let src := b.deviceId % 4096
    let aad := head (flags + 1) ++ toLE 2 src ++ toLE 1 i ++ toLE 1 0 ++ toLE 8 (nonceNext b i) ++ payload
    (authTag b i src (nonceNext b i) aad).map (fun tag => (nonceUsed b i, aad ++ tag))

/-! ### Transports (R312 to R314) -/

/-- The largest packet of a transport: over PCIe a megabyte, unless it is to be relayed (Table 12-3). -/
def pathLimit (b : Blk) (path : Path) (p : List Byte) : Nat :=
  if path != .mailbox || b.flag Reg.HST_STATUS 0 || relays b p then 8192 else 1048576

/-- An address lies in HST_QBUF_IN or HST_QBUF_OUT. -/
def inQbuf (a : Nat) : Bool := Reg.HST_QBUF_IN 0 ≤ a && a < Reg.HST_QBUF_IN 0 + 0x4000

/-- A byte of the QSPI buffers. -/
def qbufByte (b : Blk) (a : Nat) : Byte := BitVec.ofNat 8 (b.fld (a / 4 * 4) (8 * (a % 4) + 7) (8 * (a % 4)))

/-- Bytes are laid into the QSPI buffers. -/
def qbufPut (b : Blk) (a : Nat) : List Byte → Blk
  | [] => b
  | x :: xs => qbufPut (b.setFld (a / 4 * 4) (8 * (a % 4) + 7) (8 * (a % 4)) x.toNat) (a + 1) xs

/-- Firmware fetches `k` bytes at offset `o` of the buffer that a notice points to: none where the fabric answers with an error. -/
def bufRead (m : Mem) (b : Blk) (ptr o k : Nat) (host : List Byte) : Option (List Byte) :=
  if inQbuf (ptr + o) && domOn b 9 then some ((List.range k).map (fun i => qbufByte b (ptr + o + i)))
  else (busRead m b (ptr + o) k (host.drop o)).1

/-- The command buffer of a notice (R313): RSP_ADDR, RSP_MAX and the packet. A packet whose size is above the transport's limit is fetched
as its first 16 bytes only. -/
def bufTake (m : Mem) (b : Blk) (ptr : Nat) (host : List Byte) : Option (Nat × Nat × List Byte) :=
  match bufRead m b ptr 0 32 host with
  | none => none
  | some h =>
    let p := h.drop 16
    let rest := if pktSize p ≤ pathLimit b .mailbox p then bufRead m b ptr 16 (pktSize p) host else some p
    rest.map (fun q => (leAt h 0 8, leAt h 8 4, q))

/-- Firmware posts a notice of a reply in mailbox `m`; it waits while the mailbox is full. -/
def noticePost (m addr tag : Nat) (b : Blk) : Blk :=
  if b.flag (Reg.MBX_m_STATUS m) 0 then { b with firm := { b.firm with notices := b.firm.notices ++ [(m, addr, tag)] } }
  else (mbxPost m .cc0 tag [] [] (b.wr64 (Reg.MBX_m_PTR_LO m) (Reg.MBX_m_PTR_HI m) addr)).1

/-- A reply's bytes go to RSP_ADDR, and a notice follows (R313): a longer one than RSP_MAX as its header alone with BAD_LENGTH. -/
def replyToHost (m addr max tag : Nat) (bs : List Byte) (r : Blk × List Host.Cell) : Blk × List Host.Cell :=
  let bs := if bs.length ≤ max then bs else bs.take 8 ++ toLE 4 0 ++ toLE 2 8 ++ toLE 2 Status.badLength
  let r := if inQbuf addr then (qbufPut r.1 addr bs, r.2) else busWrite r addr bs
  (noticePost (m + 4) addr tag r.1, r.2)

/-- The bytes of a reply go back over the transport of its request; none with NOREPLY or to a broadcast (R305, R313, R315). -/
def replyRaw (x : Asker) (bs : List Byte) (r : Blk × List Host.Cell) : Blk × List Host.Cell :=
  if x.silent then r
  else match x.back with
    | .mailbox m addr max tag => replyToHost m addr max tag bs r
    | .udp _ mac ip port => (fwSend mac ip port bs r.1, r.2)

/-- The active's STATUS and the standby's are both known, and a difference is recorded (R316). -/
def standbyCheck (own peer : Nat) (b : Blk) : Blk := if own = peer then b else lifeEvent b peer

/-- The status of a command of this device ends its part in a comparison with the standby's (R316). -/
def standbyOwn (x : Asker) (status : Nat) (b : Blk) : Blk :=
  let mine (w : Asker × Await) : Bool := match w.2 with
    | .standby _ none _ => w.1.opcode == x.opcode && w.1.seq == x.seq && w.1.back == x.back
    | _ => false
  match b.firm.waits.find? mine with
  | none => b
  | some w =>
    match w.2 with
    | .standby _ _ (some peer) => standbyCheck status peer (b.setFirm { b.firm with waits := b.firm.waits.erase w })
    | .standby till _ none =>
      b.setFirm { b.firm with waits := b.firm.waits.map (fun v => if v == w then (w.1, .standby till (some status) none) else v) }
    | _ => b

/-- The reply of a command (R304, R305, R311): authenticated as its request was. -/
def reply (x : Asker) (status : Nat) (payload : List Byte) (r : Blk × List Host.Cell) : Blk × List Host.Cell :=
  let r := (standbyOwn x status r.1, r.2)
  if x.silent then r
  else match pktBuild r.1 x.slot x.opcode x.seq r.1.deviceId 8 status payload with
    | none => r
    | some (b, bs) => replyRaw x bs (b, r.2)

/-- A packet or reply is discarded and counted (R305, R310, R311). -/
def cmdError (b : Blk) : Blk := b.setFirm { b.firm with errors := sat32 (b.firm.errors + 1) }

/-- A command that has started waits. -/
def waitFor (x : Asker) (w : Await) (b : Blk) : Blk := b.setFirm { b.firm with waits := b.firm.waits ++ [(x, w)] }

/-- Something is due `clocks` from now. -/
def laterOn (clocks : Nat) (l : Later) (b : Blk) : Blk := b.setFirm { b.firm with later := b.firm.later ++ [(b.now + clocks, l)] }

/-! ### An opcode -/

/-- What a command's action leaves: the block, cells of memory, and its reply, none where it comes later. -/
structure CmdEnd where
  blk : Blk
  cells : List Host.Cell := []
  reply : Option (Nat × List Byte) := some (Status.ok, [])

/-- An opcode (Tables 12-6 to 12-17): its layout (check 7), the domains it uses (8), what else may refuse it, with its status and reply
payload (9 to 11), its action, and whether it changes state (R316). -/
structure Cmd where
  opcode : Nat
  fits : List Byte → Bool
  domains : List Byte → List Nat := fun _ => []
  permit : List Byte → Mem → Blk → Option (Nat × List Byte) := fun _ _ _ => none
  act : Asker → List Byte → Mem → Blk → CmdEnd
  readOnly : List Byte → Bool := fun _ => false

/-- An action on the block that replies OK with nothing. -/
def okEnd (b : Blk) : CmdEnd := { blk := b }
/-- An action that replies OK with a payload. -/
def okWith (b : Blk) (payload : List Byte) : CmdEnd := { blk := b, reply := some (Status.ok, payload) }
/-- An action that replies ACCEPTED. -/
def accepted (b : Blk) : CmdEnd := { blk := b, reply := some (Status.accepted, []) }
/-- An action that ends with another status. -/
def endsWith (b : Blk) (status : Nat) : CmdEnd := { blk := b, reply := some (status, []) }
/-- A firmware fault, recorded in the Lifelog (Table 12-2): an access of firmware's own that the fabric answers with an error (log entry 58). -/
def fwFault (b : Blk) : CmdEnd := endsWith (lifeEvent b Status.internal) Status.internal
/-- A refusal with an empty reply. -/
def refuse (c : Bool) (status : Nat) : Option (Nat × List Byte) := if c then some (status, []) else none

/-- Checks 7 to 11 and the action (R307): a failed check changes nothing. -/
def cmdRun (c : Cmd) (x : Asker) (p : List Byte) (m : Mem) (b : Blk) : CmdEnd :=
  if !c.fits p then endsWith b Status.badLength
  else if (c.domains p).any (fun d => !domOn b d) then endsWith b Status.domainOff
  else match c.permit p m b with
    | some r => { blk := b, reply := some r }
    | none => c.act x p m b

/-- 100 ms: as long a relayed request waits for its reply (R311, R317). -/
def relayClocks : Nat := 100 * msClocks

/-- The standby gets a command of groups 0x01 to 0x07, or a state-changing one of group 0x0B, that the active unit has accepted (R316). -/
def pairRelay (c : Cmd) (x : Asker) (path : Path) (p : List Byte) (status : Nat) (b : Blk) : Blk :=
  let g := c.opcode / 256
  if ((1 ≤ g && g ≤ 7) || g = 0x0B) && !c.readOnly (pktPayload p) && status ≤ 1 && b.flag Reg.PAIR_CTRL 0 && pairState b == 2
      && path != .link then
    waitFor { x with silent := true } (.standby (b.now + relayClocks) none none) (linkSend p b)
  else b

/-! ### A packet on its way (R305, R307, R317) -/

/-- A manager relays a packet for another device: to the address the hierarchy table gives, else BAD_PARAM. -/
def relayOn (x : Asker) (p : List Byte) (r : Blk × List Host.Cell) : Blk × List Host.Cell :=
  match Tab.at none r.1.firm.table (pktTarget p) with
  | some w => (waitFor x (.relayed (pktTarget p) (r.1.now + relayClocks)) (fwSendTo w.ip p r.1), r.2)
  | none => reply x Status.badParam [] r

/-- A device is addressed by its own ID, by BROADCAST, and as the pair partner over the pair link (R305, R316). -/
def pktIsMine (b : Blk) (path : Path) (p : List Byte) : Bool :=
  pktBroadcast p || pktTarget p == b.deviceId % 4096 || (path == .link && pktTarget p == b.fld Reg.PAIR_PARTNER 11 0)

/-- Where the reply to a packet goes; a broadcast has none, unless it is a ROLL_CALL (R305). -/
def askerOf (back : ReplyTo) (p : List Byte) (auth : Bool) : Asker :=
  { back, opcode := pktOpcode p, seq := pktSeq p, slot := if auth then some (pktSlot p) else none
    silent := pktNoReply p || (pktBroadcast p && pktOpcode p != 0x0B02), broadcast := pktBroadcast p }

/-- A packet fails check 1, 2 or 3: a reply over a mailbox; discarded and counted over UDP and the pair link (R310). -/
def earlyFail (path : Path) (x : Asker) (status : Nat) (b : Blk) : Blk × List Host.Cell :=
  if path = .mailbox then reply x status [] (b, []) else (cmdError b, [])

/-- What follows the action of a command: the standby and the workers are sent it, and the reply leaves (R305, R316, R317). -/
def pktDone (c : Cmd) (path : Path) (x : Asker) (p : List Byte) (e : CmdEnd) : Blk × List Host.Cell :=
  let b := pairRelay c x path p (match e.reply with | some s => s.1 | none => Status.accepted) e.blk
  let b := if pktBroadcast p && pktRelay p && b.firm.role == 1 && b.firm.group != 0 then fwSendTo b.firm.group p b else b
  match e.reply with
  | some s => reply x s.1 s.2 (b, e.cells)
  | none => (b, e.cells)

/-- Checks 4 to 11 and the action of a packet that has passed the first three. `find` gives the opcode's meaning. -/
def pktServe (find : Nat → Option Cmd) (path : Path) (x : Asker) (p : List Byte) (m : Mem) (b : Blk) : Blk × List Host.Cell :=
  if leAt p 1 1 != 1 then reply x Status.badOpcode [] (b, [])
  else if !pktIsMine b path p then
    if pktRelay p && b.firm.role == 1 then relayOn x p (b, []) else (cmdError b, [])
  else match find (pktOpcode p) with
    | none => reply x Status.badOpcode [] (b, [])
    | some c => pktDone c path x p (cmdRun c x (pktPayload p) m b)

/-- The checks of R307 on a packet, in order, up to the replay table, which refuses a new pair with NO_RESOURCE where it has no free entry
(R311; log entry 57). A packet that is itself a reply is discarded and counted. -/
def pktCheck (find : Nat → Option Cmd) (path : Path) (back : ReplyTo) (p : List Byte) (m : Mem) (b : Blk) : Blk × List Host.Cell :=
  let plain := askerOf back p false
  if !pktForm (pathLimit b path p) p then earlyFail path plain Status.badLength b
  else if pktReply p then (cmdError b, [])
  else if !pktAuth p then
    if authMust b path p then earlyFail path plain Status.authFail b else pktServe find path plain p m b
  else if !pktTagOk b p then earlyFail path plain Status.authFail b
  else
    let x := askerOf back p true
    match replayLook b (pktSource p) (pktSlot p) (pktNonce p) with
    | .stale => earlyFail path x Status.replayed b
    | .full => if pktIsMine b path p || relays b p then reply x Status.noResource [] (b, []) else (cmdError b, [])
    | .fresh => pktServe find path x p m (replayRaise b (pktSource p) (pktSlot p) (pktNonce p))

/-- Host commands that have been taken and not replied to: the wait for the standby's reply to a relayed command comes after its own. -/
def hostPending (b : Blk) : Nat :=
  (b.firm.waits.filter (fun w => match w.1.back, w.2 with
    | .mailbox _ _ _ _, .standby _ _ _ => false
    | .mailbox _ _ _ _, _ => true
    | _, _ => false)).length

/-- The transport of a packet in firmware's receive ring: the pair link where it came in by LINK_PORT, which connects the two units directly
(R284, R316; log entry 58). -/
def ringPath (b : Blk) (f : RingFrame) : Path := if b.flag Reg.PAIR_CTRL 0 && f.port == pairLink b then .link else .udp

/-- Firmware gives the descriptor at its place back: it clears DONE and advances TAIL (R272, R273). -/
def ringGive (m : Mem) (b : Blk) : Blk × List Host.Cell :=
  let i := b.firm.rxAt
  let r := busWrite (b, []) (fwRxBase + 32 * i + 10) [0#8, 0#8]
  let r := fwWrite m r (Reg.TRK_RXr_TAIL fwRx) ((b.fld (Reg.TRK_RXr_TAIL fwRx) 11 0 + 1) % 16)
  (r.1.setFirm { r.1.firm with rxAt := (i + 1) % 16 }, r.2)

/-- The next frame of firmware's receive ring is taken (R315): one that is no command packet is left where it is for COMMAND_REPLY_RX if it
is a reply, and else given back. -/
def ringTake (find : Nat → Option Cmd) (m : Mem) (b : Blk) : Blk × List Host.Cell :=
  match ringNext m b with
  | none => (b, [])
  | some f =>
    match ringUdp f with
    | none => ringGive m b
    | some (mac, ip, port, p) =>
      if pktReply p then (b, [])
      else
        let g := ringGive m b
        let r := pktCheck find (ringPath b f) (.udp f.port mac ip port) p m g.1
        (r.1, g.2 ++ r.2)

/-- A packet arrives (R307, R313, R315): from firmware's receive ring, or from a mailbox that holds a notice, which is acknowledged with OK,
or with BUSY while 64 host commands wait; a buffer that cannot be read is counted as a command error (log entry 58). -/
def pktArrive (find : Nat → Option Cmd) (via : Via) (m : Mem) (b : Blk) : Blk × List Host.Cell :=
  match via with
  | .ring => ringTake find m b
  | .mailbox k host =>
    if !b.flag (Reg.MBX_m_STATUS k) 0 then (b, [])
    else if 64 ≤ hostPending b then ((mbxAck k .cc0 Status.busy b).1, [])
    else
      let ptr := b.rd64 (Reg.MBX_m_PTR_LO k) (Reg.MBX_m_PTR_HI k)
      let tag := b.rdN (Reg.MBX_m_TAG k)
      let taken := (mbxAck k .cc0 Status.ok b).1
      match bufTake m b ptr host with
      | none => (cmdError taken, [])
      | some (addr, max, p) => pktCheck find .mailbox (.mailbox k addr max tag) p m taken

/-! ### Payload fields -/

def u8 (p : List Byte) (o : Nat) : Nat := leAt p o 1
def u16 (p : List Byte) (o : Nat) : Nat := leAt p o 2
def u32 (p : List Byte) (o : Nat) : Nat := leAt p o 4
def u64 (p : List Byte) (o : Nat) : Nat := leAt p o 8

/-- The payload has `n` bytes. -/
def len (n : Nat) (p : List Byte) : Bool := p.length == n

/-- Reserved bytes that are not 0 (log entry 57). -/
def dirty (p : List Byte) (o k : Nat) : Bool := leAt p o k != 0

end Sys2Proof.Machine
end

