-- ==== Sys2Proof/Machine/RegSet.lean ====
section
/-!
DEFINITION. The register-set payload of R320: its layout, the ranges of the register fields that have one, and the writing of its pairs.
-/
namespace Sys2Proof.Machine

/-! ### Ranges of register fields (R320, R453) -/

/-- Field [hi:lo] of `count` registers from `base` on, `stride` apart, has the range `low` to `high`. -/
structure FieldRange where
  base : Nat
  stride : Nat
  count : Nat
  hi : Nat
  lo : Nat
  low : Nat
  high : Nat
  deriving DecidableEq, Repr

/-- Time, Meridians and canvas (Tables 2-15 to 2-17, 3-12, 4-7). -/
def timeRanges : List FieldRange := [
  ⟨Reg.TBn_LOCK_COUNT 0, 0x100, 4, 7, 0, 1, 255⟩, ⟨Reg.TBn_SAMPLE_TIMEOUT 0, 0x100, 4, 31, 0, 1, 65535⟩,
  ⟨Reg.TRK_SYNCE_CTRL, 0, 1, 7, 6, 0, 2⟩, ⟨Reg.MERm_FREQ_LIMIT 0, 0x200, 2, 31, 0, 0, 0x1312D000⟩,
  ⟨Reg.MERm_LOCK_COUNT 0, 0x200, 2, 7, 0, 1, 255⟩, ⟨Reg.MERm_MISS_LIMIT 0, 0x200, 2, 7, 0, 1, 255⟩,
  ⟨Reg.MERm_SLEW_RATE 0, 0x200, 2, 31, 0, 1, 100000⟩, ⟨Reg.MERm_STAGE_SRC 0, 0x200, 2, 2, 0, 0, 5⟩,
  ⟨Reg.MERm_STAGE_RATE_DEN 0, 0x200, 2, 15, 0, 1, 65535⟩, ⟨Reg.CNV_LOSS_FRAMES, 0, 1, 7, 0, 1, 255⟩,
  ⟨Reg.CNV_STAGE_FORMAT, 0, 1, 6, 4, 0, 4⟩, ⟨Reg.CNV_STAGE_FORMAT, 0, 1, 1, 0, 0, 1⟩]

/-- Strands and drive (Tables 7-9, 7-10, 9-3, 9-4). -/
def lineRanges : List FieldRange := [
  ⟨Reg.STR_REPLY_SIZE, 0, 1, 12, 0, 16, 4096⟩, ⟨Reg.STR_REPLY_BASE, 0, 1, 5, 0, 0, 0⟩,
  ⟨Reg.STR_n_LAYOUT 0, 0x200, 32, 13, 0, 0, 8192⟩, ⟨Reg.STR_n_LAYOUT 0, 0x200, 32, 25, 16, 1, 1016⟩,
  ⟨Reg.STR_n_STITCH_BYTES 0, 0x200, 32, 4, 0, 1, 24⟩, ⟨Reg.STR_n_REFRESH 0, 0x200, 32, 7, 0, 1, 255⟩,
  ⟨Reg.STR_n_SURVEY_ADDR 0, 0x200, 32, 2, 0, 0, 0⟩, ⟨Reg.DRV_SNS_CTRL, 0, 1, 15, 8, 1, 255⟩,
  ⟨Reg.DRV_c_FSW 0, 0x100, 16, 11, 0, 250, 2000⟩, ⟨Reg.DRV_c_FS_UV 0, 0x100, 16, 16, 0, 10000, 90000⟩,
  ⟨Reg.DRV_c_SLOPE 0, 0x100, 16, 23, 16, 60, 250⟩, ⟨Reg.DRV_c_DIAG_CFG 0, 0x100, 16, 7, 0, 32, 255⟩,
  ⟨Reg.DRV_c_DIAG_CFG 0, 0x100, 16, 31, 16, 1, 65535⟩]

/-- Trunk, E1.31 and pairs (Tables 8-10, 10-12, 11-7). -/
def netRanges : List FieldRange := [
  ⟨Reg.TRK_Pp_MAX_LEN 0, 0x400, 4, 13, 0, 1518, 9216⟩, ⟨Reg.TRK_RINGi_CTRL 0, 0x20, 2, 31, 16, 100, 10000⟩,
  ⟨Reg.TRK_RXr_CTRL 0, 0x40, 16, 12, 0, 16, 4096⟩, ⟨Reg.TRK_RXr_CTRL 0, 0x40, 16, 24, 16, 4, 256⟩,
  ⟨Reg.TRK_TXt_CTRL 0, 0x40, 4, 12, 0, 16, 4096⟩, ⟨Reg.TRK_RXr_COAL 0, 0x40, 16, 7, 0, 1, 255⟩,
  ⟨Reg.TRK_RXr_BASE_LO 0, 0x40, 16, 5, 0, 0, 0⟩, ⟨Reg.TRK_TXt_BASE_LO 0, 0x40, 4, 5, 0, 0, 0⟩,
  ⟨Reg.TRK_Pp_CLASS 0, 0x400, 5, 1, 0, 0, 2⟩, ⟨Reg.TRK_STEERk_MATCH 0, 8, 16, 18, 16, 0, 4⟩,
  ⟨Reg.E131_TX_COUNT, 0, 1, 11, 0, 0, 2048⟩, ⟨Reg.E131_TX_FDIV, 0, 1, 7, 0, 1, 255⟩,
  ⟨Reg.E131_RX_BASE, 0, 1, 9, 0, 0, 0⟩, ⟨Reg.E131_TX_BASE, 0, 1, 8, 0, 0, 0⟩, ⟨Reg.E131_TX_TABLE, 0, 1, 3, 0, 0, 0⟩,
  ⟨Reg.PAIR_CONFIG, 0, 1, 7, 0, 1, 255⟩, ⟨Reg.PAIR_CONFIG, 0, 1, 19, 16, 1, 15⟩]

/-- The value `v` lies in the ranges of register `a`. -/
def inRanges (a v : Nat) : Bool :=
  (timeRanges ++ lineRanges ++ netRanges).all (fun r =>
    (inst a r.base r.stride r.count).isNone || (r.low ≤ bits v r.hi r.lo && bits v r.hi r.lo ≤ r.high))

/-! ### Firmware's own register writes -/

/-- An action that wrote registers and replies OK with nothing. -/
def wroteOk (r : Blk × List Host.Cell) : CmdEnd := { blk := r.1, cells := r.2 }

/-! ### The pairs -/

/-- COUNT of the register set at offset `o`. -/
def rsCount (o : Nat) (p : List Byte) : Nat := u16 p o

/-- The pairs of the register set at offset `o`. -/
def rsPairs (o : Nat) (p : List Byte) : List (Nat × Nat) :=
  (List.range (rsCount o p)).map (fun k => (u32 p (o + 4 + 8 * k), u32 p (o + 8 + 8 * k)))

/-- The payload ends with the register set at `o`. -/
def rsFits (o : Nat) (p : List Byte) : Bool := p.length == o + 4 + 8 * rsCount o p

/-- WRITTEN and ERR_INDEX. -/
def rsReply (written err : Nat) : List Byte := toLE 2 written ++ toLE 2 err

/-- A pair may stand in a register set: aligned, of a register the opcode allows, in its ranges, and without a WO field that the opcode
performs itself. -/
def rsGood (allow : Nat → Bool) (x : Nat × Nat) : Bool :=
  x.1 % 4 == 0 && allow x.1 && inRanges x.1 x.2
    && !((inst x.1 (Reg.STR_n_CTL_CMD 0) 0x200 32).isSome && bit x.2 0) && !(x.1 == Reg.CNV_HOST_CTRL && bit x.2 8)

/-- What register `a` will hold once the pairs are written. -/
def rsNow (ws : List (Nat × Nat)) (b : Blk) (a : Nat) : Nat :=
  match ws.reverse.find? (fun x => x.1 == a) with
  | some x => x.2
  | none => b.stagedLast a

/-- The first pair that touches a register for which `f` holds. -/
def rsTouch (ws : List (Nat × Nat)) (f : Nat → Bool) : Nat := (ws.findIdx? (fun x => f x.1)).getD 0

/-- BAD_PARAM of the pair `i`. -/
def rsFail (i : Nat) : Option (Nat × List Byte) := some (Status.badParam, rsReply 0 i)

/-- The check of a register set: its COUNT, its pairs, and then what its opcode asks of them together. -/
def rsPermit (o : Nat) (allow : Nat → Bool) (cross : List (Nat × Nat) → Blk → Option Nat) (p : List Byte) (b : Blk) :
    Option (Nat × List Byte) :=
  let ws := rsPairs o p
  if rsCount o p = 0 || 1000 < rsCount o p || dirty p (o + 2) 2 then rsFail 0xFFFF
  else match ws.findIdx? (fun x => !rsGood allow x) with
    | some i => rsFail i
    | none => (cross ws b).bind rsFail

/-- The pairs are written in order, by CC0. -/
def rsWrite (m : Mem) (b : Blk) (ws : List (Nat × Nat)) : Blk × List Host.Cell :=
  ws.foldl (fun r w =>
    let x := fabWrite .cc0 w.1 (BitVec.ofNat 32 w.2) [] (m.write r.2) r.1
    (x.1, r.2 ++ x.2.1)) (b, [])

/-- The pairs are written and the reply says so. -/
def rsAct (o : Nat) (m : Mem) (p : List Byte) (b : Blk) : CmdEnd :=
  let r := rsWrite m b (rsPairs o p)
  { blk := r.1, cells := r.2, reply := some (Status.ok, rsReply (rsCount o p) 0xFFFF) }

/-- The domains of the registers in a set. -/
def rsDomains (o : Nat) (p : List Byte) : List Nat := (rsPairs o p).filterMap (fun x => regDomain x.1)

/-- No condition on the pairs together. -/
def rsFree (_ : List (Nat × Nat)) (_ : Blk) : Option Nat := none

/-- A command that is a register set and no more. -/
def rsCmd (opcode : Nat) (allow : Nat → Bool) (cross : List (Nat × Nat) → Blk → Option Nat := rsFree) : Cmd where
  opcode
  fits := fun p => 4 ≤ p.length && rsFits 0 p
  domains := rsDomains 0
  permit := fun p _ b => rsPermit 0 allow cross p b
  act := fun _ p m b => rsAct 0 m p b

/-- A register at an address, with an access code that may be written. -/
def writable (a : Nat) : Bool :=
  match regRow a with
  | some r => r.acc == .rw || r.acc == .rwc
  | none => false

end Sys2Proof.Machine
end

