-- ==== Sys2Proof/Machine/CmdSys.lean ====
section
/-!
DEFINITION. The commands of group 0x00, system (Table 12-6).
-/
namespace Sys2Proof.Machine

/-- A command that only reads the block: its request is empty, its reply `f`. -/
def showCmd (opcode : Nat) (domains : List Nat) (f : Mem → Blk → List Byte) : Cmd where
  opcode
  fits := len 0
  domains := fun _ => domains
  act := fun _ _ m b => okWith b (f m b)
  readOnly := fun _ => true

/-- The life-cycle state. -/
def lcState (b : Blk) : Nat := b.fld Reg.FWU_LC 2 0

/-- The reply of IDENTIFY (R2, R407). -/
def identity (m : Mem) (b : Blk) : List Byte :=
  toLE 2 b.deviceId ++ toLE 1 b.firm.role ++ toLE 1 (lcState b) ++ toLE 2 (leAt cartouche 24 2 % 4096) ++ toLE 4 (b.rdN Reg.HST_IDS)
    ++ toLE 2 0 ++ toLE 8 uniqueId ++ slice (runHead m b) 8 4 ++ toLE 1 b.fwu.running
    ++ toLE 1 (b.fld Reg.FWU_STATUS 4 4) ++ toLE 2 0

/-- IDENTIFY. -/
def identifyCmd : Cmd := showCmd 0x0001 [] identity

/-- The reply of GET_STATUS (R305, R327, R363). UPTIME_S counts from the reset before, and TJ is rounded down (log entry 58). -/
def statusNow (_ : Mem) (b : Blk) : List Byte :=
  toLE 4 ((b.now - b.pwr.since) / 1000000000) ++ toLE 2 (b.fld Reg.PWR_STATUS 9 0) ++ toLE 1 (b.fld Reg.RST_CAUSE 7 0)
    ++ toLE 1 (lcState b) ++ (List.range 4).flatMap (fun n => toLE 1 (b.fld (Reg.TBn_STATUS n) 2 0))
    ++ (List.range 2).flatMap (fun k => toLE 1 (b.fld (Reg.MERm_STATUS k) 2 0)) ++ toLE 1 (pairState b)
    ++ toLE 1 (b.fld Reg.FWU_STATUS 4 4) ++ toLE 2 (ux 16 (sx 16 (b.fld Reg.PWR_TJ 15 0) / 8)) ++ toLE 2 0
    ++ toLE 4 (intSummary b) ++ toLE 4 b.firm.errors ++ toLE 4 0

/-- GET_STATUS. -/
def getStatusCmd : Cmd := showCmd 0x0002 [] statusNow

/-- GET_CAPS: 64 regions of 4,096 Stitches, 32 strands, 16 drive channels, 4 trunk ports, 4 time bases, 2 Meridians (log entry 58). -/
def getCapsCmd : Cmd :=
  showCmd 0x0003 [] (fun _ _ => toLE 4 262144 ++ [32#8, 16#8, 4#8, 4#8, 2#8, 1#8, 0#8, 0#8] ++ toLE 4 1048576)

/-- SET_ROLE (R306): a role other than MANAGER disables the region emitters. -/
def setRoleCmd : Cmd where
  opcode := 0x0008
  fits := len 8
  permit := fun p _ _ => refuse (2 < u8 p 0 || dirty p 1 1 || 0xFFF < u16 p 2) Status.badParam
  act := fun _ p _ b =>
    let b := { b with deviceId := u16 p 2 }.setFirm { b.firm with role := u8 p 0, group := u32 p 4 }
    okEnd (if u8 p 0 = 1 then b else (List.range 64).foldl (fun b e => b.setFlag (Reg.CNV_REe_CTRL e) 0 false) b)

/-- RESET (R362, R367): after its reply and delay. -/
def resetCmd : Cmd where
  opcode := 0x0010
  fits := len 4
  permit := fun p _ _ =>
    refuse (1 < u8 p 0 || (u8 p 0 == 1 && (u8 p 1 < 2 || 9 < u8 p 1)) || u16 p 2 < 10 || 60000 < u16 p 2) Status.badParam
  act := fun _ p _ b =>
    okEnd (laterOn (msClocks * u16 p 2) (if u8 p 0 = 0 then .reset else .write Reg.RST_DOMAIN (2 ^ u8 p 1)) b)

/-- PWR_DOMAIN as DOMAIN_POWER asks for it. -/
def domainAsked (p : List Byte) (b : Blk) : Nat := putBits (b.rdN Reg.PWR_DOMAIN) (u8 p 0) (u8 p 0) (u8 p 1)

/-- DOMAIN_POWER (R29): HOST is switched off 10 ms after the reply. -/
def domainPowerCmd : Cmd where
  opcode := 0x0011
  fits := len 4
  permit := fun p m b =>
    (refuse (u8 p 0 < 2 || (u8 p 0 < 10 && u8 p 1 < 2 && !domainsFit m b (domainAsked p b))) Status.badState)
    <|> (refuse (9 < u8 p 0 || 1 < u8 p 1 || dirty p 2 2) Status.badParam)
  act := fun _ p m b =>
    if u8 p 0 = 9 && u8 p 1 = 0 then okEnd (laterOn (10 * msClocks) (.field Reg.PWR_DOMAIN 9 9 0) b)
    else wroteOk (fwWrite m (b, []) Reg.PWR_DOMAIN (domainAsked p b))

/-- ENTER_DORMANT (R377): after the reply has left, and after Bind-off where it is asked for. -/
def enterDormantCmd : Cmd where
  opcode := 0x0012
  fits := len 4
  permit := fun p _ b =>
    (refuse (!b.flag Reg.PWR_WAKE_CTRL 0 && !b.flag Reg.PWR_WAKE_CTRL 4) Status.badState)
    <|> (refuse (1 < u8 p 0 || dirty p 1 3) Status.badParam)
  act := fun _ p _ b =>
    okEnd (if u8 p 0 = 1 then b.setFirm { b.firm with bind := some (0, [], true) } else laterOn 0 (.parting Reg.PWR_CTRL 0 0 1) b)

/-- Table 15-12: the transition from `s` to `t` is permitted, and whether it needs a token. -/
def lcStepTo (s t : Nat) : Option Bool :=
  match s, t with
  | 0, 1 => some false
  | 1, 2 => some false
  | 1, 4 => some false
  | 2, 3 => some true
  | 2, 4 => some true
  | 3, 4 => some false
  | _, _ => none

/-- Steps 1 and 2 of R403: the write comes once the reply has left. -/
def lcAdvance (x : Asker) (t : Nat) (r : Blk × List Host.Cell) : Blk × List Host.Cell :=
  reply x Status.ok [] (laterOn 0 (.parting Reg.FWU_LC_CMD 31 0 (0x77400000 + t)) r.1, r.2)

/-- LIFECYCLE_ADVANCE (R403, R404): a token goes through the token registers first. -/
def lifecycleAdvanceCmd : Cmd where
  opcode := 0x0018
  fits := fun p => 4 ≤ p.length && p.length == 4 + u16 p 2
  permit := fun p _ b =>
    let token := lcStepTo (lcState b) (u8 p 0)
    (refuse (lcState b == 0 && u8 p 0 != 0 && b.otp.rootKeys == 0) Status.badState)
    <|> (refuse (token.isNone || dirty p 1 1) Status.badParam)
    <|> (refuse (token == some true && (u16 p 2 != 100 || u8 p 4 != 0x10 + u8 p 0)) Status.authFail)
    <|> (refuse (token == some true && b.flag Reg.FWU_TOKEN_STATUS 0) Status.busy)
  act := fun x p m b =>
    if lcStepTo (lcState b) (u8 p 0) = some true then
      let ws := (List.range 25).map (fun j => (Reg.FWU_TOKEN_x j, u32 p (4 + 4 * j)))
      let r := fwWrites m (b, []) (ws ++ [(Reg.FWU_TOKEN_CMD, 1)])
      { blk := waitFor x (.token (u8 p 0)) r.1, cells := r.2, reply := none }
    else
      let r := lcAdvance x (u8 p 0) (b, [])
      { blk := r.1, cells := r.2, reply := none }

/-- A range of registers: aligned, and in the register space. -/
def regSpan (a k : Nat) : Bool := a % 4 == 0 && 0x40000000 ≤ a && a + 4 * k ≤ 0x40140000

/-- Words read until an error response, the first at `a`: the bytes, whether all were read, and the block. -/
def readWords (a : Nat) : Nat → Blk → List Byte × Bool × Blk
  | 0, b => ([], true, b)
  | k + 1, b =>
    let r := regRead .cc0 a b
    if r.2.1 then
      let t := readWords (a + 4) k r.2.2
      (toLE 4 r.1 ++ t.1, t.2)
    else ([], false, r.2.2)

/-- READ_REG. -/
def readRegCmd : Cmd where
  opcode := 0x0020
  fits := len 8
  permit := fun p _ _ =>
    refuse (!regSpan (u32 p 0) (u16 p 4) || u16 p 4 == 0 || 256 < u16 p 4 || dirty p 6 2) Status.badParam
  act := fun _ p _ b =>
    let r := readWords (u32 p 0) (u16 p 4) b
    { blk := r.2.2, reply := some (if r.2.1 then Status.ok else Status.domainOff, r.1) }
  readOnly := fun _ => true

/-- Words written until an error response: how many were written, the block and the cells. -/
def writeWords (m : Mem) (a : Nat) : List Nat → Nat → Blk × List Host.Cell → Nat × Bool × (Blk × List Host.Cell)
  | [], n, r => (n, true, r)
  | v :: vs, n, r =>
    let x := regWrite .cc0 a (BitVec.ofNat 32 v) [] (m.write r.2) r.1
    if x.2.2 then writeWords m (a + 4) vs (n + 1) (x.1, r.2 ++ x.2.1) else (n, false, r)

/-- WRITE_REG. -/
def writeRegCmd : Cmd where
  opcode := 0x0021
  fits := fun p => 8 ≤ p.length && p.length == 8 + 4 * u16 p 4
  permit := fun p _ _ => refuse (!regSpan (u32 p 0) (u16 p 4) || u16 p 4 == 0 || dirty p 6 2) Status.badParam
  act := fun _ p m b =>
    let r := writeWords m (u32 p 0) ((List.range (u16 p 4)).map (fun k => u32 p (8 + 4 * k))) 0 (b, [])
    { blk := r.2.2.1, cells := r.2.2.2
      reply := some (if r.2.1 then Status.ok else Status.domainOff, toLE 2 r.1 ++ toLE 2 0) }

end Sys2Proof.Machine
end

