-- ==== Sys2Proof/Machine/CmdTime.lean ====
section
/-!
DEFINITION. The commands of group 0x01, time (Table 12-7).
-/
namespace Sys2Proof.Machine

/-- The word of a time base's registers at an address, and the time base. -/
def tbWord (a : Nat) : Option (Nat × Nat) := grp a (Reg.TBn_CTRL 0) 0x100 4 64

/-- The registers of TB_CONFIG: those of a time base but its gains, the pair control and the timing registers of Table 2-16. -/
def tbConfigReg (a : Nat) : Bool :=
  (match tbWord a with
   | some (_, k) => [0, 8, 9, 10, 11, 12, 13, 17, 18, 23, 24, 25, 26, 27].contains k
   | none => false)
  || a == Reg.TB0_PAIR_CTRL || (Reg.TRK_Pp_TSQ_CTRL 0 ≤ a && a < 0x4005F300 && (regRow a).isSome)

/-- TB_CONFIG (R37). -/
def tbConfigCmd : Cmd := rsCmd 0x0101 tbConfigReg

/-- The gains. -/
def tbGainReg (a : Nat) : Bool :=
  match tbWord a with
  | some (_, k) => 19 ≤ k && k ≤ 22
  | none => false

/-- The stability region of R40 for KP and KI in units of 2^-16. -/
def gainsOk (kp ki : Nat) : Bool := 0 < kp && kp < 131072 && 0 < ki && 2 * kp + ki < 262144

/-- The first pair whose set of gains would lie outside the region. -/
def servoCross (ws : List (Nat × Nat)) (b : Blk) : Option Nat :=
  ws.findIdx? (fun x =>
    match tbWord x.1 with
    | some (n, k) =>
      let kp := Reg.TBn_CTRL n + 4 * (19 + (k - 19) / 2 * 2)
      !gainsOk (rsNow ws b kp) (rsNow ws b (kp + 4))
    | none => false)

/-- TB_SERVO_SET (R40). -/
def tbServoSetCmd : Cmd := rsCmd 0x0102 tbGainReg servoCross

/-- TB_OFFSET_FEED (R39): the sample is submitted; one that is dropped returns BAD_STATE, with the effects of a drop. The
reply names the state that the sample leaves as its clock ends. -/
def tbOffsetFeedCmd : Cmd where
  opcode := 0x0103
  fits := len 12
  domains := fun _ => [2]
  permit := fun p _ _ => refuse (3 < u8 p 0 || dirty p 1 3) Status.badParam
  act := fun _ p m b =>
    let n := u8 p 0
    let dropped := b.fld (Reg.TBn_CTRL n) 3 2 != 0 || tbDiscards b n true
    let r := fwWrites m (b, []) [(Reg.TBn_OFS_LO n, u32 p 4), (Reg.TBn_OFS_HI n, u32 p 8)]
    { blk := r.1, cells := r.2
      reply := some (if dropped then Status.badState else Status.ok, toLE 1 (tbState (tbSamplesAct r.1 n) n) ++ toLE 3 0) }

/-- TB_ACCEPT_JUMP (R43). -/
def tbAcceptJumpCmd : Cmd where
  opcode := 0x0104
  fits := len 4
  domains := fun _ => [2]
  permit := fun p _ _ => refuse (3 < u8 p 0 || dirty p 1 3) Status.badParam
  act := fun _ p m b => wroteOk (fwField m (b, []) (Reg.TBn_CTRL (u8 p 0)) 10 10 1)

/-- TB_DOMAIN_SWITCH (R46, R47): SEL and AUTO of TB0_PAIR_CTRL. -/
def tbDomainSwitchCmd : Cmd where
  opcode := 0x0105
  fits := len 4
  domains := fun _ => [2]
  permit := fun p _ b =>
    (refuse (u8 p 0 == 1 && tbState b 1 != 3) Status.badState)
    <|> (refuse (1 < u8 p 0 || 1 < u8 p 1 || dirty p 2 2) Status.badParam)
  act := fun _ p m b =>
    wroteOk (fwWrite m (b, []) Reg.TB0_PAIR_CTRL (putBits (putBits (b.rdN Reg.TB0_PAIR_CTRL) 1 1 (u8 p 0)) 2 2 (u8 p 1)))

/-- The registers of MERIDIAN_SET_MODE for Meridian `k`: the staged mode, the gains and the limits. -/
def merModeReg (k a : Nat) : Bool :=
  ((Reg.MERm_STAGE_SRC k ≤ a && a < Reg.MERm_MODEL_x k 0) || (Reg.MERm_KP_ACQ k ≤ a && a ≤ Reg.MERm_EDGE_DELAY k)) && writable a

/-- The staged mode as it would stand keeps R61 and R62; otherwise the first pair of the staged mode is named. -/
def merCross (k : Nat) (ws : List (Nat × Nat)) (b : Blk) : Option Nat :=
  if merModeOk b k (rsWrite [] b ws).1.stagedLast then none else some (rsTouch ws (fun a => Reg.MERm_STAGE_SRC k ≤ a))

/-- MERIDIAN_SET_MODE (R61, R62, R78). -/
def meridianSetModeCmd : Cmd where
  opcode := 0x0110
  fits := fun p => 8 ≤ p.length && rsFits 4 p
  domains := fun _ => [2]
  permit := fun p _ b =>
    (refuse (1 < u8 p 0 || 1 < u8 p 1 || dirty p 2 2) Status.badParam)
    <|> (rsPermit 4 (merModeReg (u8 p 0)) (if u8 p 1 = 0 then merCross (u8 p 0) else rsFree) p b)
  act := fun _ p m b =>
    let k := u8 p 0
    let r := fwField m (rsWrite m b (rsPairs 4 p)) (Reg.MERm_CTRL k) (8 + u8 p 1) (8 + u8 p 1) 1
    let frame := (merPos b k).1 + b2n (merOn b k)
    { blk := r.1, cells := r.2
      reply := some (if u8 p 1 = 0 then Status.accepted else Status.ok, rsReply (rsCount 4 p) 0xFFFF ++ toLE 4 frame) }

/-- MERIDIAN_STATUS (R89). -/
def meridianStatusCmd : Cmd where
  opcode := 0x0111
  fits := len 4
  domains := fun _ => [2]
  permit := fun p _ _ => refuse (1 < u8 p 0 || dirty p 1 3) Status.badParam
  act := fun _ p _ b =>
    let k := u8 p 0
    okWith b ((look b (Reg.MERm_STATUS k) :: merSnapshot b k
      ++ ([Reg.MERm_FREQ k, Reg.MERm_LAST_ERR k, Reg.MERm_GAP_US k, Reg.MERm_MISS_COUNT k, Reg.MERm_JUMP_COUNT k,
           Reg.MERm_HOLDOVER_MS k].map (look b))).flatMap (toLE 4))
  readOnly := fun _ => true

/-- The entry in a WAYPOINT_PROGRAM request. -/
def wptOf (p : List Byte) : Waypoint := { w0 := u32 p 4, w1 := u32 p 8, w2 := u32 p 12, w3 := u32 p 16 }

/-- The index that WAYPOINT_PROGRAM writes: the one named, or the lowest free. -/
def wptIndex (p : List Byte) (b : Blk) : Nat :=
  if u16 p 0 = 0xFFFF then ((List.range 1024).find? (fun i => (b.wpt i).isNone)).getD 0 else u16 p 0

/-- WAYPOINT_PROGRAM (R80, R81). -/
def waypointProgramCmd : Cmd where
  opcode := 0x0120
  fits := len 20
  domains := fun _ => [2]
  permit := fun p _ b =>
    let w := wptOf p
    (refuse ((u16 p 0 != 0xFFFF && 1024 ≤ u16 p 0) || dirty p 2 2 || bits w.w2 31 27 != 0 || (bit w.w2 24 && !wptOk b w)) Status.badParam)
    <|> (refuse (1024 ≤ b.wpts.length) Status.noResource)
  act := fun _ p m b =>
    let i := wptIndex p b
    let r := fwWrites m (b, []) ((Reg.WPT_INDEX, i) :: (List.range 4).map (fun j => (Reg.WPT_ENTRYx j, u32 p (4 + 4 * j))) ++ [(Reg.WPT_CMD, 1)])
    { blk := r.1, cells := r.2, reply := some (Status.ok, toLE 2 i ++ toLE 2 0) }

/-- WAYPOINT_CANCEL (R84). -/
def waypointCancelCmd : Cmd where
  opcode := 0x0121
  fits := len 4
  domains := fun _ => [2]
  permit := fun p _ _ => refuse (1024 ≤ u16 p 0 || dirty p 2 2) Status.badParam
  act := fun _ p m b =>
    let r := fwWrites m (b, []) [(Reg.WPT_INDEX, u16 p 0), (Reg.WPT_CMD, 3)]
    { blk := r.1, cells := r.2, reply := some (Status.ok, toLE 1 (b2n (b.wpt (u16 p 0)).isSome) ++ toLE 3 0) }

end Sys2Proof.Machine
end

