-- ==== Sys2Proof/Machine/CmdShow.lean ====
section
/-!
DEFINITION. The commands of groups 0x02 canvas, 0x03 Stitch, and 0x04 Atlas and colour (Tables 12-8 to 12-10).
-/
namespace Sys2Proof.Machine

/-! ### Canvas (Table 12-8) -/

/-- The registers of CANVAS_CONFIG. -/
def cnvConfigReg (a : Nat) : Bool := cnvStageRegs.contains a || a == Reg.CNV_CTRL

/-- The pairs of CANVAS_CONFIG as written: of CNV_CTRL only EN and MER_SEL. -/
def cnvPairs (p : List Byte) (b : Blk) : List (Nat × Nat) :=
  (rsPairs 0 p).map (fun x =>
    if x.1 = Reg.CNV_CTRL then (x.1, putBits (putBits (b.rdN x.1) 0 0 (bits x.2 0 0)) 4 4 (bits x.2 4 4)) else x)

/-- The staged Sheet as it would stand keeps R93; and no pair asks for APPLY itself. -/
def cnvCross (ws : List (Nat × Nat)) (b : Blk) : Option Nat :=
  (ws.findIdx? (fun x => x.1 == Reg.CNV_CTRL && bit x.2 8))
  <|> (if (stagedSheet (rsWrite [] b (ws.filter (fun x => x.1 != Reg.CNV_CTRL))).1.stagedLast).ok then none
       else some (rsTouch ws cnvStageRegs.contains))

/-- CANVAS_CONFIG (R93). -/
def canvasConfigCmd : Cmd := { rsCmd 0x0201 cnvConfigReg cnvCross with
  domains := fun _ => [4]
  act := fun _ p m b =>
    let r := rsWrite m b (cnvPairs p b)
    { blk := canvasApply r.1, cells := r.2, reply := some (Status.accepted, rsReply (rsCount 0 p) 0xFFFF) } }

/-- The registers of CANVAS_SUBSCRIBE. -/
def cnvSubReg (a : Nat) : Bool := Reg.CNV_RX_CTRL ≤ a && a ≤ Reg.CNV_HOST_FRAME && writable a

/-- An IPv4 multicast address. -/
def isGroup (ip : Nat) : Bool := ip / 2 ^ 28 == 14

/-- The groups that the canvas takes packets from, each with its source filter: of the enabled paths, and of Sheet streams. -/
def cnvGroups (b : Blk) : List (Nat × Nat) :=
  ((if b.flag Reg.CNV_RX_CTRL 0 then [(b.rdN Reg.CNV_RX_A_GROUP, b.rdN Reg.CNV_RX_A_SRCIP)] else [])
    ++ (if b.flag Reg.CNV_RX_CTRL 1 then [(b.rdN Reg.CNV_RX_B_GROUP, b.rdN Reg.CNV_RX_B_SRCIP)] else [])
    ++ [(b.rdN Reg.CNV_SS_GROUP, 0)]).filter (fun g => isGroup g.1)

/-- The multicast entry in which a group is, or may be put: one with its address under any VID, or the lowest free one. -/
def groupEntry (b : Blk) (ip : Nat) : Option Nat :=
  let at? (f : Option McEntry → Bool) : Option Nat := (List.range 256).find? (fun i => f (Tab.at none b.trk.mct i))
  at? (fun e => match e with | some x => x.mac == groupMac ip && x.any | none => false) <|> at? (fun e => e.isNone)

/-- Firmware joins a group and points it to the internal port (R265). -/
def groupJoin (b : Blk) (g : Nat × Nat) : Blk :=
  let b := b.emit (.igmpJoin g.1 g.2)
  match groupEntry b g.1 with
  | some i =>
    let mask := match Tab.at none b.trk.mct i with | some x => x.mask | none => 0
    mctPut b i (some { mac := groupMac g.1, vid := 0, any := true, mask := mask ||| 16 })
  | none => b

/-- The block once the pairs are written and the groups joined, and whether each had an entry. -/
def cnvSubscribe (m : Mem) (ws : List (Nat × Nat)) (b : Blk) : (Blk × List Host.Cell) × Bool :=
  let r := rsWrite m b ws
  let x := (cnvGroups r.1).foldl (fun x g => (groupJoin x.1 g, x.2 && (groupEntry x.1 g.1).isSome)) (r.1, true)
  ((x.1, r.2), x.2)

/-- CANVAS_SUBSCRIBE (R100, R265). -/
def canvasSubscribeCmd : Cmd := { rsCmd 0x0202 cnvSubReg with
  domains := fun _ => [3, 4]
  permit := fun p m b =>
    (rsPermit 0 cnvSubReg rsFree p b) <|> (refuse (!(cnvSubscribe m (rsPairs 0 p) b).2) Status.noResource)
  act := fun _ p m b =>
    let r := (cnvSubscribe m (rsPairs 0 p) b).1
    { blk := r.1, cells := r.2, reply := some (Status.ok, rsReply (rsCount 0 p) 0xFFFF) } }

/-- CANVAS_FLIP_POLICY (R102, R107, R108, R112). -/
def canvasFlipPolicyCmd : Cmd where
  opcode := 0x0203
  fits := len 8
  domains := fun _ => [4]
  permit := fun p _ _ => refuse (u8 p 2 == 0 || 7 < u8 p 3 || dirty p 6 2) Status.badParam
  act := fun _ p m b =>
    wroteOk (fwWrites m (b, [])
      [(Reg.CNV_FLIP_LINE, u16 p 0), (Reg.CNV_LOSS_FRAMES, u8 p 2), (Reg.CNV_CTRL, putBits (b.rdN Reg.CNV_CTRL) 7 5 (u8 p 3)),
       (Reg.CNV_MERGE_WAIT, u16 p 4)])

/-- CANVAS_BACKGROUND (R111). -/
def canvasBackgroundCmd : Cmd where
  opcode := 0x0204
  fits := len 8
  domains := fun _ => [4]
  permit := fun p _ _ => refuse (1023 < u16 p 0 || 1023 < u16 p 2 || 1023 < u16 p 4 || dirty p 6 2) Status.badParam
  act := fun _ p m b => wroteOk (fwWrite m (b, []) Reg.CNV_BG (u16 p 0 + 2 ^ 10 * u16 p 2 + 2 ^ 20 * u16 p 4))

/-- The limits of an emitter's rectangle and tiles (R114). -/
def emitterOk (b : Blk) (p : List Byte) : Bool :=
  let w (k : Nat) : Nat := u32 p (4 + 4 * k)
  let g := cnvSheet b
  let x := bits (w 1) 12 0
  let y := bits (w 1) 28 16
  let wd := bits (w 2) 12 0
  let h := bits (w 2) 28 16
  let tw := bits (w 3) 12 0
  let th := bits (w 3) 23 16
  1 ≤ wd && 1 ≤ h && g.x ≤ x && x + wd ≤ g.x + g.w && g.y ≤ y && y + h ≤ g.y + g.h && 1 ≤ tw && 2 ≤ th
    && (g.samp != 0 || th % 2 == 0) && tileLineBytes g.ten tw * th ≤ 8960

/-- REGION_EMIT (R114, R116). -/
def regionEmitCmd : Cmd where
  opcode := 0x0205
  fits := len 40
  domains := fun _ => [4]
  permit := fun p _ b =>
    (refuse (b.firm.role != 1) Status.badState)
    <|> (refuse (63 < u8 p 0 || dirty p 1 3 || dirty p 38 2 || !emitterOk b p) Status.badParam)
  act := fun _ p m b =>
    let ws := (List.range 8).map (fun k => (Reg.CNV_REe_CTRL (u8 p 0) + 4 * k, u32 p (4 + 4 * k)))
    wroteOk (fwWrites m (b, []) (ws.tail ++ ws.take 1 ++ [(Reg.CNV_RE_PACE, u16 p 36)]))

/-! ### Stitch (Table 12-9) -/

/-- The inactive program buffer. -/
def idleBuf (b : Blk) : Nat := 1 - stcBuf b

/-- The chunk of STITCH_LOAD_PROGRAM: its offset in the buffer and its bytes, given or copied from the show data. -/
def progChunk (p : List Byte) (m : Mem) : Nat × List Byte :=
  if bit (u32 p 8) 1 then (0, m.bytes (0x60B00000 + u32 p 0) (u32 p 4)) else (u32 p 0, p.drop 12)

/-- The words of the image that ends with this chunk. -/
def progWords (p : List Byte) : Nat := ((if bit (u32 p 8) 1 then 0 else u32 p 0) + u32 p 4) / 4

/-- STITCH_LOAD_PROGRAM (R137): its reply waits for the check where LAST loads the image. With LAST, an OFFSET or LENGTH that is no multiple
of 4 is refused, since STC_PROG_STAGE counts words (DESIGN CHOICE, log entry 66). -/
def stitchLoadProgramCmd : Cmd where
  opcode := 0x0301
  fits := fun p => 12 ≤ p.length && p.length == 12 + (if bit (u32 p 8) 1 then 0 else u32 p 4)
  domains := fun _ => [5]
  permit := fun p _ b =>
    let inside := if bit (u32 p 8) 1 then u32 p 4 ≤ 0x8000 && u32 p 0 + u32 p 4 ≤ 0x1000000 else u32 p 0 + u32 p 4 ≤ 0x8000
    (refuse (3 < u32 p 8 || !inside || (bit (u32 p 8) 0 && (u32 p 4 % 4 != 0 || u32 p 0 % 4 != 0 || progWords p < 16))) Status.badParam)
    <|> (refuse (b.fld Reg.STC_PROG_STATUS 3 1 != 0) Status.busy)
  act := fun x p m b =>
    let c := progChunk p m
    let r := busWrite (b, []) (progBase (idleBuf b) + c.1) c.2
    if bit (u32 p 8) 0 then
      let r := fwWrite m r Reg.STC_PROG_STAGE (idleBuf b + 2 ^ 16 * progWords p)
      let r := fwField m r Reg.STC_CTRL 8 8 1
      { blk := waitFor x .load r.1, cells := r.2, reply := none }
    else { blk := r.1, cells := r.2, reply := some (Status.ok, toLE 4 0) }

/-- STITCH_START (R138). -/
def stitchStartCmd : Cmd where
  opcode := 0x0302
  fits := len 4
  domains := fun _ => [5]
  permit := fun p _ _ => refuse (1 < u8 p 0 || dirty p 1 3) Status.badParam
  act := fun _ p m b =>
    let r := fwField m (b, []) Reg.STC_CTRL 1 0 (2 * u8 p 0 + 1)
    { blk := r.1, cells := r.2, reply := some (Status.accepted, []) }

/-- STITCH_STOP (R138). -/
def stitchStopCmd : Cmd where
  opcode := 0x0303
  fits := len 4
  domains := fun _ => [5]
  permit := fun p _ _ => refuse (1 < u8 p 0 || dirty p 1 3) Status.badParam
  act := fun _ p m b =>
    wroteOk (if u8 p 0 = 0 then fwField m (b, []) Reg.STC_CTRL 0 0 0 else fwField m (b, []) Reg.STC_CTRL 9 9 1)

/-- STITCH_SET_PARAM (R133): the writes are one step of the model, so no boundary falls among them and SPLIT is 0 (log entry 58). -/
def stitchSetParamCmd : Cmd where
  opcode := 0x0304
  fits := fun p => 4 ≤ p.length && p.length == 4 + 8 * u16 p 0
  domains := fun _ => [5]
  permit := fun p _ _ =>
    refuse (u16 p 0 == 0 || 1000 < u16 p 0 || 2 < u8 p 2 || dirty p 3 1
      || (List.range (u16 p 0)).any (fun k => 1024 ≤ u16 p (4 + 8 * k) || dirty p (6 + 8 * k) 2)) Status.badParam
  act := fun _ p m b =>
    let ws := (List.range (u16 p 0)).flatMap (fun k =>
      [(Reg.STC_PARAM_DATA, u32 p (8 + 8 * k)), (Reg.STC_PARAM_CMD, u16 p (4 + 8 * k) + 2 ^ 12 * u8 p 2 + 2 ^ 16)])
    okWith (fwWrites m (b, []) ws).1 (toLE 4 0)

/-- STITCH_CUE (R135): a cue that is ignored or does not fit is counted as R135 says. -/
def stitchCueCmd : Cmd where
  opcode := 0x0305
  fits := len 4
  domains := fun _ => [5]
  permit := fun p _ _ => refuse (dirty p 2 2) Status.badParam
  act := fun _ p m b =>
    let r := cueEnter (stcMer b) (merPos b (stcMer b)) (u16 p 0) m b
    endsWith r.1 (if r.2 = 0 then Status.ok else if r.2 = 1 then Status.badParam else Status.noResource)

/-- STITCH_TRACE (R140, Table 5-13). -/
def stitchTraceCmd : Cmd where
  opcode := 0x0306
  fits := fun p => 4 ≤ p.length && (if u8 p 0 = 0 then len 24 p else len 8 p)
  permit := fun p _ _ =>
    refuse (1 < u8 p 0 || dirty p 1 3
      || (u8 p 0 == 1 && (8192 ≤ u16 p 4 || u16 p 6 == 0 || 240 < u16 p 6))) Status.badParam
  act := fun _ p m b =>
    if u8 p 0 = 0 then
      wroteOk (fwWrites m (b, [])
        [(Reg.TRC_EVENT_MASK, u32 p 8), (Reg.TRC_TRIG_MASK, u32 p 12), (Reg.TRC_POST_COUNT, u32 p 16), (Reg.TRC_FLOW_FILTER, u32 p 20),
         (Reg.TRC_CTRL, u32 p 4)])
    else okWith b (toLE 4 (look b Reg.TRC_STATUS)
      ++ (List.range (u16 p 6)).flatMap (fun i => m.bytes (0x10E00000 + 32 * ((u16 p 4 + i) % 8192)) 32))
  readOnly := fun p => u8 p 0 == 1

/-! ### Atlas and colour (Table 12-10) -/

/-- The entries of ATLAS_WRITE, by index in their region. -/
def atlasEntries (p : List Byte) : List (Nat × List Byte) :=
  (List.range (u16 p 4)).map (fun k => ((u32 p 0 + k) % 4096, slice p (8 + 16 * k) 16))

/-- ATLAS_WRITE (R19): one that would take a pending commit over the channel limit of R148 is refused (log entry 65). -/
def atlasWriteCmd : Cmd where
  opcode := 0x0401
  fits := fun p => 8 ≤ p.length && p.length == 8 + 16 * u16 p 4
  permit := fun p m b =>
    let n := u16 p 4
    (refuse (n == 0 || 500 < n || dirty p 6 2 || 262144 < u32 p 0 + n || u32 p 0 / 4096 != (u32 p 0 + n - 1) / 4096) Status.badParam)
    <|> (refuse (atlasPut m b (u32 p 0 / 4096) (atlasEntries p)).isNone Status.busy)
    <|> (refuse (atlasOver m b (u32 p 0 / 4096) (atlasEntries p)) Status.noResource)
  act := fun _ p m b =>
    match atlasPut m b (u32 p 0 / 4096) (atlasEntries p) with
    | some r => wroteOk r
    | none => endsWith b Status.busy

/-- The regions of ATLAS_COMMIT. -/
def commitRegions (p : List Byte) : List Nat := (List.range 64).filter (fun r => bit (u64 p 0) r)

/-- ATLAS_COMMIT (R19, R148): FRAME is the next frame of the primary Meridian. -/
def atlasCommitCmd : Cmd where
  opcode := 0x0402
  fits := len 8
  permit := fun p m b => refuse (atlasCommitOf m b (commitRegions p)).isNone Status.noResource
  act := fun _ p m b =>
    { blk := (atlasCommitOf m b (commitRegions p)).getD b, reply := some (Status.accepted, toLE 4 ((merPos b (stcMer b)).1 + 1)) }

/-- CAL_WRITE (R153). -/
def calWriteCmd : Cmd where
  opcode := 0x0410
  fits := fun p => 4 ≤ p.length && p.length == 4 + 64 * u16 p 2
  permit := fun p _ _ => refuse (u16 p 2 == 0 || 125 < u16 p 2 || 65536 < u16 p 0 + u16 p 2) Status.badParam
  act := fun _ p _ b => wroteOk (busWrite (b, []) (0x10400000 + 64 * u16 p 0) (p.drop 4))

/-- CONTOUR_WRITE (R137, R150). -/
def contourWriteCmd : Cmd where
  opcode := 0x0411
  fits := fun p => 8 ≤ p.length && p.length == 8 + 4 * u16 p 4
  permit := fun p _ _ =>
    refuse (15 < u8 p 0 || dirty p 1 1 || dirty p 6 2 || u16 p 4 == 0 || 2000 < u16 p 4 || 4096 < u16 p 2 + u16 p 4) Status.badParam
  act := fun _ p _ b => wroteOk (busWrite (b, []) (0x10C10000 + 16384 * u8 p 0 + 4 * u16 p 2) (p.drop 8))

/-- MOTIF_SET (R166): the page not in use is written, the status bytes of page 1 left as they are, and SELECT flips with one write. -/
def motifSetCmd : Cmd where
  opcode := 0x0420
  fits := len 132
  permit := fun p _ _ => refuse (63 < u8 p 0 || dirty p 1 3) Status.badParam
  act := fun _ p m b =>
    let e := u8 p 0
    let pg := 1 - motifSelect m e
    let page := p.drop 4
    let a := motifPage e pg
    let ctrl := if pg = 0 then u32 p 4 else Mem.le m (motifPage e 0) 4
    let r := if pg = 0 then busWrite (b, []) (a + 4) (page.drop 4)
      else busWrite (busWrite (b, []) a (page.take 20)) (a + 32) (page.drop 32)
    wroteOk (busWrite r (motifPage e 0) (toLE 4 (putBits ctrl 31 31 pg)))

/-- MOTIF_START (R167). -/
def motifStartCmd : Cmd where
  opcode := 0x0421
  fits := len 12
  domains := fun _ => [5]
  permit := fun p _ _ => refuse (1 < u8 p 8 || dirty p 9 3) Status.badParam
  act := fun _ p _ b =>
    okEnd (((List.range 64).filter (fun e => bit (u64 p 0) e)).foldl (fun b e => motifRun b e (u8 p 8 == 1)) b)

end Sys2Proof.Machine
end

