-- ==== Sys2Proof/Machine/CmdStrand.lean ====
section
/-!
DEFINITION. The commands of group 0x05, strand (Table 12-11).
-/
namespace Sys2Proof.Machine

/-! ### Firmware's place in the Pool, and the reply ring -/

/-- Where firmware has an RDM response written, for port `n`: in the firmware-managed area of Table 1-7 (log entry 58). -/
def rdmPlace (n : Nat) : Nat := 0x10EA4000 + 512 * n
/-- Where firmware keeps the alternate-function record of port `n` that has no other place (log entry 58). -/
def altPlace (n : Nat) : Nat := 0x10EA8000 + 64 * n

/-- Where firmware places a control frame or request block for port `n` (log entry 58). -/
def ctlPlace (n : Nat) : Nat := 0x10F00000 + 2048 * n

/-- Firmware places a control frame or request block in the Pool and starts it: STR_n_CTL_ADDR and GO (R206, R211). -/
def ctlPut (x : Asker) (w : Await) (n : Nat) (block : List Byte) (m : Mem) (b : Blk) : CmdEnd :=
  if !busOk b true (ctlPlace n) block.length then fwFault b
  else
    let r := busWrite (waitFor x w b, []) (ctlPlace n) block
    let r := fwWrites m r [(Reg.STR_n_CTL_ADDR n, ctlPlace n), (Reg.STR_n_CTL_CMD n, 1)]
    { blk := r.1, cells := r.2, reply := none }

/-- The Itren control frame as STR_n_CTL_ADDR points to it: header and payload, no CRC (R206). -/
def ctlBlock (f : TxFrame) : List Byte := toLE 1 f.type ++ toLE 1 f.flags ++ toLE 2 f.addr ++ toLE 2 0 ++ toLE 2 f.payload.length ++ f.payload

/-- A command waits for an answer at port `n`. -/
def portAsked (b : Blk) (n : Nat) : Bool :=
  b.firm.waits.any (fun w => match w.2 with | .query k => k == n | .ring k _ => k == n | .sent k => k == n | _ => false)

/-- Port `n` has a firmware frame or request under way. -/
def portBusy (b : Blk) (n : Nat) : Bool :=
  b.flag (Reg.STR_n_STATUS n) 8 || portAsked b n || (b.alt n).rdm.isSome || (b.alt n).dali.isSome

/-- The port may send firmware's Itren control frames: FUNC 0, running, and not limited to CLAIM frames. -/
def portTalks (b : Blk) (n : Nat) : Bool := strFunc b n == 0 && strRuns b n && !strClaimOnly b n

/-! ### STRAND_CONFIG -/

/-- The registers of STRAND_CONFIG for port `n`. -/
def strConfigReg (n a : Nat) : Bool :=
  ((Reg.STR_n_CTRL n ≤ a && a < Reg.STR_n_CTRL n + 0x200) || (Reg.STR_REPLY_BASE ≤ a && a ≤ Reg.STR_REPLY_LOST)) && (regRow a).isSome

/-- What port `n` would be with the pairs written breaks a rule: R62, R171, R187, R197, R199, R208, R212 or R216; the register at fault. -/
def strBroken (n : Nat) (ws : List (Nat × Nat)) (b : Blk) : Option Nat :=
  let v (a : Nat) : Nat := rsNow ws b a
  let c := v (Reg.STR_n_CTRL n)
  let lay := v (Reg.STR_n_LAYOUT n)
  let ring := v (Reg.STR_n_RING n)
  let mir := v (Reg.STR_n_MIRROR n)
  let func := bits c 10 8
  let src := bits mir 4 0
  let lines := (bits lay 13 0 + max 1 (bits lay 25 16) - 1) / max 1 (bits lay 25 16)
  if !funcOk n func then some (Reg.STR_n_CTRL n)
  else if bit c 0 && !merInRange b (bits c 1 1) then some (Reg.STR_n_CTRL n)
  else if func = 1 && (bits lay 13 0 = 0 || 512 < bits lay 13 0) then some (Reg.STR_n_LAYOUT n)
  else if func = 2 && bits lay 13 0 != 0 then some (Reg.STR_n_LAYOUT n)
  else if bit mir 8 && (src = n || strMirror b src || (b.flag (Reg.STR_n_RING src) 0 && b.flag (Reg.STR_n_RING src) 6)) then some (Reg.STR_n_MIRROR n)
  else if bit c 3 && 256 < merRows b (bits c 1 1) * lines then some (Reg.STR_n_LAYOUT n)
  else if bit ring 0 && !bit ring 6 && !bit ring 8 && !bit c 4 then some (Reg.STR_n_RING n)
  else if bit ring 0 && bit c 2 then some (Reg.STR_n_CTRL n)
  else none

/-- The pair that the broken rule is put down to: that of the register at fault, or the first. -/
def strCross (n : Nat) (ws : List (Nat × Nat)) (b : Blk) : Option Nat :=
  (strBroken n ws b).map (fun a => rsTouch ws (fun x => x == a))

/-- The rate of a ring changes while one of its ports has EN set (R196). -/
def ringRateMoves (n : Nat) (ws : List (Nat × Nat)) (b : Blk) : Bool :=
  let ring := rsNow ws b (Reg.STR_n_RING n)
  bit ring 0 && bits (rsNow ws b (Reg.STR_n_RATE n)) 1 0 != bits (b.stagedLast (Reg.STR_n_RATE n)) 1 0
    && (b.flag (Reg.STR_n_CTRL n) 0 || (!bit ring 8 && b.flag (Reg.STR_n_CTRL (bits ring 5 1)) 0))

/-- STRAND_CONFIG (R62, R171, R187, R196, R199, R208). -/
def strandConfigCmd : Cmd where
  opcode := 0x0501
  fits := fun p => 8 ≤ p.length && rsFits 4 p
  domains := rsDomains 4
  permit := fun p _ b =>
    (refuse (31 < u8 p 0 || dirty p 1 3) Status.badParam)
    <|> (refuse (ringRateMoves (u8 p 0) (rsPairs 4 p) b) Status.badState)
    <|> (rsPermit 4 (strConfigReg (u8 p 0)) (strCross (u8 p 0)) p b)
  act := fun _ p m b => rsAct 4 m p b

/-! ### Itren commands -/

/-- The domain of the port in byte 0. -/
def portDomain (p : List Byte) : List Nat := if u8 p 0 < 32 then [strDom (u8 p 0)] else []

/-- STRAND_SURVEY (R190): with WAIT, the reply comes when Survey is over. -/
def strandSurveyCmd : Cmd where
  opcode := 0x0502
  fits := len 4
  domains := portDomain
  permit := fun p _ b =>
    let n := u8 p 0
    (refuse (n < 32 && (strFunc b n != 0 || b.flag (Reg.STR_n_CTRL n) 7 || (!bit (u8 p 1) 1 && !strRuns b n))) Status.badState)
    <|> (refuse (31 < n || 7 < u8 p 1 || dirty p 2 2) Status.badParam)
    <|> (refuse (!bit (u8 p 1) 1 && b.flag (Reg.STR_n_STATUS n) 7) Status.busy)
  act := fun x p m b =>
    let n := u8 p 0
    let r := fwWrite m (b, []) (Reg.STR_n_SURVEY_CTRL n) (4 * b2n (bit (u8 p 1) 0) + (if bit (u8 p 1) 1 then 2 else 1))
    if bit (u8 p 1) 2 then { blk := waitFor x (.survey n) r.1, cells := r.2, reply := none }
    else { blk := r.1, cells := r.2, reply := some (Status.accepted, []) }

/-- The length that the page of STRAND_ASSIGN has; none for a page it does not send. -/
def assignLen (p : List Byte) : Option Nat :=
  if u8 p 4 = 1 then some 20 else if u8 p 4 = 2 then some (8 + u16 p 6) else none

/-- STRAND_ASSIGN (R177): an ASSIGN frame; the reply comes after CTL_DONE. -/
def strandAssignCmd : Cmd where
  opcode := 0x0503
  fits := fun p => 8 ≤ p.length && (match assignLen p with | some k => p.length == k | none => true)
  domains := portDomain
  permit := fun p _ b =>
    let n := u8 p 0
    (refuse (n < 32 && !portTalks b n) Status.badState)
    <|> (refuse (31 < n || dirty p 1 1 || (assignLen p).isNone || 1028 < p.length || (u8 p 4 == 1 && u16 p 2 == 0xFFFF)) Status.badParam)
    <|> (refuse (portBusy b n) Status.busy)
  act := fun x p m b => ctlPut x (.sent (u8 p 0)) (u8 p 0) (ctlBlock { type := 2, addr := u16 p 2, payload := p.drop 4 }) m b

/-- STRAND_RATE (R196, R197). -/
def strandRateCmd : Cmd where
  opcode := 0x0504
  fits := len 8
  domains := portDomain
  permit := fun p _ b =>
    let n := u8 p 0
    (refuse (n < 32 && (strFunc b n != 0 || b.flag (Reg.STR_n_RING n) 0)) Status.badState)
    <|> (refuse (31 < n || 3 < u8 p 1 || 3 < u8 p 2 || 1 < u8 p 3 || 3 < u8 p 4 || dirty p 5 3) Status.badParam)
  act := fun _ p m b =>
    let n := u8 p 0
    let r := fwWrite m (b, []) (Reg.STR_n_RATE n) (u8 p 1 + 16 * u8 p 2 + 256 * u8 p 4)
    let r := fwField m r (Reg.STR_n_CTRL n) 2 2 (u8 p 3)
    { blk := r.1, cells := r.2, reply := some (Status.accepted, []) }

/-- STRAND_QUERY (R178): a QUERY frame; the reply is the entry of the reply ring. -/
def strandQueryCmd : Cmd where
  opcode := 0x0505
  fits := len 4
  domains := portDomain
  permit := fun p _ b =>
    let n := u8 p 0
    (refuse (n < 32 && !portTalks b n) Status.badState) <|> (refuse (31 < n || u16 p 2 == 0xFFFF) Status.badParam)
    <|> (refuse (portBusy b n || b.flag (Reg.STR_n_STATUS n) 9) Status.busy)
  act := fun x p m b =>
    ctlPut x (.query (u8 p 0)) (u8 p 0)
      (ctlBlock { type := 8, addr := u16 p 2, payload := toLE 1 (u8 p 1) ++ toLE 1 0 ++ toLE 2 x.seq }) m b
  readOnly := fun _ => true

/-- The ports of a mask. -/
def portsOf (v : Nat) : List Nat := (List.range 32).filter (fun n => bit v n)

/-- STRAND_PARK (R204, R210). -/
def strandParkCmd : Cmd where
  opcode := 0x0506
  fits := len 4
  domains := fun p => (portsOf (u32 p 0)).map strDom
  permit := fun p _ b => refuse ((portsOf (u32 p 0)).any (fun n => strFunc b n != 0)) Status.badState
  act := fun _ p m b =>
    let r := (portsOf (u32 p 0)).foldl (fun r n => fwField m r (Reg.STR_n_CTRL n) 11 11 1) (b, [])
    { blk := r.1, cells := r.2, reply := some (Status.accepted, []) }

/-! ### Alternate functions -/

/-- A number lies in a range. -/
def within (lo hi v : Nat) : Bool := lo ≤ v && v ≤ hi

/-- Every field of a record is in its range (Table 8-2, R210). -/
def recordOk (q : List Byte) : Bool :=
  within 92 176 (u16 q 0) && within 12 255 (u16 q 2) && within 1 255 (u8 q 5) && within 100 1000 (u16 q 6) && u8 q 8 ≤ 15 && u8 q 9 ≤ 7
    && within 176 352 (u16 q 10) && within 12 88 (u16 q 12) && within 2800 10000 (u16 q 14) && within 1 1000 (u16 q 16) && !dirty q 18 14

/-- Where the record of port `n` stands: where STR_n_SURVEY_ADDR points, if that is a Pool address 64-byte aligned; else firmware's own
place for it. -/
def altRecPlace (b : Blk) (n : Nat) : Nat :=
  let a := altRecAt b n
  if a % 64 = 0 && 0x10000000 ≤ a && a < 0x11000000 then a else altPlace n

/-- The record is written and FUNC and ROW_LEN set (R210). -/
def altConfig (n func slots : Nat) (q : List Byte) (m : Mem) (b : Blk) : CmdEnd :=
  let a := altRecPlace b n
  let r := busWrite (b, []) a (q.take 32)
  let r := fwWrite m r (Reg.STR_n_SURVEY_ADDR n) a
  let r := fwField m r (Reg.STR_n_LAYOUT n) 13 0 slots
  wroteOk (fwField m r (Reg.STR_n_CTRL n) 10 8 func)

/-- DMX_CONFIG (R210, R212). -/
def dmxConfigCmd : Cmd where
  opcode := 0x0510
  fits := len 36
  domains := portDomain
  permit := fun p _ _ =>
    refuse (31 < u8 p 0 || dirty p 1 1 || u16 p 2 == 0 || 512 < u16 p 2 || !recordOk (p.drop 4)) Status.badParam
  act := fun _ p m b => altConfig (u8 p 0) 1 (u16 p 2) (p.drop 4) m b

/-- DALI_CONFIG (R210, R216). -/
def daliConfigCmd : Cmd where
  opcode := 0x0518
  fits := len 36
  domains := portDomain
  permit := fun p _ _ => refuse (7 < u8 p 0 || dirty p 1 3 || !recordOk (p.drop 4)) Status.badParam
  act := fun _ p m b => altConfig (u8 p 0) 2 0 (p.drop 4) m b

/-- RDM_TRANSACT (R214). -/
def rdmTransactCmd : Cmd where
  opcode := 0x0511
  fits := fun p => 4 ≤ p.length && p.length == 4 + u8 p 2
  domains := portDomain
  permit := fun p _ b =>
    let n := u8 p 0
    (refuse (n < 32 && !(altRuns b n 1 && (b.alt n).rdmEn)) Status.badState)
    <|> (refuse (31 < n || 2 < u8 p 1 || u8 p 2 < 24 || dirty p 3 1) Status.badParam)
    <|> (refuse (portBusy b n) Status.busy)
  act := fun x p m b =>
    let n := u8 p 0
    ctlPut x (.ring n (x.seq % 65536)) n
      (toLE 2 x.seq ++ toLE 1 (u8 p 1) ++ toLE 1 (u8 p 2) ++ toLE 4 (rdmPlace n) ++ p.drop 4) m b

/-- DALI_TRANSACT (R217). -/
def daliTransactCmd : Cmd where
  opcode := 0x0519
  fits := len 8
  domains := portDomain
  permit := fun p _ b =>
    let n := u8 p 0
    let wide := bit (u8 p 1) 0
    (refuse (n < 8 && !altRuns b n 2) Status.badState)
    <|> (refuse (7 < n || 63 < u8 p 1 || 5 < bits (u8 p 1) 5 3 || dirty p 2 2 || (if wide then 2 ^ 24 else 2 ^ 16) ≤ u32 p 4) Status.badParam)
    <|> (refuse (portBusy b n) Status.busy)
  act := fun x p m b =>
    let n := u8 p 0
    ctlPut x (.ring n (x.seq % 65536)) n (toLE 2 x.seq ++ toLE 1 (u8 p 1) ++ toLE 1 0 ++ toLE 3 (u32 p 4) ++ toLE 1 0) m b

/-! ### What these commands wait for -/

/-- The reply to a request that has an entry of the reply ring at `a` (Tables 7-13, 12-11): TIMEOUT where the entry says so. -/
def ringReply (w : Await) (opcode a : Nat) (m : Mem) : Nat × List Byte :=
  let flags := Mem.le m (a + 1) 1
  let status := if bit flags 0 then Status.timeout else Status.ok
  match w with
  | .query _ => (status, m.bytes a 64)
  | .ring n _ =>
    if opcode = 0x0519 then (status, toLE 1 flags ++ toLE 1 (Mem.le m (a + 16) 1) ++ toLE 2 0 ++ m.bytes (a + 8) 4)
    else
      let k := min 260 (Mem.le m (a + 6) 2)
      (status, toLE 1 flags ++ toLE 1 0 ++ toLE 2 k ++ m.bytes (a + 8) 4 ++ m.bytes (rdmPlace n) k)
  | _ => (status, [])

/-- The entry at `a` answers what `w` waits for. -/
def ringAnswers (w : Await) (a : Nat) (m : Mem) : Bool :=
  match w with
  | .query n => Mem.le m a 1 == n && !bit (Mem.le m (a + 1) 1) 1
  | .ring n tag => Mem.le m a 1 == n && Mem.le m (a + 4) 2 == tag && !bit (Mem.le m (a + 1) 1) 5
  | _ => false

/-- While a command waits for the reply ring, firmware reads its next entry, answers the command it belongs to and advances
STR_REPLY_TAIL (R207). -/
def ringPoll (m : Mem) (b : Blk) : Blk × List Host.Cell :=
  let size := limit 16 4096 (b.fld Reg.STR_REPLY_SIZE 12 0)
  let tail := b.fld Reg.STR_REPLY_TAIL 11 0 % size
  if tail = b.fld Reg.STR_REPLY_HEAD 11 0 || !b.firm.waits.any (fun w => match w.2 with | .query _ => true | .ring _ _ => true | _ => false) then
    (b, [])
  else
    let a := b.rdN Reg.STR_REPLY_BASE + 64 * tail
    let r := fwWrite m (b, []) Reg.STR_REPLY_TAIL ((tail + 1) % size)
    match b.firm.waits.find? (fun w => ringAnswers w.2 a m) with
    | some w =>
      let e := ringReply w.2 w.1.opcode a m
      reply w.1 e.1 e.2 (r.1.setFirm { r.1.firm with waits := r.1.firm.waits.erase w }, r.2)
    | none => r

end Sys2Proof.Machine
end

