-- ==== Sys2Proof/Machine/CmdOut.lean ====
section
/-!
DEFINITION. The commands of groups 0x06, drive, 0x07, trunk, and 0x08, pair (Tables 12-12 to 12-14).
-/
namespace Sys2Proof.Machine

/-! ### Drive -/

/-- The registers of DRIVE_CONFIG. -/
def driveReg (a : Nat) : Bool := 0x400A0000 ≤ a && a < 0x400B0000 && writable a && (inst a (Reg.DRV_c_SET 0) 0x100 16).isNone

/-- A group is enabled on a Meridian outside the range of R62. -/
def driveCross (ws : List (Nat × Nat)) (b : Blk) : Option Nat :=
  let bad (a : Nat) : Bool := (inst a (Reg.DRV_GRPg_CTRL 0) 0x10 16).isSome && bit (rsNow ws b a) 0 && !merInRange b (bits (rsNow ws b a) 1 1)
  ws.findIdx? (fun x => bad x.1)

/-- DRIVE_CONFIG (R240). -/
def driveConfigCmd : Cmd := rsCmd 0x0601 driveReg driveCross

/-- The channels and levels of DRIVE_SET. -/
def driveLevels (p : List Byte) : List (Nat × Nat) :=
  (List.range (u8 p 0)).map (fun k => (u8 p (4 + 4 * k), beAt p (5 + 4 * k) 3))

/-- DRIVE_SET (R235). -/
def driveSetCmd : Cmd where
  opcode := 0x0602
  fits := fun p => 4 ≤ p.length && p.length == 4 + 4 * u8 p 0
  domains := fun _ => [8]
  permit := fun p _ b =>
    (refuse ((driveLevels p).any (fun x => x.1 < 16 && !b.flag (Reg.DRV_c_CTRL x.1) 2)) Status.badState)
    <|> (refuse (!within 1 16 (u8 p 0) || dirty p 1 3 || (driveLevels p).any (fun x => 15 < x.1)) Status.badParam)
  act := fun _ p m b => wroteOk (fwWrites m (b, []) ((driveLevels p).map (fun x => (Reg.DRV_c_SET x.1, x.2))))

/-- The channels of a mask. -/
def chansOf (v : Nat) : List Nat := (List.range 16).filter (bit v)

/-- The entry of DRIVE_DIAG for channel `c`. -/
def driveEntry (b : Blk) (c : Nat) : List Byte :=
  toLE 4 (look b (Reg.DRV_c_STATUS c)) ++ toLE 4 (look b (Reg.DRV_c_LEVEL c)) ++ toLE 2 (look b (Reg.DRV_c_STEP c)) ++ toLE 2 0
    ++ [Reg.DRV_c_WIDTH c, Reg.DRV_c_VSTR c, Reg.DRV_c_TEMP c, Reg.DRV_c_DERATE c, Reg.DRV_c_FAULT_COUNT c, Reg.DRV_c_UNVERIFIED_COUNT c,
        Reg.DRV_c_DIAG_PULSES c].flatMap (fun a => toLE 4 (look b a))

/-- DRIVE_DIAG (R246, R249): the faults are cleared after they have been read. -/
def driveDiagCmd : Cmd where
  opcode := 0x0603
  fits := len 4
  domains := fun _ => [8]
  permit := fun p _ _ => refuse (1 < u16 p 2) Status.badParam
  act := fun _ p _ b =>
    let cs := chansOf (u16 p 0)
    okWith (if u16 p 2 = 1 then cs.foldl (fun b c => drvFaultClr c b) b else b) (cs.flatMap (driveEntry b))
  readOnly := fun p => u16 p 2 == 0

/-- A list of temperatures is non-decreasing. -/
def ascending (ts : List Int) : Bool := (ts.zip ts.tail).all (fun x => decide (x.1 ≤ x.2))

/-- DRIVE_THERMAL_TABLE (R244). -/
def driveThermalTableCmd : Cmd where
  opcode := 0x0604
  fits := len 44
  domains := fun _ => [8]
  permit := fun p _ _ =>
    let ts := (List.range 8).map (fun k => sx 16 (u16 p (4 + 4 * k)))
    refuse (15 < u8 p 0 || dirty p 1 3 || !ascending ts) Status.badParam
  act := fun _ p m b =>
    let c := u8 p 0
    let ws := (List.range 8).map (fun k => (Reg.DRV_c_DERATE_x c k, u32 p (4 + 4 * k)))
    wroteOk (fwWrites m (b, []) (ws ++ [(Reg.DRV_c_TCRIT c, u32 p 36), (Reg.DRV_c_DFAULT c, u32 p 40)]))

/-! ### Trunk -/

/-- The registers of TRUNK_PORT_CONFIG: Table 10-12 but for TRK_TBL_*. -/
def trunkReg (a : Nat) : Bool :=
  0x40040000 ≤ a && a < 0x40044000 && (regRow a).isSome && !(Reg.TRK_TBL_CMD ≤ a && a ≤ Reg.TRK_TBL_STATUS)

/-- The trunk port that a request came in by. -/
def ingressPort (back : ReplyTo) : Option Nat :=
  match back with
  | .udp q _ _ _ => some q
  | .mailbox _ _ _ _ => none

/-- A mode change of the ingress port is kept out of the pairs and made 10 ms later. -/
def modeLater (b : Blk) (back : ReplyTo) (ws : List (Nat × Nat)) : List (Nat × Nat) × Option (Nat × Nat) :=
  match ingressPort back with
  | none => (ws, none)
  | some q =>
    let a := Reg.TRK_Pp_CTRL q
    let mode := b.fld a 2 0
    let want := bits (rsNow ws b a) 2 0
    (ws.map (fun x => if x.1 = a then (a, putBits x.2 2 0 mode) else x), if want = mode then none else some (a, want))

/-- TRUNK_PORT_CONFIG (R263, R264, R274, R283). -/
def trunkPortConfigCmd : Cmd where
  opcode := 0x0701
  fits := fun p => 4 ≤ p.length && rsFits 0 p
  domains := rsDomains 0
  permit := fun p _ b => rsPermit 0 trunkReg rsFree p b
  act := fun x p m b =>
    let ws := modeLater b x.back (rsPairs 0 p)
    let r := rsWrite m b ws.1
    let b := match ws.2 with
      | some (a, v) => laterOn (10 * msClocks) (.field a 2 0 v) r.1
      | none => r.1
    { blk := b, cells := r.2, reply := some (Status.ok, rsReply (rsCount 0 p) 0xFFFF) }

/-- The entry at offset `o` of SWITCH_TABLE_WRITE is one that it may hold. -/
def tblGood (p : List Byte) (o : Nat) : Bool :=
  let mc := u8 p (o + 1) == 1
  (u8 p o == 1 || u8 p o == 3) && u8 p (o + 1) ≤ 1 && (if mc then u8 p (o + 3) < 32 else u8 p (o + 2) == 0 && u8 p (o + 3) ≤ 4)
    && u16 p (o + 10) < (if mc then 0x2000 else 0x1000) && u8 p (o + 12) ≤ 1 && !dirty p (o + 13) 3

/-- The words of TRK_TBL_DATA0 to 2 and TRK_TBL_CMD for the entry at `o`, VALID where it is written. A MAC address is sent first byte
first. -/
def tblWords (p : List Byte) (o : Nat) : List (Nat × Nat) :=
  let mac := beAt p (o + 4) 6
  [(Reg.TRK_TBL_DATA0, mac % 2 ^ 32), (Reg.TRK_TBL_DATA1, mac / 2 ^ 32 + 65536 * (u16 p (o + 10) % 8192)),
    (Reg.TRK_TBL_DATA2, u8 p (o + 3) + 256 * u8 p (o + 12) + 512 * b2n (u8 p o == 1)), (Reg.TRK_TBL_CMD, u8 p o + 16 * u8 p (o + 1) + 256 * u8 p (o + 2))]

/-- Entries are written until a write is refused: how many were, and whether all. -/
def tblRun (p : List Byte) (m : Mem) : List Nat → Nat → Blk × List Host.Cell → Nat × Bool × (Blk × List Host.Cell)
  | [], n, r => (n, true, r)
  | k :: ks, n, r =>
    let r := fwWrites m r (tblWords p (4 + 16 * k))
    if u8 p (4 + 16 * k) = 1 && r.1.flag Reg.TRK_TBL_STATUS 2 then (n, false, r) else tblRun p m ks (n + 1) r

/-- SWITCH_TABLE_WRITE (R264, R265). -/
def switchTableWriteCmd : Cmd where
  opcode := 0x0702
  fits := fun p => 4 ≤ p.length && p.length == 4 + 16 * u8 p 0
  domains := fun _ => [3]
  permit := fun p _ _ =>
    refuse (u8 p 0 == 0 || dirty p 1 3 || !(List.range (u8 p 0)).all (fun k => tblGood p (4 + 16 * k))) Status.badParam
  act := fun _ p m b =>
    let r := tblRun p m (List.range (u8 p 0)) 0 (b, [])
    { blk := r.2.2.1, cells := r.2.2.2
      reply := some (if r.2.1 then Status.ok else Status.noResource, toLE 1 r.1 ++ toLE 3 0) }

/-- An address of E131_CONFIG: a register of Table 8-10, or a Pool word of the transmit table or the source name as they will stand. -/
def e131Addr (ws : List (Nat × Nat)) (b : Blk) (a : Nat) : Bool :=
  let table := rsNow ws b Reg.E131_TX_TABLE
  let name := rsNow ws b Reg.E131_NAME_ADDR
  let pool := 0x10000000 ≤ a && a < 0x11000000
  (0x4005C000 ≤ a && a < 0x4005F000 && (regRow a).isSome)
    || (pool && ((table ≤ a && a < table + 16 * rsNow ws b Reg.E131_TX_COUNT) || (name ≤ a && a < name + 64)))

/-- The groups of the universes that the pairs map with EN set (R220). -/
def e131Groups (ws : List (Nat × Nat)) : List (Nat × Nat) :=
  ws.filterMap (fun x => if (inst x.1 (Reg.E131_RX_MAPi 0) 4 1024).isSome && bit x.2 16 then some (0xEFFF0000 + x.2 % 65536, 0) else none)

/-- E131_CONFIG (R220, R225 to R227): firmware joins the groups of the universes it maps. -/
def e131ConfigCmd : Cmd where
  opcode := 0x0703
  fits := fun p => 4 ≤ p.length && rsFits 0 p
  domains := rsDomains 0
  permit := fun p _ b => rsPermit 0 (e131Addr (rsPairs 0 p) b) rsFree p b
  act := fun _ p m b =>
    let e := rsAct 0 m p b
    { e with blk := (e131Groups (rsPairs 0 p)).foldl groupJoin e.blk }

/-- WAKE_PATTERN_SET (R282). -/
def wakePatternSetCmd : Cmd := rsCmd 0x0704 (fun a => a == Reg.PWR_WAKE_CTRL || a == Reg.PWR_WAKE_ID || a == Reg.PWR_WAKE_CODE_LO || a == Reg.PWR_WAKE_CODE_HI)

/-! ### Pair -/

/-- The registers of PAIR_CONFIG. -/
def pairReg (a : Nat) : Bool := 0x400B0000 ≤ a && a < 0x400C0000 && writable a && a != Reg.PAIR_FORCE_CTRL

/-- PAIR_CONFIG (R303). -/
def pairConfigCmd : Cmd := rsCmd 0x0801 pairReg

/-- PAIR_STATUS (R303). -/
def pairStatusCmd : Cmd :=
  showCmd 0x0802 [] (fun _ b =>
    [Reg.PAIR_STATUS, Reg.PAIR_CLAIM, Reg.PAIR_FAULTS, Reg.PAIR_PEER, Reg.PAIR_PEER_AGE, Reg.PAIR_TAKEOVER_FRAME, Reg.PAIR_REVERT_REMAIN,
      Reg.PAIR_WKR_STATUS, Reg.PAIR_WKR_CLAIM, Reg.PAIR_TAKEOVERS, Reg.PAIR_SHADOW_MISMATCH].flatMap (fun a => toLE 4 (look b a)))

/-- PAIR_FORCE (R291, R302): ALLOW_RESET stays as it is. -/
def pairForceCmd : Cmd where
  opcode := 0x0803
  fits := len 4
  permit := fun p _ _ => refuse (2 < u8 p 0 || 1 < u8 p 1 || dirty p 2 2) Status.badParam
  act := fun _ p m b =>
    wroteOk (fwWrite m (b, []) Reg.PAIR_FORCE_CTRL (u8 p 0 + 256 * u8 p 1 + 512 * b.fld Reg.PAIR_FORCE_CTRL 9 9))

end Sys2Proof.Machine
end

