-- ==== Sys2Proof/Machine/CmdFw.lean ====
section
/-!
DEFINITION. The commands of group 0x09, firmware (Table 12-15): updates and Darn patches (R388, R389), settings areas (R390), and the
handover as firmware drives it (R391 to R397).
-/
namespace Sys2Proof.Machine

/-! ### Updates (R388) -/

/-- The slot that was booted, as BKP_14 records. -/
def bootedSlot (m : Mem) : Nat := w32 m (bkp 14) % 2

/-- The slot that an update writes. -/
def targetSlot (m : Mem) : Nat := 1 - bootedSlot m

/-- A range of flash is erased: every byte that has a value of its own reads 0xFF. -/
def rangeErase (m : Mem) (lo hi : Nat) : List Host.Cell :=
  (m.filter (fun c => decide (lo ≤ c.1) && decide (c.1 < hi))).map (fun c => (c.1, 0xFF#8))

/-- Probation runs. -/
def onProbation (b : Blk) : Bool := b.flag Reg.FWU_STATUS 4

/-- FW_BEGIN (R388). -/
def fwBeginCmd : Cmd where
  opcode := 0x0901
  fits := len 8
  permit := fun p _ b =>
    (refuse (1 < u8 p 4 || dirty p 5 3 || (u8 p 4 == 0 && 0x400000 < u32 p 0)) Status.badParam)
    <|> (refuse (b.fwu.transfer.isSome || onProbation b) Status.busy)
  act := fun _ p m b =>
    let s := targetSlot m
    let f := { b.fwu with verified := none, transfer := some { slot := s, total := u32 p 0, darn := u8 p 4 == 1, last := b.now } }
    { blk := b.setFwu f, cells := rangeErase m (slotBase s) (slotBase s + 0x400000), reply := some (Status.ok, toLE 1 s ++ toLE 3 0) }

/-! ### Darn patches (R389) -/

/-- What applying a Darn patch has come to, none where it fails, and what it has written up to there. -/
abbrev DarnRes := Option Transfer × List Host.Cell

/-- The header of a Darn patch is complete: SOURCE_HASH is the booted image's, and TARGET_HEADER passes checks 1, 3, 4 and 5. -/
def darnHeader (m : Mem) (b : Blk) (t : Transfer) : DarnRes :=
  let h := slice t.got 64 256
  let ok := leAt t.got 0 4 == 0xDA277740 && leAt t.got 4 2 == 1 && slice t.got 8 48 == m.bytes (slotBase (bootedSlot m) + 48) 48
    && headerCheck b 0x400000 false h == 0
  if ok then (some { t with taken := 320 }, cellsAt (slotBase t.slot) h) else (none, [])

/-- LENGTH of the target image, from the patch's TARGET_HEADER. -/
def darnLength (t : Transfer) : Nat := leAt t.got 80 4

/-- Output that an operation adds to the target body. -/
def darnOut (t : Transfer) (used : Nat) (bs : List Byte) (r : List Host.Cell) : DarnRes :=
  (some { t with taken := t.taken + used, out := t.out + bs.length }, r ++ cellsAt (slotBase t.slot + 256 + t.out) bs)

/-- LEN of an operation is in its range and its output within the target. -/
def darnLen (t : Transfer) (n : Nat) : Bool := 1 ≤ n && n ≤ 16777216 && t.out + n ≤ darnLength t

/-- One operation, or what has come of an INSERT (Table 15-7): unchanged where its bytes are not all there. An operation in error writes
nothing. -/
def darnStep (m : Mem) (t : Transfer) (r : List Host.Cell) : DarnRes :=
  let p := t.got.drop t.taken
  let src := bootedSlot m
  if 0 < t.left then
    let bs := p.take t.left
    darnOut { t with left := t.left - bs.length } bs.length bs r
  else if t.ended then (none, r)
  else match u8 p 0 with
    | 0 => if t.out = darnLength t then (some { t with taken := t.taken + 1, ended := true }, r) else (none, r)
    | 1 =>
      if p.length < 9 then (some t, r)
      else if darnLen t (u32 p 5) && u32 p 1 + u32 p 5 ≤ w32 m (slotBase src + 16) then
        darnOut t 9 (m.bytes (slotBase src + 256 + u32 p 1) (u32 p 5)) r
      else (none, r)
    | 2 =>
      if p.length < 5 then (some t, r)
      else if darnLen t (u32 p 1) then (some { t with taken := t.taken + 5, left := u32 p 1 }, r) else (none, r)
    | 3 =>
      if p.length < 6 then (some t, r)
      else if darnLen t (u32 p 1) then darnOut t 6 (List.replicate (u32 p 1) (BitVec.ofNat 8 (u8 p 5))) r else (none, r)
    | _ => (none, r)

/-- The operations that have come are applied, at most `k` of them. -/
def darnRun (m : Mem) : Nat → Transfer → List Host.Cell → DarnRes
  | 0, t, r => (some t, r)
  | k + 1, t, r =>
    if t.got.length ≤ t.taken then (some t, r)
    else match darnStep m t r with
      | (none, r) => (none, r)
      | (some t, r) => darnRun m k t r

/-- More bytes of a Darn patch have come. -/
def darnTake (m : Mem) (b : Blk) (t : Transfer) : DarnRes :=
  if t.got.length < 320 then (some t, [])
  else
    let n := t.got.length
    match if t.taken = 0 then darnHeader m b t else (some t, []) with
    | (none, r) => (none, r)
    | (some t, r) => darnRun m n t r

/-- FW_CHUNK's bytes have come before, and are the same. -/
def chunkAgain (t : Transfer) (o : Nat) (bs : List Byte) (m : Mem) : Bool :=
  o + bs.length ≤ t.next && (if t.darn then slice t.got o bs.length else m.bytes (slotBase t.slot + o) bs.length) == bs

/-- A chunk at NEXT is taken. -/
def chunkTake (t : Transfer) (bs : List Byte) (m : Mem) (b : Blk) : CmdEnd :=
  let t' := { t with next := t.next + bs.length, last := b.now }
  let r := if t.darn then darnTake m b { t' with got := t.got ++ bs } else (some t', cellsAt (slotBase t.slot + t.next) bs)
  { blk := b.setFwu { b.fwu with transfer := r.1 }
    cells := r.2
    reply := some (if r.1.isSome then Status.ok else Status.verifyFail, toLE 4 t'.next) }

/-- FW_CHUNK (R388, R389). -/
def fwChunkCmd : Cmd where
  opcode := 0x0902
  fits := fun p => 4 ≤ p.length
  permit := fun p m b =>
    match b.fwu.transfer with
    | none => some (Status.badState, [])
    | some t =>
      let bs := p.drop 4
      refuse (!(u32 p 0 == t.next && t.next + bs.length ≤ t.total) && !chunkAgain t (u32 p 0) bs m) Status.badParam
  act := fun _ p m b =>
    match b.fwu.transfer with
    | none => endsWith b Status.badState
    | some t =>
      if u32 p 0 = t.next then chunkTake t (p.drop 4) m b
      else okWith (b.setFwu { b.fwu with transfer := some { t with last := b.now } }) (toLE 4 t.next)

/-- FW_VERIFY (R384, R388): the transfer ends; `err`: reading the target slot meets an error. -/
def fwVerifyWith (err : Bool) : Cmd where
  opcode := 0x0903
  fits := len 0
  act := fun _ _ m b =>
    let s := targetSlot m
    let c := imageCheck b err (slotImage m s)
    let b := slotSeen m b s c
    { blk := b.setFwu { b.fwu with transfer := none, verified := if c = 0 then some s else none }
      reply := some (if c = 0 then Status.ok else Status.verifyFail, toLE 1 c ++ toLE 3 0) }

/-- FW_VERIFY of a slot that can be read. -/
abbrev fwVerifyCmd : Cmd := fwVerifyWith false

/-- A transfer ends after 10 minutes without a chunk (R388). -/
def transferTimeout (b : Blk) : Blk :=
  match b.fwu.transfer with
  | some t => if t.last + 600 * 1000 * msClocks ≤ b.now then b.setFwu { b.fwu with transfer := none } else b
  | none => b

/-! ### Settings areas (R390) -/

/-- The address of settings area `i`. -/
def areaBase (i : Nat) : Nat := 0x60900000 + 0x100000 * i

/-- Area `i` is valid. -/
def areaValid (m : Mem) (i : Nat) : Bool :=
  let n := w32 m (areaBase i + 12)
  w32 m (areaBase i) == 0x5E777740 && n ≤ 1048544 && crc32 (m.bytes (areaBase i + 32) n) == w32 m (areaBase i + 16)

/-- GENERATION of area `i`. -/
def areaGen (m : Mem) (i : Nat) : Nat := w32 m (areaBase i + 8)

/-- The running image reads area `i`. -/
def areaRead (m : Mem) (b : Blk) (i : Nat) : Bool :=
  let h := runHead m b
  areaValid m i && leAt h 30 2 ≤ m.le (areaBase i + 4) 2 && m.le (areaBase i + 4) 2 ≤ leAt h 28 2

/-- The current area, none where none is readable. -/
def areaNow (m : Mem) (b : Blk) : Option Nat :=
  match areaRead m b 0, areaRead m b 1 with
  | true, true => some (if areaGen m 0 < areaGen m 1 then 1 else 0)
  | true, false => some 0
  | false, true => some 1
  | false, false => none

/-- What firmware saves in area `i` in the model's own words: role, device ID and group, and the replay table (R311). -/
def settingsNow (i : Nat) (b : Blk) : Blk :=
  b.setFirm { b.firm with
      replaySaved := b.firm.replay
      saved := Tab.upd {} b.firm.saved i { role := b.firm.role, id := b.deviceId, group := b.firm.group } }

/-- The area and GENERATION that the next save writes: the other than the current one; in probation, the other than the one in force at
the handover (R390, R395). -/
def areaNext (m : Mem) (b : Blk) : Nat × Nat :=
  let gen := match areaNow m b with
    | some i => areaGen m i + 1
    | none => 1 + max (if areaValid m 0 then areaGen m 0 else 0) (if areaValid m 1 then areaGen m 1 else 0)
  (if onProbation b then 1 - b.firm.inForce else match areaNow m b with | some i => 1 - i | none => 0, gen % 2 ^ 32)

/-- A settings area is written (R390): its content is firmware's own. -/
def settingsSave (m : Mem) (b : Blk) : Blk × List Host.Cell :=
  let x := areaNext m b
  let body := (Config.settings b.freeCount).take 1048544
  let head := toLE 4 0x5E777740 ++ toLE 2 (leAt (runHead m b) 28 2) ++ toLE 2 0 ++ toLE 4 x.2 ++ toLE 4 body.length
    ++ toLE 4 (crc32 body) ++ toLE 12 0
  (settingsNow x.1 b.drawn, rangeErase m (areaBase x.1) (areaBase x.1 + 0x100000) ++ cellsAt (areaBase x.1) (head ++ body))

/-- SETTINGS_SAVE (R390). -/
def settingsSaveCmd : Cmd where
  opcode := 0x0907
  fits := len 0
  act := fun _ _ m b =>
    let x := areaNext m b
    let r := settingsSave m b
    { blk := r.1, cells := r.2, reply := some (Status.ok, toLE 1 x.1 ++ toLE 3 0 ++ toLE 4 x.2) }

/-- Role, device ID and group as area `i` holds them. -/
def identityTake (i : Nat) (b : Blk) : Blk :=
  let x := Tab.at {} b.firm.saved i
  { b with deviceId := x.id }.setFirm { b.firm with role := x.role, group := x.group }

/-! ### Handover and revert (R391, R397) -/

/-- Where firmware has the state record where FWU_REC_ADDR names no Pool address 64-byte aligned (log entry 58). -/
def recPlace (b : Blk) : Nat :=
  let a := b.rdN Reg.FWU_REC_ADDR
  if a % 64 = 0 && 0x10EA4000 ≤ a && a + 0x40000 ≤ 0x11000000 then a else 0x10EB0000

/-- The copy of a slot's body is started (Table 15-8, step 1). -/
def bodyCopy (m : Mem) (r : Blk × List Host.Cell) (s : Nat) : Blk × List Host.Cell :=
  let h := slotBase s
  fwWrites m r ([(Reg.FWU_COPY_SRC, h + 256 - 0x60000000), (Reg.FWU_COPY_LEN, w32 m (h + 16))]
    ++ (List.range 12).map (fun j => (Reg.FWU_COPY_HASHx j, w32 m (h + 48 + 4 * j))) ++ [(Reg.FWU_CTRL, 1)])

/-- FW_HANDOVER is under way. -/
def handingOver (b : Blk) : Bool := b.flag Reg.FWU_STATUS 3 || b.firm.waits.any (fun w => match w.2 with | .handover _ _ => true | _ => false)

/-- FW_HANDOVER (R391). -/
def fwHandoverCmd : Cmd where
  opcode := 0x0904
  fits := len 4
  permit := fun _ m b =>
    (refuse (b.fwu.verified != some (targetSlot m) && !onProbation b) Status.badState) <|> (refuse (onProbation b || handingOver b) Status.busy)
  act := fun x p m b =>
    let s := targetSlot m
    let b := b.setFwu { b.fwu with before := s, directBefore := none, probation := if u32 p 0 = 0 then 600 else u32 p 0, hoStatus := none }
    let r := bodyCopy m (b, []) s
    { blk := waitFor x (.handover 0 0) r.1, cells := r.2, reply := none }

/-- A section of a state record: TYPE, FLAGS, LENGTH, and the value padded with zeros to a multiple of 4 bytes (R392). -/
def recSection (s : Nat × Bool × List Byte) : List Byte :=
  toLE 2 (1 + s.1 % 0xFFFF) ++ toLE 2 (b2n s.2.1) ++ toLE 4 s.2.2.length ++ s.2.2
    ++ List.replicate ((4 - s.2.2.length % 4) % 4) 0#8

/-- The sections that fit in `room` bytes, then TYPE 0, which ends the list (R392). -/
def recSections : Nat → List (Nat × Bool × List Byte) → List Byte
  | _, [] => toLE 2 0
  | room, s :: l => if (recSection s).length + 2 ≤ room then recSection s ++ recSections (room - (recSection s).length) l else toLE 2 0

/-- The state record (Table 15-9), at most 256 KiB. -/
def stateRecord (m : Mem) (b : Blk) : List Byte :=
  let h := runHead m b
  let i := (areaNow m b).getD 0
  let body := recSections 262112 (Config.stateSections b.freeCount)
  let front := toLE 4 0x57A77740 ++ toLE 2 (leAt h 24 2) ++ toLE 2 0 ++ toLE 4 (32 + body.length) ++ slice h 8 4
    ++ toLE 4 (areaGen m i) ++ toLE 1 i ++ toLE 7 0
  front ++ toLE 4 (crc32 (front ++ toLE 4 0 ++ body)) ++ body

/-- Step 3 of Table 15-8: the record, the addresses, SWITCH. The resume address is the old image's own, so a free value (log entry 3). -/
def switchOver (m : Mem) (b : Blk) : Blk × List Host.Cell :=
  let a := recPlace b
  let r := busWrite (b.setFirm { b.firm with inForce := (areaNow m b).getD 0 }, []) a (stateRecord m b)
  let entry := halfBase (1 - runHalf b) + w32 m (slotBase b.fwu.before + 20)
  fwWrites m (r.1.drawn, r.2)
    [(Reg.FWU_REC_ADDR, a), (Reg.FWU_RESUME_ADDR, Config.freeValue b.freeCount), (Reg.FWU_ENTRY_ADDR, entry), (Reg.FWU_CTRL, 0x77400002)]

/-- The image of FW_VERSION `version` knows every CRITICAL type among the sections at `p` (R392, R393): at most `k` of them, up to the list's
end. -/
def sectionsKnown (version : Nat) : Nat → List Byte → Bool
  | 0, _ => true
  | k + 1, p =>
    let t := leAt p 0 2
    t == 0 || ((!bit (leAt p 2 2) 0 || Config.knowsSection version t) && sectionsKnown version k (p.drop (8 + (leAt p 4 4 + 3) / 4 * 4)))

/-- The new image can take over: the record's CRC is good, it reads the record's SCHEMA and knows its CRITICAL types, and it reads the
settings area that the record names (R393). -/
def recordGood (m : Mem) (b : Blk) : Bool :=
  let a := b.rdN Reg.FWU_REC_ADDR
  let n := w32 m (a + 8)
  let p := m.bytes a (min n 0x40000)
  let h := runHead m b
  leAt p 0 4 == 0x57A77740 && 32 ≤ n && n ≤ 0x40000 && crc32 (p.take 28 ++ toLE 4 0 ++ p.drop 32) == leAt p 28 4
    && leAt h 26 2 ≤ leAt p 4 2 && leAt p 4 2 ≤ leAt h 24 2
    && sectionsKnown (leAt h 8 4) n (p.drop 32) && leAt p 20 1 < 2 && areaRead m b (leAt p 20 1)

/-- The new image's write of CONFIRM while the handover is under way: only where it can take over, else RETURN (R393; log entry 58). -/
def fwuConfirmWrite (v : Nat) (m : Mem) (b : Blk) : Blk :=
  fwuCtrlWrite (if b.flag Reg.FWU_STATUS 3 && !recordGood m b then 0x77400008 else v ||| 4) b

/-- FWU_CONFIRM (R393). -/
def execFwuConfirm (value : Word) (s : State) : Result := inDom 1 (onView (fwuConfirmWrite value.toNat)) s

/-- FW_COMMIT (R396). -/
def fwCommitCmd : Cmd where
  opcode := 0x0905
  fits := len 0
  permit := fun _ _ b => refuse (!onProbation b) Status.badState
  act := fun _ _ m b => wroteOk (commitImage m b)

/-- FW_REVERT (R397): the old slot's body is copied first. -/
def fwRevertCmd : Cmd where
  opcode := 0x0906
  fits := len 0
  permit := fun _ _ b =>
    (refuse (!onProbation b) Status.badState)
    <|> (refuse (b.firm.waits.any (fun w => match w.2 with | .revert _ _ => true | _ => false)) Status.busy)
  act := fun x _ m b =>
    let r := bodyCopy m (b.setFwu { b.fwu with hoStatus := none }, []) b.fwu.before
    { blk := waitFor x (.revert 0 0) r.1, cells := r.2, reply := none }

/-- REVERT is written; the old image takes its own settings area again and reapplies what it holds (R397). -/
def revertNow (m : Mem) (b : Blk) : Blk × List Host.Cell :=
  let r := fwWrite m (b, []) Reg.FWU_CTRL 0x77400010
  let b := identityTake b.firm.inForce r.1
  fwWrites m (b.drawn, r.2) (Config.settingsWrites b.freeCount)

end Sys2Proof.Machine
end

