-- ==== Sys2Proof/Machine/CmdDiag.lean ====
section
/-!
DEFINITION. The commands of groups 0x0A, diagnostics, and 0x0B, hierarchy (Tables 12-16 and 12-17).
-/
namespace Sys2Proof.Machine

/-! ### Diagnostics -/

/-- LIFELOG_READ (R410). -/
def lifelogReadCmd : Cmd where
  opcode := 0x0A01
  fits := len 12
  permit := fun p _ _ => refuse (3 < u16 p 0 || dirty p 2 2 || dirty p 10 2) Status.badParam
  act := fun _ p m b =>
    let bs := ((lifeRecord m b (u16 p 0)).drop (u32 p 4)).take (u16 p 8)
    okWith b (toLE 2 bs.length ++ toLE 2 0 ++ bs)
  readOnly := fun _ => true

/-- The CLR_COUNTS that governs register `a`: of its unit where it has one, else of its block (R57, R89, R117, R142, R206, R227, R254,
R283, R303, R343, R353, R359, R427). -/
def clrFor (a : Nat) (b : Blk) : Blk :=
  match a / 65536 with
  | 0x4002 =>
    (match grp a (Reg.TBn_CTRL 0) 0x100 4 64, grp a (Reg.MERm_CTRL 0) 0x200 2 128 with
     | some x, _ => tbClrCounts x.1 b
     | none, some x => merClrCounts x.1 b
     | none, none => b)
  | 0x4004 =>
    (match grp a (Reg.TRK_Pp_CTRL 0) 0x400 5 256 with
     | some x => trkClrCounts (some x.1) b
     | none => trkClrCounts none b)
  | 0x4005 => if 0x4005C000 ≤ a && a < 0x4005F000 then e131ClrCounts b else trkClrCounts none b
  | 0x4006 => cnvClrCounts b
  | 0x4007 => stcClrCounts b
  | 0x4009 =>
    (match grp a (Reg.STR_n_CTRL 0) 0x200 32 128 with
     | some x => strClrCounts x.1 b
     | none => b)
  | 0x400A =>
    (match grp a (Reg.DRV_c_CTRL 0) 0x100 16 64 with
     | some x => drvClrCounts (some x.1) b
     | none => drvClrCounts none b)
  | 0x400B => pairClrCounts b
  | 0x400D => dmaClrCounts b
  | 0x400E => sknClrCounts b
  | 0x400F => crcClrCounts b
  | 0x4010 => calClrCounts b
  | 0x4012 => b.zero [Reg.HST_ACL_DROPS, Reg.HST_CA_COUNT, Reg.HST_UR_COUNT]
  | _ => b

/-- COUNTERS_READ: CLEAR acts after the read. -/
def countersReadCmd : Cmd where
  opcode := 0x0A02
  fits := len 8
  domains := fun p => (List.range (u16 p 4)).filterMap (fun k => regDomain (u32 p 0 + 4 * k))
  permit := fun p _ _ =>
    refuse (!regSpan (u32 p 0) (u16 p 4) || !within 1 256 (u16 p 4) || 1 < u16 p 6) Status.badParam
  act := fun _ p _ b =>
    let r := readWords (u32 p 0) (u16 p 4) b
    let b := if u16 p 6 = 1 then (List.range (u16 p 4)).foldl (fun b k => clrFor (u32 p 0 + 4 * k) b) r.2.2 else r.2.2
    { blk := b, reply := some (if r.2.1 then Status.ok else Status.domainOff, r.1) }
  readOnly := fun p => u16 p 6 == 0

/-- The job number of SWATCH_RUN (R413). -/
def swatchJob (p : List Byte) : Nat := u8 p 1 + 256 * u8 p 0 + 1024 * u16 p 2

/-- SWATCH_RUN (R413, R414). -/
def swatchRunCmd : Cmd where
  opcode := 0x0A03
  fits := len 4
  permit := fun p m b =>
    (refuse (2 < u8 p 0 || 1 < u16 p 2 || (calCommand m b (swatchJob p)).2 = .bad) Status.badParam)
    <|> (refuse ((calCommand m b (swatchJob p)).2 = .busy) Status.busy)
  act := fun _ p m b =>
    { blk := (calCommand m b (swatchJob p)).1, reply := some (Status.accepted, toLE 2 (swatchJob p) ++ toLE 2 0) }

/-- GAUGE, SECOND and the age index of a unit (R426). -/
def gaugeOf (b : Blk) (kind u : Nat) : Nat × Nat × Nat :=
  match kind with
  | 0 => (look b (Reg.CAL_STRn_EYE u), look b (Reg.CAL_STRn_GAUGE u), u)
  | 1 =>
    let g := look b (Reg.CAL_DRVc_GAUGE u)
    (ux 32 (sx 16 (bits g 15 0)), ux 32 (sx 16 (bits g 31 16)), 32 + u)
  | _ =>
    let g := look b (Reg.CAL_TRKp_EYE u)
    (bits g 6 0, bits g 31 16, 48 + u)

/-- GAUGE_READ (R426): GAUGE reads 0 before any update. -/
def gaugeReadCmd : Cmd where
  opcode := 0x0A04
  fits := len 4
  permit := fun p _ _ => refuse (2 < u8 p 0 || [32, 16, 4].getD (u8 p 0) 0 ≤ u8 p 1 || dirty p 2 2) Status.badParam
  act := fun _ p _ b =>
    let g := gaugeOf b (u8 p 0) (u8 p 1)
    okWith b (toLE 4 (if Tab.at 0 b.cal.ages g.2.2 = 0 then 0 else g.1) ++ toLE 4 g.2.1 ++ toLE 4 (calAgeMs b g.2.2) ++ toLE 4 0)
  readOnly := fun _ => true

/-- READBACK_STATUS (R201). -/
def readbackStatusCmd : Cmd where
  opcode := 0x0A05
  fits := len 4
  domains := fun p => (portsOf (u32 p 0)).map strDom
  act := fun _ p _ b =>
    okWith b ((portsOf (u32 p 0)).flatMap (fun n =>
      toLE 4 (look b (Reg.STR_n_RB_FRAMES n)) ++ toLE 4 (look b (Reg.STR_n_RB_MISMATCH n)) ++ toLE 4 (look b (Reg.STR_n_STATUS n))))
  readOnly := fun _ => true

/-! ### Hierarchy -/

/-- The devices of RELAY. -/
def relayDevs (p : List Byte) : List Nat := (List.range (u16 p 0)).map (fun k => u16 p (4 + 2 * k) % 4096)

/-- The inner packet of RELAY. -/
def relayInner (p : List Byte) : List Byte := p.drop (4 + 2 * u16 p 0)

/-- The statuses of a RELAY's devices. -/
def relayReply (devs : List (Nat × Option Nat)) : List Byte :=
  devs.flatMap (fun d => toLE 2 d.1 ++ toLE 2 (d.2.getD Status.timeout))

/-- The inner packet goes to a worker, authenticated by the manager under the hierarchy key (log entry 58); one that is not in the
hierarchy table, or that cannot be sent, has its status at once. -/
def relaySend (q : List Byte) (x : Blk × List (Nat × Option Nat)) (d : Nat) : Blk × List (Nat × Option Nat) :=
  match Tab.at none x.1.firm.table d with
  | none => (x.1, x.2 ++ [(d, some Status.badParam)])
  | some w =>
    match pktBuild x.1 (some 0) (pktOpcode q) (pktSeq q) d (leAt q 12 2 / 2 * 2) 0 (pktPayload q) with
    | none => (x.1, x.2 ++ [(d, some Status.authFail)])
    | some (b, bs) => (fwSendTo w.ip bs b, x.2 ++ [(d, none)])

/-- RELAY (R317): the reply comes with the last worker's, or after 100 ms. -/
def relayCmd : Cmd where
  opcode := 0x0B01
  fits := fun p => 4 ≤ p.length && 4 + 2 * u16 p 0 + 16 ≤ p.length && pktForm 8192 (relayInner p)
  permit := fun p _ b =>
    (refuse (b.firm.role != 1) Status.badState) <|> (refuse (!within 1 1024 (u16 p 0) || dirty p 2 2) Status.badParam)
  act := fun x p _ b =>
    let q := relayInner p
    let r := (relayDevs p).foldl (relaySend q) (b, [])
    if r.2.all (fun d => d.2.isSome) then okWith r.1 (relayReply r.2)
    else { blk := waitFor x (.relay (pktOpcode q) (pktSeq q) (r.1.now + relayClocks) r.2) r.1, reply := none }
  readOnly := fun _ => true

/-- The kept table from entry FIRST on, in ascending DEVICE order, at most 1,000 entries, and TOTAL and COUNT before them. -/
def tablePage (b : Blk) (first : Nat) : List Byte :=
  let all := b.firm.table.filterMap (fun e => e.2.map (fun w => (e.1, w)))
  let page := (all.drop first).take 1000
  toLE 2 all.length ++ toLE 2 page.length
    ++ page.flatMap (fun e => toLE 2 e.1 ++ toLE 1 e.2.role ++ toLE 1 e.2.state ++ toLE 4 e.2.ip)

/-- A worker's own entry; what STATE says, the spec leaves open: a free value (log entries 3 and 58). -/
def ownEntry (b : Blk) : List Byte :=
  toLE 2 1 ++ toLE 2 1 ++ toLE 2 b.deviceId ++ toLE 1 b.firm.role ++ toLE 1 (Config.freeValue b.freeCount) ++ toLE 4 Config.ownIp.toNat

/-- The manager broadcasts a ROLL_CALL to its group and waits (R311). -/
def rollCallSend (x : Asker) (p : List Byte) (b : Blk) : CmdEnd :=
  match pktBuild b (some 0) 0x0B02 x.seq 0 16 0 p with
  | none => endsWith b Status.authFail
  | some (b, bs) =>
    { blk := waitFor x (.rollCall x.seq (u16 p 4) (b.now + (if u16 p 2 = 0 then 100 else u16 p 2) * msClocks)) (fwSendTo b.firm.group bs (b.setFirm { b.firm with heard := [] }))
      reply := none }

/-- A ROLL_CALL is under way. -/
def rollCalling (b : Blk) : Bool := b.firm.waits.any (fun w => match w.2 with | .rollCall _ _ _ => true | _ => false)

/-- ROLL_CALL (Table 12-17): the manager calls; a worker answers a broadcast DEVICE × 20 µs after it; other devices do not (log
entry 57). -/
def rollCallCmd : Cmd where
  opcode := 0x0B02
  fits := len 8
  act := fun x p _ b =>
    if x.broadcast && b.firm.role != 1 then
      let b := if b.firm.role = 2 && u8 p 0 = 0 then
          laterOn (20000 * b.deviceId) (.reply x Status.ok (ownEntry b)) b.drawn
        else b
      { blk := b, reply := none }
    else if u8 p 0 = 0 && b.firm.role != 1 then endsWith b Status.badState
    else if 1 < u8 p 0 || dirty p 1 1 || dirty p 6 2 then endsWith b Status.badParam
    else if u8 p 0 = 1 then okWith b (tablePage b (u16 p 4))
    else if rollCalling b then endsWith b Status.busy
    else rollCallSend x p b
  readOnly := fun p => u8 p 0 != 0

/-- The set of devices as a bit map of 512 bytes. -/
def heardMap (ds : List Nat) : List Byte :=
  (List.range 512).map (fun k => BitVec.ofNat 8 ((List.range 8).map (fun i => if ds.contains (8 * k + i) then 2 ^ i else 0)).sum)

/-- HIER_STATUS. -/
def hierStatusCmd : Cmd :=
  showCmd 0x0B03 [] (fun _ b =>
    toLE 2 (b.firm.table.filter (fun e => e.2.isSome)).length ++ toLE 2 b.firm.heard.length ++ toLE 4 0 ++ heardMap b.firm.heard)

end Sys2Proof.Machine
end

