-- ==== Sys2Proof/Machine/Firmware.lean ====
section
/-!
DEFINITION. What firmware does beside taking commands: replies that come later (R311, R316, R317), handover and revert as they go on
(R391, R397), Bind-off (R379), reaching configured (R371, R387), and the poll that each fabric clock makes of it.
-/
namespace Sys2Proof.Machine

/-- The block with cells of memory written so far. -/
abbrev Work := Blk × List Host.Cell

/-! ### Waits -/

/-- A command no longer waits. -/
def waitOver (w : Asker × Await) (b : Blk) : Blk := b.setFirm { b.firm with waits := b.firm.waits.erase w }

/-- A command that waits gets its reply. -/
def waitReply (w : Asker × Await) (status : Nat) (payload : List Byte) (r : Work) : Work := reply w.1 status payload (waitOver w r.1, r.2)

/-- A command goes on to wait for something else. -/
def waitNext (w : Asker × Await) (a : Await) (b : Blk) : Blk :=
  b.setFirm { b.firm with waits := b.firm.waits.map (fun v => if v == w then (w.1, a) else v) }

/-- The last entry of the reply ring has been taken. -/
def ringEmpty (b : Blk) : Bool := b.fld Reg.STR_REPLY_TAIL 11 0 = b.fld Reg.STR_REPLY_HEAD 11 0

/-- Nothing that could answer a request at port `n` is under way (log entry 58). -/
def portQuiet (b : Blk) (n : Nat) : Bool :=
  ringEmpty b && !b.flag (Reg.STR_n_STATUS n) 8 && !b.flag (Reg.STR_n_STATUS n) 9 && (b.alt n).rdm.isNone && (b.alt n).dali.isNone

/-- The reply of a wait that is over (R137, R177, R190; Tables 12-10 and 12-11). -/
def waitEnd (b : Blk) (a : Await) : Option (Nat × List Byte) :=
  match a with
  | .query n => if portQuiet b n then some (Status.timeout, []) else none
  | .ring n _ => if portQuiet b n then some (Status.timeout, []) else none
  | .survey n =>
    if b.flag (Reg.STR_n_STATUS n) 7 then none
    else
      let v := b.rdN (Reg.STR_n_NODES n)
      some (Status.ok, toLE 2 v ++ toLE 1 (b2n (bit v 16) + 2 * b2n (b.flag (Reg.STR_n_INT_STATUS n) 1)) ++ toLE 1 (b.str n).epoch)
  | .sent n => if b.flag (Reg.STR_n_STATUS n) 8 then none else some (Status.ok, [])
  | .load =>
    if b.flag Reg.STC_PROG_STATUS 2 then none
    else
      let e := b.fld Reg.STC_PROG_STATUS 15 8
      some (if e = 0 then Status.ok else Status.verifyFail, toLE 1 e ++ toLE 1 (b.fld Reg.STC_PROG_STATUS 23 16) ++ toLE 2 0)
  | _ => none

/-- The Row that the primary Meridian is in, plus 1; 0 while it does not run. -/
def rowKey (b : Blk) : Nat :=
  let m := stcMer b
  if merOn b m && merState b m != 0 then 1 + 64 * (merPos b m).1 + merRow b m else 0

/-- The handover goes on (Table 15-8). -/
def handoverStep (w : Asker × Await) (step row : Nat) (m : Mem) (r : Work) : Work :=
  let b := r.1
  let go (_ : Unit) : Work :=
    let x := switchOver (m.write r.2) (waitNext w (.handover 2 0) b)
    (x.1, r.2 ++ x.2)
  if step = 1 then (if rowKey b = 0 || rowKey b != row then go () else r)
  else match b.fwu.hoStatus with
    | some st => waitReply w st [] r
    | none =>
      if step = 2 || b.flag Reg.FWU_STATUS 1 || !b.flag Reg.FWU_STATUS 2 then r
      else if rowKey b = 0 then go ()
      else (waitNext w (.handover 1 (rowKey b)) b, r.2)

/-- The revert goes on (R397). -/
def revertStep (w : Asker × Await) (step row : Nat) (m : Mem) (r : Work) : Work :=
  let b := r.1
  let go (_ : Unit) : Work :=
    if onProbation b then
      let x := revertNow (m.write r.2) b
      waitReply w Status.ok [] (x.1, r.2 ++ x.2)
    else waitReply w Status.badState [] r
  if step = 1 then (if rowKey b = 0 || rowKey b != row then go () else r)
  else match b.fwu.hoStatus with
    | some st => waitReply w st [] r
    | none =>
      if b.flag Reg.FWU_STATUS 1 || !b.flag Reg.FWU_STATUS 2 then r
      else if rowKey b = 0 then go ()
      else (waitNext w (.revert 1 (rowKey b)) b, r.2)

/-- The token check for a life-cycle change is over (R403, R404). -/
def tokenStep (w : Asker × Await) (t : Nat) (_ : Mem) (r : Work) : Work :=
  let b := r.1
  if b.flag Reg.FWU_TOKEN_STATUS 0 then r
  else if b.flag Reg.FWU_TOKEN_STATUS 1 && b.fld Reg.FWU_TOKEN_STATUS 9 2 = 0x10 + t then lcAdvance w.1 t (waitOver w b, r.2)
  else waitReply w Status.authFail [] r

/-- A command that waits goes on where it can. -/
def waitStep (m : Mem) (r : Work) (w : Asker × Await) : Work :=
  if !r.1.firm.waits.contains w then r
  else match w.2 with
  | .token t => tokenStep w t m r
  | .handover step row => handoverStep w step row m r
  | .revert step row => revertStep w step row m r
  | a => match waitEnd r.1 a with
    | some e => waitReply w e.1 e.2 r
    | none => r

/-! ### Replies from elsewhere (R311, R316, R317) -/

/-- A reply answers the request that `w` waits for, while it waits (R311). -/
def replyFor (b : Blk) (p : List Byte) (w : Asker × Await) : Bool :=
  let dev := pktTarget p
  match w.2 with
  | .relayed d t => b.now < t && pktOpcode p == w.1.opcode && pktSeq p == w.1.seq && dev == d
  | .relay o q t ds => b.now < t && pktOpcode p == o && pktSeq p == q && ds.any (fun d => d.1 == dev && d.2.isNone)
  | .standby t _ none => b.now < t && pktOpcode p == w.1.opcode && pktSeq p == w.1.seq && dev == b.fld Reg.PAIR_PARTNER 11 0
  | .rollCall q _ t => b.now < t && pktOpcode p == 0x0B02 && pktSeq p == q && !b.firm.heard.contains dev
  | _ => false

/-- A RELAY's devices after a reply of `dev`. -/
def relayMark (ds : List (Nat × Option Nat)) (dev status : Nat) : List (Nat × Option Nat) :=
  ds.map (fun d => if d.1 = dev && d.2.isNone then (dev, some status) else d)

/-- An accepted reply does its work. -/
def replyTake (p : List Byte) (w : Asker × Await) (b : Blk) : Work :=
  let dev := pktTarget p
  match w.2 with
  | .relayed _ _ => replyRaw w.1 p (waitOver w b, [])
  | .relay o q t ds =>
    let ds := relayMark ds dev (pktStatus p)
    if ds.all (fun d => d.2.isSome) then waitReply w Status.ok (relayReply ds) (b, []) else (waitNext w (.relay o q t ds) b, [])
  | .standby _ (some own) _ => (standbyCheck own (pktStatus p) (waitOver w b), [])
  | .standby t none _ => (waitNext w (.standby t none (some (pktStatus p))) b, [])
  | .rollCall _ _ _ =>
    let e := pktPayload p
    let x : Worker := { role := u8 e 6, state := u8 e 7, ip := u32 e 8 }
    (b.setFirm { b.firm with table := Tab.upd none b.firm.table dev (some x), heard := b.firm.heard ++ [dev] }, [])
  | _ => (b, [])

/-- A packet that is a reply arrives (R311): accepted for a request that waits, with a good tag; else discarded and counted. -/
def replyArrive (p : List Byte) (b : Blk) : Work :=
  if !(pktForm 8192 p && pktReply p && pktAuth p && pktTagOk b p && pktSource p == pktTarget p) then (cmdError b, [])
  else match b.firm.waits.find? (replyFor b p) with
    | some w => replyTake p w b
    | none => (cmdError b, [])

/-- A reply comes in at firmware's place in its receive ring (R311, R315). -/
def commandReplyRx (m : Mem) (b : Blk) : Work :=
  match (ringNext m b).bind ringUdp with
  | none => (b, [])
  | some (_, _, _, p) =>
    if !pktReply p then (b, [])
    else
      let g := ringGive m b
      let r := replyArrive p g.1
      (r.1, g.2 ++ r.2)

/-- 100 ms are over for a relayed request (R317): TIMEOUT for each worker that has not replied; the standby's reply is no longer
accepted. -/
def relayTimeout (opcode seq : Nat) (_ : Mem) (b : Blk) : Work :=
  match b.firm.waits.find? (fun w => match w.2 with
      | .relayed _ t => t ≤ b.now && w.1.opcode == opcode && w.1.seq == seq
      | .relay o q t _ => t ≤ b.now && o == opcode && q == seq
      | .standby t _ none => t ≤ b.now && w.1.opcode == opcode && w.1.seq == seq
      | _ => false) with
  | none => (b, [])
  | some w =>
    match w.2 with
    | .relay _ _ _ ds => waitReply w Status.ok (relayReply ds) (b, [])
    | .relayed _ _ => waitReply w Status.timeout [] (b, [])
    | _ => (waitOver w b, [])

/-- WINDOW_MS are over: the manager replies with the kept table (R311, Table 12-17). -/
def rollCallOver (_ : Mem) (b : Blk) : Work :=
  match b.firm.waits.find? (fun w => match w.2 with | .rollCall _ _ t => t ≤ b.now | _ => false) with
  | some w =>
    (match w.2 with
     | .rollCall _ first _ => waitReply w Status.ok (tablePage b first) (b, [])
     | _ => (b, []))
  | none => (b, [])

/-- The replay table is saved (R311). -/
def replaySave (b : Blk) : Blk := b.setFirm { b.firm with replaySaved := b.firm.replay, replayAt := b.now }

/-- Every 10 minutes the replay table is saved (R311). -/
def replaySaveDue (b : Blk) : Blk := if b.firm.replayAt + 600 * 1000 * msClocks ≤ b.now then replaySave b else b

/-! ### What is due -/

/-- Every reply of firmware's has left: no notice waits for its mailbox, and no frame for the transmit ring or in it. -/
def repliesGone (b : Blk) : Bool :=
  b.firm.notices.isEmpty && b.firm.txOut.isEmpty && b.fld (Reg.TRK_TXt_HEAD fwTx) 11 0 == b.fld (Reg.TRK_TXt_TAIL fwTx) 11 0

/-- Something that is due is done; a COMMAND reset is left to its own command. -/
def laterDo (m : Mem) (r : Work) (x : Nat × Later) : Work :=
  if r.1.now < x.1 || !r.1.firm.later.contains x then r
  else
    let b := r.1.setFirm { r.1.firm with later := r.1.firm.later.erase x }
    match x.2 with
    | .write a v => fwWrite m (b, r.2) a v
    | .field a hi lo v => fwField m (b, r.2) a hi lo v
    | .parting a hi lo v => if repliesGone r.1 then fwField m (b, r.2) a hi lo v else r
    | .reply who st p => reply who st p (b, r.2)
    | .reset => r

/-- The first notice whose mailbox is free is posted. -/
def noticeDue (b : Blk) : Blk :=
  match b.firm.notices.find? (fun n => !b.flag (Reg.MBX_m_STATUS n.1) 0) with
  | some n => noticePost n.1 n.2.1 n.2.2 (b.setFirm { b.firm with notices := b.firm.notices.erase n })
  | none => b

/-! ### Bind-off (R379) -/

/-- The addresses of the enabled E1.31 transmit entries. -/
def e131Enabled (m : Mem) (b : Blk) : List Nat :=
  let tab := b.rdN Reg.E131_TX_TABLE / 16 * 16
  ((List.range (limit 0 2048 (b.fld Reg.E131_TX_COUNT 11 0))).map (fun i => tab + 16 * i)).filter (fun a => bit (m.le (a + 6) 1) 0)

/-- E1.31 transmit has send opportunities. -/
def e131Sends (b : Blk) : Bool := b.flag Reg.E131_CTRL 1 && pairSends b && rowKey b != 0

/-- Each of the registers `as` has field [k:k] set to `v`. -/
def fwFlags (m : Mem) (r : Work) (as : List Nat) (k v : Nat) : Work := as.foldl (fun r a => fwField m r a k k v) r

/-- Level 0 is written to the drive channels `cs`. -/
def bindDark (m : Mem) (b : Blk) (cs : List Nat) : Work :=
  fwWrites m (fwFlags m (b, []) (cs.map Reg.DRV_c_CTRL) 2 1) (cs.map (fun c => (Reg.DRV_c_SET c, 0)))

/-- Channel `c` still waits for its group's latch. -/
def bindLatch (b : Blk) (c : Nat) : Bool :=
  let g := drvGroup b c
  (b.stagedAt (Reg.DRV_c_SET c)).isSome && drvState b c == 1 && b.flag (Reg.DRV_GRPg_CTRL g) 0 && merOn b (grpMer b g)

/-- EN is cleared on the channels `cs`, on the DRIVE hold, and on DMX512-A and DALI-2 ports. -/
def bindEnOff (m : Mem) (b : Blk) (cs : List Nat) : Work :=
  let alts := (List.range 32).filter (fun n => strFunc b n != 0)
  fwFlags m (b, []) (cs.map Reg.DRV_c_CTRL ++ [Reg.DRV_HOLD_CTRL] ++ alts.map Reg.STR_n_CTRL) 0 0

/-- Settings in force differ from those saved: role, device ID or group, or others of firmware's own. Without a readable area nothing is
saved before the first SETTINGS_SAVE (R390). -/
def settingsUnsaved (m : Mem) (b : Blk) : Bool :=
  match areaNow m b with
  | some i =>
    Tab.at {} b.firm.saved i != { role := b.firm.role, id := b.deviceId, group := b.firm.group } || Config.settingsDiffer b.freeCount
  | none => false

/-- Step 5 of R379, and BOUND; then Dormant where it is asked for. -/
def bindEnd (m : Mem) (dormant : Bool) (b : Blk) : Work :=
  let r := logFlush b
  let b := replaySave { r.1 with noncesSaved := r.1.nonces }
  let x := if settingsUnsaved m b then settingsSave m b.drawn else (b.drawn, [])
  let b := (x.1.setFirm { x.1.firm with bind := none }).setFlag Reg.PWR_CTRL 1 true
  (if dormant then laterOn 0 (.parting Reg.PWR_CTRL 0 0 1) b else b, r.2 ++ x.2)

/-- Bind-off goes on by a step where it can (R379): 0 and 1 the pair, 2 and 3 E1.31, 4 and 5 PARK, 6 and 7 drive, 8 the saves. -/
def bindStep (m : Mem) (b : Blk) : Work :=
  match b.firm.bind with
  | none => (b, [])
  | some (k, l, d) =>
    let go (k : Nat) (l : List Nat) (r : Work) : Work := (r.1.setFirm { r.1.firm with bind := some (k, l, d) }, r.2)
    match k with
    | 0 =>
      if b.flag Reg.PAIR_CTRL 0 && pairState b == 2 && b.flag Reg.PAIR_PEER 18 then go 1 [] (fwField m (b, []) Reg.PAIR_FORCE_CTRL 1 0 1)
      else go 2 [] (b, [])
    | 1 => if pairState b ≤ 1 then go 2 [] (b, []) else (b, [])
    | 2 => go 3 [] (b, (e131Enabled m b).flatMap (fun a => cellsAt (a + 6) (toLE 1 (m.le (a + 6) 1 ||| 4))))
    | 3 => if e131Sends b && !(e131Enabled m b).isEmpty then (b, []) else go 4 [] (b, [])
    | 4 =>
      let ns := (List.range 32).filter (fun n => strFunc b n == 0 && strRuns b n && !strClaimOnly b n)
      go 5 ns (fwFlags m (b, []) (ns.map Reg.STR_n_CTRL) 11 1)
    | 5 => if l.any (fun n => strRuns b n && !strClaimOnly b n) then (b, []) else go 6 [] (b, [])
    | 6 =>
      let cs := (List.range 16).filter (fun c => drvState b c == 1)
      go 7 cs (bindDark m b cs)
    | 7 => if l.any (bindLatch b) then (b, []) else go 8 [] (bindEnOff m b l)
    | _ => bindEnd m d b

/-- Bind-off starts (R379). -/
def bindOff (b : Blk) : Blk := if b.firm.bind.isSome then b else b.setFirm { b.firm with bind := some (0, [], false) }

/-! ### Configured (R309, R311, R371, R387, R390) -/

/-- Firmware restores the reset frame's counter, then the settings of the current area, if one is readable, with the writes `ws`; it clears
BOOT_FAILS, adds to the Lifelog, and is configured. -/
def configured (ws : List (Nat × Nat)) (m : Mem) (b : Blk) : Work :=
  if b.pwr.stage != .s6 then (b, [])
  else
    let r := match areaNow m b with
      | some i => fwWrites m (identityTake i (rframeBack b), []) ws
      | none => (rframeBack b, [])
    let x := logFlush (bootTotals r.1)
    (x.1.setPwr { x.1.pwr with stage := .configured }, r.2 ++ leCells (bkp 15) 4 0 ++ x.2)

/-! ### Firmware's rings (R315, R316; log entry 58) -/

/-- Firmware sets its rings up while TRUNK is on: 16 receive descriptors with their buffers, of which it gives 15; the rule that steers UDP
port 47740 to the ring; and its transmit ring. -/
def netSetup (m : Mem) (r : Work) : Work :=
  if r.1.firm.netUp || !domOn r.1 3 then r
  else
    let head := r.1.fld (Reg.TRK_RXr_HEAD fwRx) 11 0
    let r := (List.range 16).foldl (fun r i => busWrite r (fwRxBase + 32 * i) (toLE 8 (fwRxBuf i) ++ List.replicate 24 0#8)) r
    let r := fwWrites m r
      [(Reg.TRK_RXr_BASE_LO fwRx, fwRxBase), (Reg.TRK_RXr_BASE_HI fwRx, 0), (Reg.TRK_RXr_TAIL fwRx, (head + 15) % 16),
        (Reg.TRK_RXr_CTRL fwRx, 0x8010 + 144 * 2 ^ 16), (Reg.TRK_TXt_BASE_LO fwTx, fwTxBase), (Reg.TRK_TXt_BASE_HI fwTx, 0),
        (Reg.TRK_TXt_CTRL fwTx, 0x8010), (Reg.TRK_STEERk_RING fwRx, fwRx), (Reg.TRK_STEERk_MATCH fwRx, 47740 + 2 * 2 ^ 16)]
    (r.1.setFirm { r.1.firm with netUp := true, rxAt := head % 16 }, r.2)

/-- The first frame that waits goes into firmware's transmit ring where a descriptor is free; while TRUNK is off nothing is sent. -/
def netSend (m : Mem) (r : Work) : Work :=
  match r.1.firm.txOut with
  | [] => r
  | f :: fs =>
    let i := r.1.fld (Reg.TRK_TXt_TAIL fwTx) 11 0 % 16
    if !domOn r.1 3 then (r.1.setFirm { r.1.firm with txOut := [] }, r.2)
    else if (i + 1) % 16 = r.1.fld (Reg.TRK_TXt_HEAD fwTx) 11 0 then r
    else
      let r := busWrite r (fwTxBuf i) f
      let r := busWrite r (fwTxBase + 32 * i) (toLE 8 (fwTxBuf i) ++ toLE 2 f.length ++ toLE 2 6 ++ List.replicate 20 0#8)
      let r := fwWrite m r (Reg.TRK_TXt_TAIL fwTx) ((i + 1) % 16)
      (r.1.setFirm { r.1.firm with txOut := fs }, r.2)

/-- The first frame for the partner goes out as a notice in mailbox 14, where that is free (R316, R322). -/
def linkPost (m : Mem) (r : Work) : Work :=
  match r.1.firm.linkOut with
  | [] => r
  | f :: fs =>
    if r.1.flag (Reg.MBX_m_STATUS 14) 0 then r
    else
      let r := busWrite (r.1.setFirm { r.1.firm with linkOut := fs }, r.2) fwLinkBuf f
      ((mbxPost 14 .cc0 f.length [] (m.write r.2) (r.1.wr64 (Reg.MBX_m_PTR_LO 14) (Reg.MBX_m_PTR_HI 14) fwLinkBuf)).1, r.2)

/-! ### The poll -/

/-- What firmware finds to do in a fabric clock: its rings, notices, the reply ring, what is due, waits, Bind-off. -/
def fwPoll (m : Mem) (b : Blk) : Work :=
  if !fwTasks b then (b, [])
  else
    let r := linkPost m (netSend m (netSetup m (noticeDue b, [])))
    let x := ringPoll (m.write r.2) r.1
    let r := (x.1, r.2 ++ x.2)
    let r := r.1.firm.later.foldl (laterDo m) r
    let r := r.1.firm.waits.foldl (waitStep m) r
    let x := bindStep (m.write r.2) r.1
    (x.1, r.2 ++ x.2)

end Sys2Proof.Machine
end

