-- ==== Sys2Proof/Machine/Commands.lean ====
section
/-!
DEFINITION. The command packets as rows: every opcode of Tables 12-6 to 12-17 with its number, and what firmware does by itself.
A row of an opcode is a packet with that opcode that arrives; it is checked as any packet is (R307).
-/
namespace Sys2Proof.Machine

/-- Every opcode. -/
def allCmds : List Cmd :=
  [identifyCmd, getStatusCmd, getCapsCmd, setRoleCmd, resetCmd, domainPowerCmd]
    ++ [enterDormantCmd, lifecycleAdvanceCmd, readRegCmd, writeRegCmd, tbConfigCmd, tbServoSetCmd]
    ++ [tbOffsetFeedCmd, tbAcceptJumpCmd, tbDomainSwitchCmd, meridianSetModeCmd, meridianStatusCmd, waypointProgramCmd]
    ++ [waypointCancelCmd, canvasConfigCmd, canvasSubscribeCmd, canvasFlipPolicyCmd, canvasBackgroundCmd, regionEmitCmd]
    ++ [stitchLoadProgramCmd, stitchStartCmd, stitchStopCmd, stitchSetParamCmd, stitchCueCmd, stitchTraceCmd]
    ++ [atlasWriteCmd, atlasCommitCmd, calWriteCmd, contourWriteCmd, motifSetCmd, motifStartCmd]
    ++ [strandConfigCmd, strandSurveyCmd, strandAssignCmd, strandRateCmd, strandQueryCmd, strandParkCmd]
    ++ [dmxConfigCmd, rdmTransactCmd, daliConfigCmd, daliTransactCmd, driveConfigCmd, driveSetCmd]
    ++ [driveDiagCmd, driveThermalTableCmd, trunkPortConfigCmd, switchTableWriteCmd, e131ConfigCmd, wakePatternSetCmd]
    ++ [pairConfigCmd, pairStatusCmd, pairForceCmd, fwBeginCmd, fwChunkCmd, fwVerifyCmd]
    ++ [fwHandoverCmd, fwCommitCmd, fwRevertCmd, settingsSaveCmd, lifelogReadCmd, countersReadCmd]
    ++ [swatchRunCmd, gaugeReadCmd, readbackStatusCmd, relayCmd, rollCallCmd, hierStatusCmd]

/-- The meaning of an opcode. -/
def findCmd (n : Nat) : Option Cmd := allCmds.find? (fun c => c.opcode == n)

/-- A packet arrives, with the interrupts that follow it (R307, R327). -/
def packetIn (find : Nat → Option Cmd) (via : Via) (m : Mem) (b : Blk) : Work :=
  let r := pktArrive find via m b
  (intSettle r.1, r.2)

/-- A packet that carries the command `c` arrives. -/
def packetOf (c : Cmd) (via : Via) (s : State) : Result :=
  inFw (onMem (packetIn (fun n => if n = c.opcode then some c else findCmd n) via)) s

/-- COMMAND_PACKET (R307). -/
def execCommandPacket (via : Via) (s : State) : Result := inFw (onMem (packetIn findCmd via)) s
/-- COMMAND_REPLY_RX (R311). -/
def execCommandReplyRx (s : State) : Result := inFw (onMem commandReplyRx) s
/-- RELAY_TIMEOUT (R317). -/
def execRelayTimeout (opcode seq : BitVec 16) (s : State) : Result := inFw (onMem (relayTimeout opcode.toNat seq.toNat)) s
/-- ROLL_CALL_WINDOW_EXPIRY (R311). -/
def execRollCallWindowExpiry (s : State) : Result := inFw (onMem rollCallOver) s
/-- REPLAY_TABLE_SAVE (R311). -/
def execReplayTableSave (s : State) : Result := inFw (onBlk replaySaveDue) s
/-- FW_TRANSFER_TIMEOUT (R388). -/
def execFwTransferTimeout (s : State) : Result := inFw (onBlk transferTimeout) s
/-- BIND_OFF (R379). -/
def execBindOff (s : State) : Result := inFw (onBlk bindOff) s
/-- CONFIGURED (R371). -/
def execConfigured (writes : List (BitVec 32 × Word)) (s : State) : Result :=
  inFw (onMem (configured (writes.map (fun x => (x.1.toNat, x.2.toNat))))) s

/-- IDENTIFY (R2). -/
def execIdentify (via : Via) (s : State) : Result := packetOf identifyCmd via s
/-- GET_STATUS (R363). -/
def execGetStatus (via : Via) (s : State) : Result := packetOf getStatusCmd via s
/-- GET_CAPS (R307). -/
def execGetCaps (via : Via) (s : State) : Result := packetOf getCapsCmd via s
/-- SET_ROLE (R306). -/
def execSetRole (via : Via) (s : State) : Result := packetOf setRoleCmd via s
/-- RESET (R362). -/
def execReset (via : Via) (s : State) : Result := packetOf resetCmd via s
/-- DOMAIN_POWER (R29). -/
def execDomainPower (via : Via) (s : State) : Result := packetOf domainPowerCmd via s
/-- ENTER_DORMANT (R377). -/
def execEnterDormant (via : Via) (s : State) : Result := packetOf enterDormantCmd via s
/-- LIFECYCLE_ADVANCE (R403). -/
def execLifecycleAdvance (via : Via) (s : State) : Result := packetOf lifecycleAdvanceCmd via s
/-- READ_REG (R307). -/
def execReadReg (via : Via) (s : State) : Result := packetOf readRegCmd via s
/-- WRITE_REG (R310). -/
def execWriteReg (via : Via) (s : State) : Result := packetOf writeRegCmd via s
/-- TB_CONFIG (R37). -/
def execTbConfig (via : Via) (s : State) : Result := packetOf tbConfigCmd via s
/-- TB_SERVO_SET (R40). -/
def execTbServoSet (via : Via) (s : State) : Result := packetOf tbServoSetCmd via s
/-- TB_OFFSET_FEED (R39). -/
def execTbOffsetFeed (via : Via) (s : State) : Result := packetOf tbOffsetFeedCmd via s
/-- TB_ACCEPT_JUMP (R43). -/
def execTbAcceptJump (via : Via) (s : State) : Result := packetOf tbAcceptJumpCmd via s
/-- TB_DOMAIN_SWITCH (R47). -/
def execTbDomainSwitch (via : Via) (s : State) : Result := packetOf tbDomainSwitchCmd via s
/-- MERIDIAN_SET_MODE (R78). -/
def execMeridianSetMode (via : Via) (s : State) : Result := packetOf meridianSetModeCmd via s
/-- MERIDIAN_STATUS (R89). -/
def execMeridianStatus (via : Via) (s : State) : Result := packetOf meridianStatusCmd via s
/-- WAYPOINT_PROGRAM (R80). -/
def execWaypointProgram (via : Via) (s : State) : Result := packetOf waypointProgramCmd via s
/-- WAYPOINT_CANCEL (R84). -/
def execWaypointCancel (via : Via) (s : State) : Result := packetOf waypointCancelCmd via s
/-- CANVAS_CONFIG (R93). -/
def execCanvasConfig (via : Via) (s : State) : Result := packetOf canvasConfigCmd via s
/-- CANVAS_SUBSCRIBE (R100). -/
def execCanvasSubscribe (via : Via) (s : State) : Result := packetOf canvasSubscribeCmd via s
/-- CANVAS_FLIP_POLICY (R108). -/
def execCanvasFlipPolicy (via : Via) (s : State) : Result := packetOf canvasFlipPolicyCmd via s
/-- CANVAS_BACKGROUND (R111). -/
def execCanvasBackground (via : Via) (s : State) : Result := packetOf canvasBackgroundCmd via s
/-- REGION_EMIT (R114). -/
def execRegionEmit (via : Via) (s : State) : Result := packetOf regionEmitCmd via s
/-- STITCH_LOAD_PROGRAM (R137). -/
def execStitchLoadProgram (via : Via) (s : State) : Result := packetOf stitchLoadProgramCmd via s
/-- STITCH_START (R138). -/
def execStitchStart (via : Via) (s : State) : Result := packetOf stitchStartCmd via s
/-- STITCH_STOP (R138). -/
def execStitchStop (via : Via) (s : State) : Result := packetOf stitchStopCmd via s
/-- STITCH_SET_PARAM (R133). -/
def execStitchSetParam (via : Via) (s : State) : Result := packetOf stitchSetParamCmd via s
/-- STITCH_CUE (R135). -/
def execStitchCue (via : Via) (s : State) : Result := packetOf stitchCueCmd via s
/-- STITCH_TRACE (R140). -/
def execStitchTrace (via : Via) (s : State) : Result := packetOf stitchTraceCmd via s
/-- ATLAS_WRITE (R19). -/
def execAtlasWrite (via : Via) (s : State) : Result := packetOf atlasWriteCmd via s
/-- ATLAS_COMMIT (R148). -/
def execAtlasCommit (via : Via) (s : State) : Result := packetOf atlasCommitCmd via s
/-- CAL_WRITE (R153). -/
def execCalWrite (via : Via) (s : State) : Result := packetOf calWriteCmd via s
/-- CONTOUR_WRITE (R150). -/
def execContourWrite (via : Via) (s : State) : Result := packetOf contourWriteCmd via s
/-- MOTIF_SET (R166). -/
def execMotifSet (via : Via) (s : State) : Result := packetOf motifSetCmd via s
/-- MOTIF_START (R167). -/
def execMotifStart (via : Via) (s : State) : Result := packetOf motifStartCmd via s
/-- STRAND_CONFIG (R62). -/
def execStrandConfig (via : Via) (s : State) : Result := packetOf strandConfigCmd via s
/-- STRAND_SURVEY (R190). -/
def execStrandSurvey (via : Via) (s : State) : Result := packetOf strandSurveyCmd via s
/-- STRAND_ASSIGN (R177). -/
def execStrandAssign (via : Via) (s : State) : Result := packetOf strandAssignCmd via s
/-- STRAND_RATE (R196). -/
def execStrandRate (via : Via) (s : State) : Result := packetOf strandRateCmd via s
/-- STRAND_QUERY (R178). -/
def execStrandQuery (via : Via) (s : State) : Result := packetOf strandQueryCmd via s
/-- STRAND_PARK (R204). -/
def execStrandPark (via : Via) (s : State) : Result := packetOf strandParkCmd via s
/-- DMX_CONFIG (R210). -/
def execDmxConfig (via : Via) (s : State) : Result := packetOf dmxConfigCmd via s
/-- RDM_TRANSACT (R214). -/
def execRdmTransact (via : Via) (s : State) : Result := packetOf rdmTransactCmd via s
/-- DALI_CONFIG (R210). -/
def execDaliConfig (via : Via) (s : State) : Result := packetOf daliConfigCmd via s
/-- DALI_TRANSACT (R217). -/
def execDaliTransact (via : Via) (s : State) : Result := packetOf daliTransactCmd via s
/-- DRIVE_CONFIG (R240). -/
def execDriveConfig (via : Via) (s : State) : Result := packetOf driveConfigCmd via s
/-- DRIVE_SET (R235). -/
def execDriveSet (via : Via) (s : State) : Result := packetOf driveSetCmd via s
/-- DRIVE_DIAG (R249). -/
def execDriveDiag (via : Via) (s : State) : Result := packetOf driveDiagCmd via s
/-- DRIVE_THERMAL_TABLE (R244). -/
def execDriveThermalTable (via : Via) (s : State) : Result := packetOf driveThermalTableCmd via s
/-- TRUNK_PORT_CONFIG (R255). -/
def execTrunkPortConfig (via : Via) (s : State) : Result := packetOf trunkPortConfigCmd via s
/-- SWITCH_TABLE_WRITE (R265). -/
def execSwitchTableWrite (via : Via) (s : State) : Result := packetOf switchTableWriteCmd via s
/-- E131_CONFIG (R227). -/
def execE131Config (via : Via) (s : State) : Result := packetOf e131ConfigCmd via s
/-- WAKE_PATTERN_SET (R282). -/
def execWakePatternSet (via : Via) (s : State) : Result := packetOf wakePatternSetCmd via s
/-- PAIR_CONFIG (R303). -/
def execPairConfig (via : Via) (s : State) : Result := packetOf pairConfigCmd via s
/-- PAIR_STATUS (R303). -/
def execPairStatus (via : Via) (s : State) : Result := packetOf pairStatusCmd via s
/-- PAIR_FORCE (R289). -/
def execPairForce (via : Via) (s : State) : Result := packetOf pairForceCmd via s
/-- FW_BEGIN (R388). -/
def execFwBegin (via : Via) (s : State) : Result := packetOf fwBeginCmd via s
/-- FW_CHUNK (R389). -/
def execFwChunk (via : Via) (s : State) : Result := packetOf fwChunkCmd via s
/-- FW_VERIFY (R384). -/
def execFwVerify (via : Via) (err : Bool) (s : State) : Result := packetOf (fwVerifyWith err) via s
/-- FW_HANDOVER (R391). -/
def execFwHandover (via : Via) (s : State) : Result := packetOf fwHandoverCmd via s
/-- FW_COMMIT (R396). -/
def execFwCommit (via : Via) (s : State) : Result := packetOf fwCommitCmd via s
/-- FW_REVERT (R397). -/
def execFwRevert (via : Via) (s : State) : Result := packetOf fwRevertCmd via s
/-- SETTINGS_SAVE (R390). -/
def execSettingsSave (via : Via) (s : State) : Result := packetOf settingsSaveCmd via s
/-- LIFELOG_READ (R410). -/
def execLifelogRead (via : Via) (s : State) : Result := packetOf lifelogReadCmd via s
/-- COUNTERS_READ (R307). -/
def execCountersRead (via : Via) (s : State) : Result := packetOf countersReadCmd via s
/-- SWATCH_RUN (R413). -/
def execSwatchRun (via : Via) (s : State) : Result := packetOf swatchRunCmd via s
/-- GAUGE_READ (R426). -/
def execGaugeRead (via : Via) (s : State) : Result := packetOf gaugeReadCmd via s
/-- READBACK_STATUS (R201). -/
def execReadbackStatus (via : Via) (s : State) : Result := packetOf readbackStatusCmd via s
/-- RELAY (R317). -/
def execRelay (via : Via) (s : State) : Result := packetOf relayCmd via s
/-- ROLL_CALL (R311). -/
def execRollCall (via : Via) (s : State) : Result := packetOf rollCallCmd via s
/-- HIER_STATUS (R306). -/
def execHierStatus (via : Via) (s : State) : Result := packetOf hierStatusCmd via s

end Sys2Proof.Machine
end

