-- ==== Sys2Proof/Machine/Deliver.lean ====
section
/-!
DEFINITION. The internal port of the switch (R262, R271): the frame at its head goes to the first consumer that takes it. One row of the
table stands for each consumer, and acts where the head frame is its own (log entry 32).
-/
namespace Sys2Proof.Machine

/-- The consumers of a frame at the internal port (R271). -/
inductive Consumer where
  | st2110 | sheet | e131 | e131Sync | ring
  deriving DecidableEq, Repr

/-- A frame as the switch holds it without its FCS. -/
def innerFrame (f : TrkFrame) : List Byte := f.bytes.dropLast.dropLast.dropLast.dropLast

/-- The first consumer that takes a frame: the canvas block while its domain is on, the E1.31 path, else a receive ring; what the E1.31 path
hands on goes to a ring too (R220, R271). -/
def consumerOf (b : Blk) (f : TrkFrame) : Consumer :=
  match udpOf (innerFrame f) with
  | none => .ring
  | some u =>
    if domOn b 4 && (st2110Takes b f.inPort u).isSome then .st2110
    else if domOn b 4 && sheetTakes b u then .sheet
    else match e131Takes b u with
      | some .data => .e131
      | some .bad => .e131
      | some .sync => .e131Sync
      | _ => .ring

/-- The head frame leaves for consumer `c`, whose handler is `act`; a read of the buffer that is uncorrectable drops it (R262), and a
head frame of another consumer stays. -/
def innerTo (c : Consumer) (act : Nat → TrkFrame → Mem → Blk → Blk × List Host.Cell) (found : EccResult) (bank : Nat) (m : Mem)
    (b : Blk) : Blk × List Host.Cell :=
  match trkInner b with
  | none => (b, [])
  | some (q, f) =>
    if consumerOf b f != c then (b, [])
    else
      let b := trkInnerPop b q f found bank
      if found = .uncorrectable then (b, []) else act q f m b

/-- ST2110_PACKET (R100, R271). -/
def execSt2110Packet (found : EccResult) (bank : Fin 16) (s : State) : Result :=
  inDom 3 (onMem (innerTo .st2110 (fun _ f => st2110Packet f.inPort (innerFrame f)) found bank)) s

/-- SHEET_STREAM_PACKET (R104, R271). -/
def execSheetStreamPacket (found : EccResult) (bank : Fin 16) (s : State) : Result :=
  inDom 3 (onMem (innerTo .sheet (fun _ f => sheetStreamPacket (innerFrame f)) found bank)) s

/-- E131_RX_PACKET (R221, R271). -/
def execE131RxPacket (found : EccResult) (bank : Fin 16) (s : State) : Result :=
  inDom 3 (onMem (innerTo .e131 (fun _ f => e131Packet (innerFrame f)) found bank)) s

/-- E131_SYNC_RX (R223, R271). -/
def execE131SyncRx (found : EccResult) (bank : Fin 16) (s : State) : Result :=
  inDom 3 (onMem (innerTo .e131Sync (fun _ f => e131Packet (innerFrame f)) found bank)) s

/-- RX_RING_DELIVERY (R271 to R273). -/
def execRxRingDelivery (host : List Byte) (found : EccResult) (bank : Fin 16) (words : List (BitVec 32 × EccResult)) (s : State) : Result :=
  inDom 3 (onMem (innerTo .ring (fun q f m b => rxDeliver m b q f host words) found bank)) s

end Sys2Proof.Machine
end

