-- ==== Sys2Proof/Machine/HostAccess.lean ====
section
/-!
DEFINITION. The host's accesses through the QSPI target's buffers and through the PCIe BARs (R318, R319, R325).
-/
namespace Sys2Proof.Machine

/-! ### QSPI (R319) -/

/-- The words of a QSPI write go to the fabric one after another; the Bool says that all succeeded. -/
def qspiWords (mem : Mem) (r : WriteRes) : List (Nat × Word) → WriteRes
  | [] => r
  | (a, v) :: ws =>
    let x := fabWrite .qspi a v [] (Mem.write mem r.2.1) r.1
    qspiWords mem (x.1, r.2.1 ++ x.2.1, r.2.2 && x.2.2) ws

/-- The write buffer drains: WR_BUSY clears, and an error response sets WR_ERR. -/
def qspiDrain (mem : Mem) (b : Blk) : Blk × List Host.Cell :=
  match b.host.wbuf with
  | none => (b, [])
  | some (a, bs) =>
    if !qspiOn b then (b, [])
    else
      let ws := (List.range (bs.length / 4)).map (fun i => (a + 4 * i, BitVec.ofNat 32 (leAt bs (4 * i) 4)))
      let b := { b with host := { b.host with wbuf := none } }.setFlag Reg.HST_QSPI_STATUS 0 false
      let r := qspiWords mem (wOk b) ws
      (intSettle (onSet (!r.2.2) (fun b => b.irq Reg.HST_QSPI_STATUS 5) r.1), r.2.1)

/-- QSPI_WRITE_DRAIN (R319). -/
def execQspiWriteDrain (s : State) : Result := onMem qspiDrain s

/-- Words are read one after another; a failed one reads 0. -/
def qspiFetch (mem : Mem) (found : List (BitVec 32 × EccResult)) (a : Nat) : Nat → Blk → List Byte × Bool × Blk
  | 0, b => ([], true, b)
  | k + 1, b =>
    let x := if eccHit b found a 4 then (0, false, b) else fabRead .qspi a [] mem b
    let r := qspiFetch mem found (a + 4) k x.2.2
    (toLE 4 x.1 ++ r.1, x.2.1 && r.2.1, r.2.2)

/-- The read buffer is filled: RD_BUSY clears, RD_READY sets, and an error response sets RD_ERR. -/
def qspiReadDone (found : List (BitVec 32 × EccResult)) (mem : Mem) (b : Blk) : Blk :=
  match b.host.rreq with
  | none => b
  | some (a, n) =>
    if !qspiOn b then b
    else
      let r := qspiFetch mem found (a / 4 * 4) n (eccAll b found 0x65 4)
      let b := { r.2.2 with host := { r.2.2.host with rreq := none, rbuf := r.1, rbufAt := (a / 4 * 4, b.out.length) } }.setFld Reg.HST_QSPI_STATUS 2 1 2
      intSettle (onSet (!r.2.1) (fun b => b.irq Reg.HST_QSPI_STATUS 6) b)

/-- QSPI_READ_DONE (R319). -/
def execQspiReadDone (found : List (BitVec 32 × EccResult)) (s : State) : Result := onView (qspiReadDone found) s

/-! ### The BARs (R325) -/

/-- Where an access through a BAR leads. -/
inductive BarTarget where
  /-- A bus address of the internal map. -/
  | bus (a : Nat)
  /-- A word of the MSI-X table, and of its pending bits. -/
  | msix (k : Nat)
  | pba (k : Nat)
  | unmapped
  deriving DecidableEq, Repr

/-- Table 12-19; an address that no block occupies is unmapped (R14). -/
def barTarget (bar2 : Bool) (o : Nat) : BarTarget :=
  if bar2 then
    (if o < 0x1000000 then .bus (0x10000000 + o) else if o < 0x4000000 then .bus (0x1F000000 + o) else .unmapped)
  else if o < 0x1400000 then (if (regDomain (0x40000000 + o)).isSome then .bus (0x40000000 + o) else .unmapped)
  else if 0x3FF0000 ≤ o && o < 0x3FF0200 then .msix ((o - 0x3FF0000) / 4)
  else if 0x3FF8000 ≤ o && o < 0x3FF8008 then .pba ((o - 0x3FF8000) / 4)
  else .unmapped

/-- The pending bits: masked vectors whose sources are pending. -/
def msixPending (b : Blk) : Nat :=
  ((List.range 32).map (fun v => if vectorMasked b v && vectorOr b (sourcesPend b) v then 2 ^ v else 0)).sum

/-- The access control of HST_CTRL drops a write at offset `o` (R325): under BAR2_WR_EN, and under REG_WR_EN all of BAR0 but the MBX block. -/
def aclDrops (b : Blk) (bar2 : Bool) (o : Nat) : Bool :=
  if bar2 then !b.flag Reg.HST_CTRL 1 else !b.flag Reg.HST_CTRL 0 && o / 65536 != 0xC

/-- A write at offset `o` is dropped, and counted (R325). -/
def aclDropped (b : Blk) (a : Nat) : Blk := ((b.count Reg.HST_ACL_DROPS).irq Reg.HST_INT_STATUS 1).emit (.writeDone .pcie a false)

/-- A Completer Abort is sent. -/
def caSent (b : Blk) : Blk := (b.count Reg.HST_CA_COUNT).irq Reg.HST_INT_STATUS 2

/-- A write through a BAR. -/
def barWrite (bar2 : Bool) (o : Nat) (v : Word) (mem : Mem) (b : Blk) : Blk × List Host.Cell :=
  let drop := aclDrops b bar2 o
  match barTarget bar2 o with
  | .unmapped => ((b.count Reg.HST_UR_COUNT).emit (.writeDone .pcie o true), [])
  | .msix k =>
    if drop then (aclDropped b o, [])
    else ({ b with host := { b.host with msix := Tab.set (fun i => b2n (i % 4 == 3)) b.host.msix k v.toNat } }.emit
      (.writeDone .pcie o false), [])
  | .pba _ => if drop then (aclDropped b o, []) else (b.emit (.writeDone .pcie o false), [])
  | .bus a =>
    if drop then (aclDropped b a, [])
    else
      let r := fabWrite .pcie a v [] mem b
      ((if r.2.2 then r.1 else caSent r.1).emit (.writeDone .pcie a (!r.2.2)), r.2.1)

/-- A read of one word of fabric SRAM through a BAR: an uncorrectable word completes with a Completer Abort and 0 (R26, Table 1-13). -/
def barFetch (a : Nat) (found : EccResult) (mem : Mem) (b : Blk) : Nat × Bool × Blk :=
  let r := fabRead .pcie a [] mem b
  if scrubbed b a && r.2.1 then
    (if found = .uncorrectable then 0 else r.1, found != .uncorrectable, eccFound r.2.2 found a 0x62 4)
  else r

/-- A read through a BAR. -/
def barRead (bar2 : Bool) (o : Nat) (found : EccResult) (mem : Mem) (b : Blk) : Blk :=
  match barTarget bar2 o with
  | .unmapped => (b.count Reg.HST_UR_COUNT).emit (.readDone .pcie o 0#32 true)
  | .msix k => b.emit (.readDone .pcie o (BitVec.ofNat 32 (Tab.get (fun i => b2n (i % 4 == 3)) b.host.msix k)) false)
  | .pba k => b.emit (.readDone .pcie o (BitVec.ofNat 32 (if k = 0 then msixPending b else 0)) false)
  | .bus a =>
    let r := barFetch a found mem b
    (if r.2.1 then r.2.2 else caSent r.2.2).emit (.readDone .pcie a (BitVec.ofNat 32 r.1) (!r.2.1))

/-- An access of the host while its link is up. -/
def barAccess (bar2 : Bool) (o : Nat) (w : Option Word) (found : EccResult) (mem : Mem) (b : Blk) : Blk × List Host.Cell :=
  if !(domOn b 9 && b.flag Reg.HST_STATUS 1) then (b, [])
  else match w with
    | some v => let r := barWrite bar2 (o / 4 * 4) v mem b; (intSettle r.1, r.2)
    | none => (intSettle (barRead bar2 (o / 4 * 4) found mem b), [])

/-- PCIE_BAR_ACCESS (R325). -/
def execPcieBarAccess (bar2 : Bool) (offset : BitVec 32) (write : Option Word) (found : EccResult) (s : State) : Result :=
  onMem (barAccess bar2 offset.toNat write found) s

end Sys2Proof.Machine
end

