-- ==== Sys2Proof/Machine/StrandRx.lean ====
section
/-!
DEFINITION. What arrives at a strand port (R190, R199, R200, R207, R288, R300, R455).
-/
namespace Sys2Proof.Machine

/-- A Survey reply (R190, R193): C of node k goes to the Survey table, and the next SURVEY is sent; an aborted Survey ends here; an
answer to HOPS 2,048 is an error. -/
def surveyReply (b : Blk) (n : Nat) (v : Survey) (rt : Int) (p : List Byte) : Blk × List Host.Cell :=
  let k := v.cks.length
  let t4 : Int := strTsym4 b n
  let c : Nat := ux 32 ((rt - 64 * t4 - 48 * k * t4) / 2)
  if v.abort then (surveyOver b n, [])
  else if 2048 ≤ k then
    (surveyOver ((b.setFld (Reg.STR_n_NODES n) 11 0 2048).irq (Reg.STR_n_INT_STATUS n) 1) n, [])
  else
    let b := b.setStr n { b.str n with survey := some { v with cks := v.cks ++ [c] } }
    (surveyAsk b n (k + 1), cellsAt (b.rdN (Reg.STR_n_SURVEY_ADDR n) / 8 * 8 + 8 * k) (toLE 4 c ++ toLE 2 1 ++ slice p 20 2))

/-- A REPLY, whose stamp is `age` quarter nanoseconds old (R48, R190, R207): its reply ring entry; an answer to the outstanding question ends it. Without one, the request's SEQ and the round
trip are not stated: free values (log entry 38). -/
def strReply (b : Blk) (n addr age : Nat) (p : List Byte) : Blk × List Host.Cell :=
  match (b.str n).ask with
  | none =>
    let v := Config.freeValue b.freeCount
    replyEntry b.drawn n 0 addr (v % 65536) (v / 65536) p
  | some a =>
    let stamp := stampAt b (merTbSel b (strMer b n)) (4 * b.now - age)
    let rt : Int := ((stamp : Int) - a.stamp) / 2 ^ 46 - (leAt p 4 2 * strTsym4 b n : Nat)
    let e := replyEntry (strAnswered b n) n (2 * b2n a.survey) addr a.seq (ux 32 rt) p
    match (b.str n).survey with
    | some v => if a.survey then
        let r := surveyReply e.1 n v rt p
        (r.1, e.2 ++ r.2)
      else e
    | none => e

/-- A SURVEY of the ring partner arrives: the ring closes after the nodes counted so far (R190). -/
def surveyClosed (b : Blk) (n : Nat) : Blk :=
  match strPartner b n with
  | none => b
  | some k =>
    match (b.str k).survey, (b.str k).ask with
    | some v, some a =>
      if !a.survey then b
      else if v.abort then surveyOver (strAnswered b k) k
      else surveyDone (strAnswered b k) k v true
    | _, _ => b

/-- A CLAIM frame (R199, R288, R297): the ring watch of a secondary, or the partner's claim on a pair ring. -/
def strClaimIn (b : Blk) (n : Nat) (p : List Byte) : Blk :=
  let src := leAt p 4 2 % 4096
  if b.flag Reg.PAIR_PORTS n then
    if src = b.fld Reg.PAIR_PARTNER 11 0 then
      let b := if bit (leAt p 6 1) 0 then b else b.setStr n { b.str n with claimSeen := true }
      pairClaimIn b (leAt p 0 2) true
    else b
  else if strSecondary b n && src = b.deviceId then b.setStr n { b.str n with claimSeen := true }
  else b

/-- A DATA frame of the active unit at a standby's pair-ring port (R299, R300): compared with the standby's own line, or kept until the
standby has moved it. -/
def shadowCompare (b : Blk) (n flags : Nat) (p : List Byte) : Blk :=
  if !b.flag Reg.PAIR_PORTS n || pairState b != 1 then b
  else if bit flags 0 then b.count Reg.PAIR_SHADOW_SKIPPED
  else
    let frame := leAt p 0 4
    let row := leAt p 4 1
    let ofs := leAt p 6 2
    let crc := crc32 (p.drop 8)
    let lb := limit 1 1016 (b.fld (Reg.STR_n_LAYOUT n) 25 16)
    let own := if ofs % lb = 0 then (Tab.at [] (b.str n).crcs (8192 * row + ofs / lb)).find? (fun e => e.1 == frame) else none
    match own with
    | some e => shadowSay b n crc e.2
    | none => b.setPair { b.pair with waits := b.pair.waits ++
        [{ port := n, frame := frame, row := row, ofs := ofs, crc := crc, since := b.pair.frames }] }

/-- An Itren frame arrives at port `n` (R455): a good one is acted on; a bad or ill-formed one is counted, and a bad REPLY gets its entry
with CRC_BAD. -/
def strandFrameRx (n age : Nat) (bytes : List Byte) (b : Blk) : Blk × List Host.Cell :=
  if strFunc b n != 0 then (b, [])
  else
    let k := bytes.length - 4
    let type := leAt bytes 0 1
    let addr := leAt bytes 2 2
    let p := (bytes.take k).drop 8
    let b := (crcSnoop (b.setFlag (Reg.STR_n_STATUS n) 5 false) 2 n 0 bytes).count (Reg.STR_n_RX_FRAMES n)
    if !fGood bytes then
      let b := (b.count (Reg.STR_n_RX_CRC_ERR n)).irq (Reg.STR_n_INT_STATUS n) 8
      if type = 9 then
        replyEntry b n 4 addr (((b.str n).ask.map (fun a => a.seq)).getD 0) 0 p
      else (b, [])
    else
      match type with
      | 1 => (surveyClosed b n, [])
      | 3 => (shadowCompare b n (leAt bytes 1 1) p, [])
      | 6 => (strClaimIn b n p, [])
      | 9 => strReply b n addr age p
      | _ => (b, [])

/-- STRAND_FRAME_RX (R455). -/
def execStrandFrameRx (n : Fin 32) (age : BitVec 32) (bytes : List Byte) (s : State) : Result :=
  inDom (strDom n) (onMem (fun _ b => strandFrameRx n age.toNat bytes b)) s

end Sys2Proof.Machine
end

