-- ==== Sys2Proof/Machine/Dispatch.lean ====
section
/-!
DEFINITION. `exec`: one arm per command, each one direct call of the command's meaning.
-/
namespace Sys2Proof.Machine

/-- The effect of one command on everything but the queue. -/
def exec (i : Instr) (s : State) : Host.Outcome State Fault Refusal :=
  match i with
  | .registerWrite who addr value host => Sys2Proof.Machine.execRegisterWrite who addr value host s
  | .multiwordCaptureRead who addr => Sys2Proof.Machine.execMultiwordCaptureRead who addr s
  | .fabGuard fabClass => Sys2Proof.Machine.execFabGuard fabClass s
  | .patrolScrub addr buffer found => Sys2Proof.Machine.execPatrolScrub addr buffer found s
  | .memoryWipeDone array => Sys2Proof.Machine.execMemoryWipeDone array s
  | .atlasWriteLand region => Sys2Proof.Machine.execAtlasWriteLand region s
  | .tbSet n who => Sys2Proof.Machine.execTbSet n who s
  | .tbStep n who => Sys2Proof.Machine.execTbStep n who s
  | .acceptJump n => Sys2Proof.Machine.execAcceptJump n s
  | .tbClrCounts n => Sys2Proof.Machine.execTbClrCounts n s
  | .tbOffsetSample n who ofsHi => Sys2Proof.Machine.execTbOffsetSample n who ofsHi s
  | .ppsCapture quarter => Sys2Proof.Machine.execPpsCapture quarter s
  | .clk10mCapture quarter => Sys2Proof.Machine.execClk10mCapture quarter s
  | .tbSampleTimeout n => Sys2Proof.Machine.execTbSampleTimeout n s
  | .synceRefLoss secondary => Sys2Proof.Machine.execSynceRefLoss secondary s
  | .synceRefRestore secondary => Sys2Proof.Machine.execSynceRefRestore secondary s
  | .tsqPop p who => Sys2Proof.Machine.execTsqPop p who s
  | .meridianRowStart m lost => Sys2Proof.Machine.execMeridianRowStart m lost s
  | .meridianFrameBoundary m => Sys2Proof.Machine.execMeridianFrameBoundary m s
  | .fsyncEdge rising quarter => Sys2Proof.Machine.execFsyncEdge rising quarter s
  | .lsyncEdge rising quarter => Sys2Proof.Machine.execLsyncEdge rising quarter s
  | .ltcSyncWord tc quarter => Sys2Proof.Machine.execLtcSyncWord tc quarter s
  | .wclkEdge quarter => Sys2Proof.Machine.execWclkEdge quarter s
  | .mainsZcEdge rising quarter => Sys2Proof.Machine.execMainsZcEdge rising quarter s
  | .edgeMiss m => Sys2Proof.Machine.execEdgeMiss m s
  | .slewComplete m => Sys2Proof.Machine.execSlewComplete m s
  | .bearingSend m => Sys2Proof.Machine.execBearingSend m s
  | .bearingReceive payload => Sys2Proof.Machine.execBearingReceive payload s
  | .meridianCommit m => Sys2Proof.Machine.execMeridianCommit m s
  | .meridianDiscard m => Sys2Proof.Machine.execMeridianDiscard m s
  | .modelLoad m locked => Sys2Proof.Machine.execModelLoad m locked s
  | .modelFlush m => Sys2Proof.Machine.execModelFlush m s
  | .merClrCounts m => Sys2Proof.Machine.execMerClrCounts m s
  | .remoteModelApply m => Sys2Proof.Machine.execRemoteModelApply m s
  | .bearingTimeout m => Sys2Proof.Machine.execBearingTimeout m s
  | .waypointFire index found => Sys2Proof.Machine.execWaypointFire index found s
  | .wptWrite => Sys2Proof.Machine.execWptWrite s
  | .wptRead => Sys2Proof.Machine.execWptRead s
  | .wptCancel => Sys2Proof.Machine.execWptCancel s
  | .wptClearAll => Sys2Proof.Machine.execWptClearAll s
  | .waypointArmed index => Sys2Proof.Machine.execWaypointArmed index s
  | .evtPinEdge k => Sys2Proof.Machine.execEvtPinEdge k s
  | .evtOutPulseEnd k => Sys2Proof.Machine.execEvtOutPulseEnd k s
  | .ppsOutEdge rising => Sys2Proof.Machine.execPpsOutEdge rising s
  | .evtPassEdge rising => Sys2Proof.Machine.execEvtPassEdge rising s
  | .evtInCapture j rising quarter => Sys2Proof.Machine.execEvtInCapture j rising quarter s
  | .evtInPop j who => Sys2Proof.Machine.execEvtInPop j who s
  | .st2110Packet found bank => Sys2Proof.Machine.execSt2110Packet found bank s
  | .mergeWaitExpiry => Sys2Proof.Machine.execMergeWaitExpiry s
  | .pathLoss pathB => Sys2Proof.Machine.execPathLoss pathB s
  | .sheetStreamPacket found bank => Sys2Proof.Machine.execSheetStreamPacket found bank s
  | .canvasAutoCommit found => Sys2Proof.Machine.execCanvasAutoCommit found s
  | .cnvNext found => Sys2Proof.Machine.execCnvNext found s
  | .canvasApply => Sys2Proof.Machine.execCanvasApply s
  | .cnvClrCounts => Sys2Proof.Machine.execCnvClrCounts s
  | .hostGo => Sys2Proof.Machine.execHostGo s
  | .hostFetchStart => Sys2Proof.Machine.execHostFetchStart s
  | .hostFetchDone y c0 c1 found => Sys2Proof.Machine.execHostFetchDone y c0 c1 found s
  | .flipLatch => Sys2Proof.Machine.execFlipLatch s
  | .streamLoss => Sys2Proof.Machine.execStreamLoss s
  | .regionBandSend e found => Sys2Proof.Machine.execRegionBandSend e found s
  | .batchActivate => Sys2Proof.Machine.execBatchActivate s
  | .nodeDispatch lane found addr => Sys2Proof.Machine.execNodeDispatch lane found addr s
  | .nodeRetire lane ctx node => Sys2Proof.Machine.execNodeRetire lane ctx node s
  | .batchDeadline batch => Sys2Proof.Machine.execBatchDeadline batch s
  | .stitchHalt => Sys2Proof.Machine.execStitchHalt s
  | .flowCancel flow => Sys2Proof.Machine.execFlowCancel flow s
  | .stcCue cue => Sys2Proof.Machine.execStcCue cue s
  | .paramWrite index applyAt => Sys2Proof.Machine.execParamWrite index applyAt s
  | .delayFlush m0 m1 => Sys2Proof.Machine.execDelayFlush m0 m1 s
  | .programLoad => Sys2Proof.Machine.execProgramLoad s
  | .programCheckDone => Sys2Proof.Machine.execProgramCheckDone s
  | .discardStaged => Sys2Proof.Machine.execDiscardStaged s
  | .stcClrCounts => Sys2Proof.Machine.execStcClrCounts s
  | .emitRingSpace batch => Sys2Proof.Machine.execEmitRingSpace batch s
  | .delayExpire m => Sys2Proof.Machine.execDelayExpire m s
  | .traceStop => Sys2Proof.Machine.execTraceStop s
  | .traceStallRelease => Sys2Proof.Machine.execTraceStallRelease s
  | .traceClear => Sys2Proof.Machine.execTraceClear s
  | .lineMove n found ofs => Sys2Proof.Machine.execLineMove n found ofs s
  | .lineDeadline n found ofs => Sys2Proof.Machine.execLineDeadline n found ofs s
  | .frameLaunch n => Sys2Proof.Machine.execFrameLaunch n s
  | .latchLaunch n => Sys2Proof.Machine.execLatchLaunch n s
  | .strandFrameRx n age bytes => Sys2Proof.Machine.execStrandFrameRx n age bytes s
  | .replyTimeout n => Sys2Proof.Machine.execReplyTimeout n s
  | .surveyStart n => Sys2Proof.Machine.execSurveyStart n s
  | .surveyAbort n => Sys2Proof.Machine.execSurveyAbort n s
  | .ctlGo n => Sys2Proof.Machine.execCtlGo n s
  | .parkStart n => Sys2Proof.Machine.execParkStart n s
  | .strClrCounts n => Sys2Proof.Machine.execStrClrCounts n s
  | .rateTxSwitch n => Sys2Proof.Machine.execRateTxSwitch n s
  | .ringBreak n => Sys2Proof.Machine.execRingBreak n s
  | .ringHeal n => Sys2Proof.Machine.execRingHeal n s
  | .pairRingBreak n => Sys2Proof.Machine.execPairRingBreak n s
  | .readbackCheck n bytes => Sys2Proof.Machine.execReadbackCheck n bytes s
  | .strandRxLos rx => Sys2Proof.Machine.execStrandRxLos rx s
  | .nodeFrameRx n k port2 frame delay => Sys2Proof.Machine.execNodeFrameRx n k port2 frame delay s
  | .nodeLatch n k => Sys2Proof.Machine.execNodeLatch n k s
  | .nodeClaimTimeout n k port2 => Sys2Proof.Machine.execNodeClaimTimeout n k port2 s
  | .nodeHoldExpiry n k => Sys2Proof.Machine.execNodeHoldExpiry n k s
  | .nodeParkLimitExpiry n k => Sys2Proof.Machine.execNodeParkLimitExpiry n k s
  | .nodeRateSwitch n k => Sys2Proof.Machine.execNodeRateSwitch n k s
  | .nodeCalibPattern n k => Sys2Proof.Machine.execNodeCalibPattern n k s
  | .dmxPacketEnd n => Sys2Proof.Machine.execDmxPacketEnd n s
  | .dmxKeepalive n => Sys2Proof.Machine.execDmxKeepalive n s
  | .dmxLateStart n => Sys2Proof.Machine.execDmxLateStart n s
  | .rdmRequestStart n => Sys2Proof.Machine.execRdmRequestStart n s
  | .rdmWaitExpiry n => Sys2Proof.Machine.execRdmWaitExpiry n s
  | .rdmRequestEnd n => Sys2Proof.Machine.execRdmRequestEnd n s
  | .rdmResponseRx n bytes framed rt => Sys2Proof.Machine.execRdmResponseRx n bytes framed rt s
  | .rdmResponseTimeout n => Sys2Proof.Machine.execRdmResponseTimeout n s
  | .daliForwardStart n => Sys2Proof.Machine.execDaliForwardStart n s
  | .daliAnswerTimeout n => Sys2Proof.Machine.execDaliAnswerTimeout n s
  | .daliBackwardRx n byte valid rt => Sys2Proof.Machine.execDaliBackwardRx n byte valid rt s
  | .daliCollision n rxp => Sys2Proof.Machine.execDaliCollision n rxp s
  | .daliFrameHeard n bits24 frame => Sys2Proof.Machine.execDaliFrameHeard n bits24 frame s
  | .daliBusDown n rxp => Sys2Proof.Machine.execDaliBusDown n rxp s
  | .daliBusIdle n rxp => Sys2Proof.Machine.execDaliBusIdle n rxp s
  | .e131RxPacket found bank => Sys2Proof.Machine.execE131RxPacket found bank s
  | .e131SyncRx found bank => Sys2Proof.Machine.execE131SyncRx found bank s
  | .e131SyncTimeout sync => Sys2Proof.Machine.execE131SyncTimeout sync s
  | .e131LossTimeout index => Sys2Proof.Machine.execE131LossTimeout index s
  | .e131ClrCounts => Sys2Proof.Machine.execE131ClrCounts s
  | .drvDiagSample c pin sense tOff => Sys2Proof.Machine.execDrvDiagSample c pin sense tOff s
  | .drvOvercurrentCycle c rise follows => Sys2Proof.Machine.execDrvOvercurrentCycle c rise follows s
  | .drvSenseFault c => Sys2Proof.Machine.execDrvSenseFault c s
  | .sensorAutoStart bus index => Sys2Proof.Machine.execSensorAutoStart bus index s
  | .ainConversionDone index ratio => Sys2Proof.Machine.execAinConversionDone index ratio s
  | .snsTransactionDone index data => Sys2Proof.Machine.execSnsTransactionDone index data s
  | .sensorStale c => Sys2Proof.Machine.execSensorStale c s
  | .derateSlewStep c => Sys2Proof.Machine.execDerateSlewStep c s
  | .drvRetryExpiry c => Sys2Proof.Machine.execDrvRetryExpiry c s
  | .drvFaultClr c => Sys2Proof.Machine.execDrvFaultClr c s
  | .drvReclaim => Sys2Proof.Machine.execDrvReclaim s
  | .drvClrCounts c => Sys2Proof.Machine.execDrvClrCounts c s
  | .drvHoldExpiry => Sys2Proof.Machine.execDrvHoldExpiry s
  | .trunkFrameRx p age corrected failed frame => Sys2Proof.Machine.execTrunkFrameRx p age corrected failed frame s
  | .trunkFrameTx p quarter found bank late => Sys2Proof.Machine.execTrunkFrameTx p quarter found bank late s
  | .trunkLinkUp p speedOk => Sys2Proof.Machine.execTrunkLinkUp p speedOk s
  | .trunkLinkDown p => Sys2Proof.Machine.execTrunkLinkDown p s
  | .trunkModeChange p mode => Sys2Proof.Machine.execTrunkModeChange p mode s
  | .fdbAgeExpiry mac vid => Sys2Proof.Machine.execFdbAgeExpiry mac vid s
  | .tblWrite cmd => Sys2Proof.Machine.execTblWrite cmd s
  | .tblRead cmd => Sys2Proof.Machine.execTblRead cmd s
  | .tblDelete cmd => Sys2Proof.Machine.execTblDelete cmd s
  | .fdbFlush => Sys2Proof.Machine.execFdbFlush s
  | .trkClrCounts port => Sys2Proof.Machine.execTrkClrCounts port s
  | .rxRingDelivery host found bank words => Sys2Proof.Machine.execRxRingDelivery host found bank words s
  | .rxCoalTimeout r => Sys2Proof.Machine.execRxCoalTimeout r s
  | .txDescriptorFetch t err host words => Sys2Proof.Machine.execTxDescriptorFetch t err host words s
  | .txFrameDone t => Sys2Proof.Machine.execTxFrameDone t s
  | .ringBeaconTimer index => Sys2Proof.Machine.execRingBeaconTimer index s
  | .ringFrameRx p frame => Sys2Proof.Machine.execRingFrameRx p frame s
  | .ringBeaconLoss index => Sys2Proof.Machine.execRingBeaconLoss index s
  | .wakeFrameRx frame => Sys2Proof.Machine.execWakeFrameRx frame s
  | .pairHeartbeatToggle => Sys2Proof.Machine.execPairHeartbeatToggle s
  | .pairAliveInEdge => Sys2Proof.Machine.execPairAliveInEdge s
  | .pairAliveLoss => Sys2Proof.Machine.execPairAliveLoss s
  | .pairBeaconTimer => Sys2Proof.Machine.execPairBeaconTimer s
  | .pairBeaconRx => Sys2Proof.Machine.execPairBeaconRx s
  | .pairClaimTimeout => Sys2Proof.Machine.execPairClaimTimeout s
  | .pairRevertHoldExpiry => Sys2Proof.Machine.execPairRevertHoldExpiry s
  | .pairWkrHeard value => Sys2Proof.Machine.execPairWkrHeard value s
  | .wkrTimeout srcB => Sys2Proof.Machine.execWkrTimeout srcB s
  | .resetPartner => Sys2Proof.Machine.execResetPartner s
  | .pairClrCounts => Sys2Proof.Machine.execPairClrCounts s
  | .commandPacket via => Sys2Proof.Machine.execCommandPacket via s
  | .relayTimeout opcode seq => Sys2Proof.Machine.execRelayTimeout opcode seq s
  | .commandReplyRx => Sys2Proof.Machine.execCommandReplyRx s
  | .replayTableSave => Sys2Proof.Machine.execReplayTableSave s
  | .identify via => Sys2Proof.Machine.execIdentify via s
  | .getStatus via => Sys2Proof.Machine.execGetStatus via s
  | .getCaps via => Sys2Proof.Machine.execGetCaps via s
  | .setRole via => Sys2Proof.Machine.execSetRole via s
  | .reset via => Sys2Proof.Machine.execReset via s
  | .domainPower via => Sys2Proof.Machine.execDomainPower via s
  | .enterDormant via => Sys2Proof.Machine.execEnterDormant via s
  | .lifecycleAdvance via => Sys2Proof.Machine.execLifecycleAdvance via s
  | .readReg via => Sys2Proof.Machine.execReadReg via s
  | .writeReg via => Sys2Proof.Machine.execWriteReg via s
  | .tbConfig via => Sys2Proof.Machine.execTbConfig via s
  | .tbServoSet via => Sys2Proof.Machine.execTbServoSet via s
  | .tbOffsetFeed via => Sys2Proof.Machine.execTbOffsetFeed via s
  | .tbAcceptJump via => Sys2Proof.Machine.execTbAcceptJump via s
  | .tbDomainSwitch via => Sys2Proof.Machine.execTbDomainSwitch via s
  | .meridianSetMode via => Sys2Proof.Machine.execMeridianSetMode via s
  | .meridianStatus via => Sys2Proof.Machine.execMeridianStatus via s
  | .waypointProgram via => Sys2Proof.Machine.execWaypointProgram via s
  | .waypointCancel via => Sys2Proof.Machine.execWaypointCancel via s
  | .canvasConfig via => Sys2Proof.Machine.execCanvasConfig via s
  | .canvasSubscribe via => Sys2Proof.Machine.execCanvasSubscribe via s
  | .canvasFlipPolicy via => Sys2Proof.Machine.execCanvasFlipPolicy via s
  | .canvasBackground via => Sys2Proof.Machine.execCanvasBackground via s
  | .regionEmit via => Sys2Proof.Machine.execRegionEmit via s
  | .stitchLoadProgram via => Sys2Proof.Machine.execStitchLoadProgram via s
  | .stitchStart via => Sys2Proof.Machine.execStitchStart via s
  | .stitchStop via => Sys2Proof.Machine.execStitchStop via s
  | .stitchSetParam via => Sys2Proof.Machine.execStitchSetParam via s
  | .stitchCue via => Sys2Proof.Machine.execStitchCue via s
  | .stitchTrace via => Sys2Proof.Machine.execStitchTrace via s
  | .atlasWrite via => Sys2Proof.Machine.execAtlasWrite via s
  | .atlasCommit via => Sys2Proof.Machine.execAtlasCommit via s
  | .calWrite via => Sys2Proof.Machine.execCalWrite via s
  | .contourWrite via => Sys2Proof.Machine.execContourWrite via s
  | .motifSet via => Sys2Proof.Machine.execMotifSet via s
  | .motifStart via => Sys2Proof.Machine.execMotifStart via s
  | .strandConfig via => Sys2Proof.Machine.execStrandConfig via s
  | .strandSurvey via => Sys2Proof.Machine.execStrandSurvey via s
  | .strandAssign via => Sys2Proof.Machine.execStrandAssign via s
  | .strandRate via => Sys2Proof.Machine.execStrandRate via s
  | .strandQuery via => Sys2Proof.Machine.execStrandQuery via s
  | .strandPark via => Sys2Proof.Machine.execStrandPark via s
  | .dmxConfig via => Sys2Proof.Machine.execDmxConfig via s
  | .rdmTransact via => Sys2Proof.Machine.execRdmTransact via s
  | .daliConfig via => Sys2Proof.Machine.execDaliConfig via s
  | .daliTransact via => Sys2Proof.Machine.execDaliTransact via s
  | .driveConfig via => Sys2Proof.Machine.execDriveConfig via s
  | .driveSet via => Sys2Proof.Machine.execDriveSet via s
  | .driveDiag via => Sys2Proof.Machine.execDriveDiag via s
  | .driveThermalTable via => Sys2Proof.Machine.execDriveThermalTable via s
  | .trunkPortConfig via => Sys2Proof.Machine.execTrunkPortConfig via s
  | .switchTableWrite via => Sys2Proof.Machine.execSwitchTableWrite via s
  | .e131Config via => Sys2Proof.Machine.execE131Config via s
  | .wakePatternSet via => Sys2Proof.Machine.execWakePatternSet via s
  | .pairConfig via => Sys2Proof.Machine.execPairConfig via s
  | .pairStatus via => Sys2Proof.Machine.execPairStatus via s
  | .pairForce via => Sys2Proof.Machine.execPairForce via s
  | .fwBegin via => Sys2Proof.Machine.execFwBegin via s
  | .fwChunk via => Sys2Proof.Machine.execFwChunk via s
  | .fwVerify via err => Sys2Proof.Machine.execFwVerify via err s
  | .fwHandover via => Sys2Proof.Machine.execFwHandover via s
  | .fwCommit via => Sys2Proof.Machine.execFwCommit via s
  | .fwRevert via => Sys2Proof.Machine.execFwRevert via s
  | .settingsSave via => Sys2Proof.Machine.execSettingsSave via s
  | .lifelogRead via => Sys2Proof.Machine.execLifelogRead via s
  | .countersRead via => Sys2Proof.Machine.execCountersRead via s
  | .swatchRun via => Sys2Proof.Machine.execSwatchRun via s
  | .gaugeRead via => Sys2Proof.Machine.execGaugeRead via s
  | .readbackStatus via => Sys2Proof.Machine.execReadbackStatus via s
  | .relay via => Sys2Proof.Machine.execRelay via s
  | .rollCall via => Sys2Proof.Machine.execRollCall via s
  | .hierStatus via => Sys2Proof.Machine.execHierStatus via s
  | .mbxPost m who tag host => Sys2Proof.Machine.execMbxPost m who tag host s
  | .mbxAck m who code => Sys2Proof.Machine.execMbxAck m who code s
  | .pairLinkTxDone cc1 => Sys2Proof.Machine.execPairLinkTxDone cc1 s
  | .doorbellRaise value => Sys2Proof.Machine.execDoorbellRaise value s
  | .lockAcquire n who => Sys2Proof.Machine.execLockAcquire n who s
  | .lockRelease n who value => Sys2Proof.Machine.execLockRelease n who value s
  | .lockBreak who value => Sys2Proof.Machine.execLockBreak who value s
  | .qspiWrite addr data => Sys2Proof.Machine.execQspiWrite addr data s
  | .qspiReadReq addr count => Sys2Proof.Machine.execQspiReadReq addr count s
  | .qspiReadData => Sys2Proof.Machine.execQspiReadData s
  | .qspiStatus => Sys2Proof.Machine.execQspiStatus s
  | .qspiBadOp => Sys2Proof.Machine.execQspiBadOp s
  | .qspiWriteDrain => Sys2Proof.Machine.execQspiWriteDrain s
  | .qspiReadDone found => Sys2Proof.Machine.execQspiReadDone found s
  | .pcieBarAccess bar2 offset write found => Sys2Proof.Machine.execPcieBarAccess bar2 offset write found s
  | .perstN => Sys2Proof.Machine.execPerstN s
  | .dmaGo n => Sys2Proof.Machine.execDmaGo n s
  | .dmaRefetch n host fixed => Sys2Proof.Machine.execDmaRefetch n host fixed s
  | .dmaEnClear n host => Sys2Proof.Machine.execDmaEnClear n host s
  | .dmaChReset n host => Sys2Proof.Machine.execDmaChReset n host s
  | .dmaResetDone n => Sys2Proof.Machine.execDmaResetDone n s
  | .dmaClrCounts => Sys2Proof.Machine.execDmaClrCounts s
  | .dmaDescFetched n host fixed => Sys2Proof.Machine.execDmaDescFetched n host fixed s
  | .dmaTransferDone n host fixed => Sys2Proof.Machine.execDmaTransferDone n host fixed s
  | .dmaWritebackDone n host fixed => Sys2Proof.Machine.execDmaWritebackDone n host fixed s
  | .dmaError n code late addr sgDone host fixed => Sys2Proof.Machine.execDmaError n code late addr sgDone host fixed s
  | .dmaHostReadTimeout n addr sgDone host fixed => Sys2Proof.Machine.execDmaHostReadTimeout n addr sgDone host fixed s
  | .skeinPush q hostWin who value => Sys2Proof.Machine.execSkeinPush q hostWin who value s
  | .skeinPop q hostWin who => Sys2Proof.Machine.execSkeinPop q hostWin who s
  | .skeinRefillDone q found ofs => Sys2Proof.Machine.execSkeinRefillDone q found ofs s
  | .skeinQuotaWrite q value => Sys2Proof.Machine.execSkeinQuotaWrite q value s
  | .skeinModeWrite value => Sys2Proof.Machine.execSkeinModeWrite value s
  | .sknClrCounts => Sys2Proof.Machine.execSknClrCounts s
  | .crcEnd n => Sys2Proof.Machine.execCrcEnd n s
  | .crcInit n => Sys2Proof.Machine.execCrcInit n s
  | .crcClrCounts => Sys2Proof.Machine.execCrcClrCounts s
  | .railFail rail => Sys2Proof.Machine.execRailFail rail s
  | .railValid rail => Sys2Proof.Machine.execRailValid rail s
  | .railTimeout rail => Sys2Proof.Machine.execRailTimeout rail s
  | .rstNLow => Sys2Proof.Machine.execRstNLow s
  | .rstNHigh => Sys2Proof.Machine.execRstNHigh s
  | .resetRelease bootMode hostSel pairSide => Sys2Proof.Machine.execResetRelease bootMode hostSel pairSide s
  | .watchdogExpiry w => Sys2Proof.Machine.execWatchdogExpiry w s
  | .wdtKick w who value => Sys2Proof.Machine.execWdtKick w who value s
  | .swReset value => Sys2Proof.Machine.execSwReset value s
  | .debugReset => Sys2Proof.Machine.execDebugReset s
  | .commandReset => Sys2Proof.Machine.execCommandReset s
  | .resetFrameCheck => Sys2Proof.Machine.execResetFrameCheck s
  | .domainReset value => Sys2Proof.Machine.execDomainReset value s
  | .tjReading reading dips => Sys2Proof.Machine.execTjReading reading dips s
  | .castOnS0Done => Sys2Proof.Machine.execCastOnS0Done s
  | .castOnS1Done => Sys2Proof.Machine.execCastOnS1Done s
  | .optionLoadDone pciIds trunkDef flags recIp => Sys2Proof.Machine.execOptionLoadDone pciIds trunkDef flags recIp s
  | .pllLock refclk => Sys2Proof.Machine.execPllLock refclk s
  | .pllLockFail => Sys2Proof.Machine.execPllLockFail s
  | .castOnS4Done => Sys2Proof.Machine.execCastOnS4Done s
  | .romBoot errA errB => Sys2Proof.Machine.execRomBoot errA errB s
  | .configured writes => Sys2Proof.Machine.execConfigured writes s
  | .dormantEntry => Sys2Proof.Machine.execDormantEntry s
  | .dormantEnStep => Sys2Proof.Machine.execDormantEnStep s
  | .wakePin => Sys2Proof.Machine.execWakePin s
  | .dormantExitRetry => Sys2Proof.Machine.execDormantExitRetry s
  | .bkpWipe who => Sys2Proof.Machine.execBkpWipe who s
  | .pwrDomainWrite value => Sys2Proof.Machine.execPwrDomainWrite value s
  | .bindOff => Sys2Proof.Machine.execBindOff s
  | .fwuCopy value => Sys2Proof.Machine.execFwuCopy value s
  | .fwuCopyDone => Sys2Proof.Machine.execFwuCopyDone s
  | .fwuSwitch value => Sys2Proof.Machine.execFwuSwitch value s
  | .fwuConfirm value => Sys2Proof.Machine.execFwuConfirm value s
  | .fwuReturn value => Sys2Proof.Machine.execFwuReturn value s
  | .fwuRevert value => Sys2Proof.Machine.execFwuRevert value s
  | .fwuCommit value => Sys2Proof.Machine.execFwuCommit value s
  | .handoverTimeout => Sys2Proof.Machine.execHandoverTimeout s
  | .probationExpired => Sys2Proof.Machine.execProbationExpired s
  | .fwTransferTimeout => Sys2Proof.Machine.execFwTransferTimeout s
  | .lcCmd value => Sys2Proof.Machine.execLcCmd value s
  | .rollbackSet value => Sys2Proof.Machine.execRollbackSet value s
  | .otpRevoke value => Sys2Proof.Machine.execOtpRevoke value s
  | .tokenCheck => Sys2Proof.Machine.execTokenCheck s
  | .tokenCheckDone => Sys2Proof.Machine.execTokenCheckDone s
  | .keyWrite value => Sys2Proof.Machine.execKeyWrite value s
  | .keyErase value => Sys2Proof.Machine.execKeyErase value s
  | .recoveryGo value => Sys2Proof.Machine.execRecoveryGo value s
  | .recoveryDone err => Sys2Proof.Machine.execRecoveryDone err s
  | .recHello => Sys2Proof.Machine.execRecHello s
  | .recArp => Sys2Proof.Machine.execRecArp s
  | .recStart => Sys2Proof.Machine.execRecStart s
  | .recData => Sys2Proof.Machine.execRecData s
  | .recEnd => Sys2Proof.Machine.execRecEnd s
  | .recSessionTimeout => Sys2Proof.Machine.execRecSessionTimeout s
  | .recRestart => Sys2Proof.Machine.execRecRestart s
  | .logSnap => Sys2Proof.Machine.execLogSnap s
  | .logFlushDue => Sys2Proof.Machine.execLogFlushDue s
  | .swatchAutoStart n => Sys2Proof.Machine.execSwatchAutoStart n s
  | .swatchRunDone n los bins => Sys2Proof.Machine.execSwatchRunDone n los bins s
  | .drvOffsetEstimate c samples => Sys2Proof.Machine.execDrvOffsetEstimate c samples s
  | .drvForcedInterrupt c => Sys2Proof.Machine.execDrvForcedInterrupt c s
  | .drvInterruptEnd c settled => Sys2Proof.Machine.execDrvInterruptEnd c settled s
  | .trunkEyeRefresh p horiz vert => Sys2Proof.Machine.execTrunkEyeRefresh p horiz vert s
  | .calClrCounts => Sys2Proof.Machine.execCalClrCounts s
  | .strandRxLosRelease rx => Sys2Proof.Machine.execStrandRxLosRelease rx s
  | .nodePowerUp n k => Sys2Proof.Machine.execNodePowerUp n k s
  | .pcieLinkUp speed x2 busMaster msixEn => Sys2Proof.Machine.execPcieLinkUp speed x2 busMaster msixEn s
  | .pcieLinkDown => Sys2Proof.Machine.execPcieLinkDown s
  | .perstNRelease => Sys2Proof.Machine.execPerstNRelease s
  | .synceDpllLock freq => Sys2Proof.Machine.execSynceDpllLock freq s
  | .rollCallWindowExpiry => Sys2Proof.Machine.execRollCallWindowExpiry s
  | .wakeHeldExit => Sys2Proof.Machine.execWakeHeldExit s

end Sys2Proof.Machine
end

