-- ==== Sys2Proof/Machine/Tick.lean ====
section
/-!
DEFINITION. One fabric clock without a command (log entry 4): what counts and what falls due by time alone. What has a row of its own in
the opcode table comes as that command.
-/
namespace Sys2Proof.Machine

/-- Domains whose 16 RCLK cycles of reset are over leave it; HOST not while PERST_N is low (R29, R364, R367). -/
def holdingTick (b : Blk) : Blk :=
  let due := b.pwr.holding.filter (fun h => decide (h.2 ≤ b.now) && !(h.1 == 9 && b.pwr.perstLow))
  due.foldl (fun b h =>
    let b := (b.setFlag Reg.RST_STATUS h.1 false).setPwr { b.pwr with holding := b.pwr.holding.filter (fun x => x != h) }
    if h.1 = 9 then hostPads b else b) b

/-- A register counts down by one, as far as 0. -/
def countDown (b : Blk) (a : Nat) : Blk := b.wrN a (b.rdN a - 1)

/-- The watchdogs count down a millisecond, but for one in which DBG_FREEZE stops them: the debug port is open and holds a core halted; in S5 and in recovery the ROM kicks the hardware watchdog, until firmware runs (R368). -/
def wdtMs (b : Blk) : Blk :=
  let frozen := b.flag Reg.PWR_CTRL 2 && debugOpen b && Config.coreHalted (b.now / msClocks)
  let b := if frozen then b
    else [0, 1, 2].foldl (fun b w => if b.flag (wdtRegs w).1 0 then countDown b (wdtRegs w).2.1 else b) b
  if b.pwr.stage = .s5 || b.pwr.stage = .recovery then wdtRestart b 2 else b

/-- The times in HOLDOVER or REFUSED grow at each whole millisecond of the fabric clock (Tables 2-11 and 3-11; log entry 62); the rate of a
MAINS Meridian in HOLDOVER goes on towards its integrator by MAINS_SLEW (R65). -/
def holdoverMs (b : Blk) : Blk :=
  let b := (List.range 4).foldl (fun b n => if 4 ≤ tbState b n then b.count (Reg.TBn_HOLDOVER_MS n) else b) b
  [0, 1].foldl (fun b m => if merState b m = 4 then merMainsHold (b.count (Reg.MERm_HOLDOVER_MS m)) m else b) b

/-- The temperature bin of a second, from its highest junction reading in 1/16 °C (R408). -/
def tjBin (t : Int) : Nat := limit 0 15 ((t / 16 + 40) / 10).toNat

/-- A second is over: probation (R395), and the Lifelog's accumulators of time (R408). -/
def secondTick (b : Blk) : Blk :=
  let b := if b.flag Reg.FWU_STATUS 4 then countDown b Reg.FWU_PROB_REMAIN else b
  let b := if b.pwr.stage = .dormant then lifeAdd b Reg.LOG_DORMANT_S 1
    else if b.flag Reg.PWR_STATUS 1 then lifeAdd b Reg.LOG_CORE_S 1 else b
  match b.pwr.tjMax with
  | some t => (lifeAdd b (Reg.LOG_TJ_k (tjBin t)) 1).setPwr { b.pwr with tjMax := none }
  | none => b

/-- What a millisecond and a second bring. -/
def wholeTick (b : Blk) : Blk :=
  let b := if b.now % msClocks = 0 then holdoverMs (wdtMs b) else b
  if b.now % (1000 * msClocks) = 0 then secondTick b else b

/-- The trace writer drains a burst every 16 clocks, batches become READY, late and deferred Waypoints fire, DMX packets start that waited,
strand ports stop, drive pulses change with their period, and a packet of the region emitters leaves that the pace has held (R82, R116,
R126, R141, R189, R213, R238). -/
def engineTick (m : Mem) (b : Blk) : Work :=
  let b := if domOn b 5 then stcCounts m b else b
  let x := if domOn b 5 && b.now % 16 = 0 then trcDrain 2 b else (b, [])
  let b := if domOn x.1 5 then stcTick (m.write x.2) x.1 else x.1
  let r := if domOn b 2 then wptTick m b else (b, [])
  let b := (List.range 32).foldl (fun b n => strTick (altTick b n) n) r.1
  let b := if domOn b 8 then (List.range 16).foldl drvTick b else b
  let b := if domOn b 4 then reDrain b else b
  (if domOn b 1 then pairHoldCheck b else b, x.2 ++ r.2)

/-- One fabric clock. -/
def fabTick (m : Mem) (b : Blk) : Work :=
  let b := if domOn b 2 then (List.range 4).foldl tbTimeoutActs ((List.range 4).foldl tbSamplesAct b) else b
  let b := { b with now := b.now + 1 }
  let b := if domOn b 2 then (List.range 4).foldl tbAdvance b else b
  let r := engineTick m (wholeTick (holdingTick b))
  let x := fwPoll (m.write r.2) r.1
  (intSettle x.1, r.2 ++ x.2)

end Sys2Proof.Machine
end

