-- ==== Sys2Proof/Machine/Step.lean ====
section
/-!
DEFINITION. `step`: the command at the front of the queue is taken and run; on an empty queue a fabric clock passes (log entry 4).
-/
namespace Sys2Proof.Machine

/-- One step of the block. -/
def step (s : State) : Host.Outcome State Fault Refusal :=
  match s.pending with
  | [] => onMem fabTick s
  | c :: cs => exec c { s with pending := cs }

/-- `s` with the command that a word spells put at the front of its queue; unchanged where the word spells none. -/
def State.withFetchWord (s : State) (nbits w : Nat) : State :=
  match Sys2Proof.decodeTableWord nbits w with
  | some c => { s with pending := c :: s.pending }
  | none => s

end Sys2Proof.Machine
end

