-- ==== Sys2Proof/WellFormed.lean ====
section
/-!
DEFINITION. Which commands the block can be given. Nearly every operand has a type that admits only what exists; three rows need more.
-/
namespace Sys2Proof

/-- DMA_ERROR names a cause of Table 13-4 that the row raises, 1 to 6 or 8, and only cause 2 comes while data moves (R338). -/
def dmaErrorOk (code : Nat) (late : Bool) : Bool := code != 0 && code != 7 && code ≤ 8 && (!late || code == 2)

/-- The command can be given: what its fields must be together (log entry 1). -/
def Instr.wellFormed (i : Instr) : Bool :=
  match i with
  | .dmaError _ code late _ _ _ _ => dmaErrorOk code.val late
  | .swatchRunDone _ _ bins => bins.length == 192
  | .drvOffsetEstimate _ samples => samples.length == 256
  | _ => true

end Sys2Proof
end

