-- ==== Sys2Proof/Safety.lean ====
section
/-!
DEFINITION. What a safe state and a safe run are, in the terms the claims use; and what the claims say of a command: the answer it
gives, the domain it belongs to, whether it can store.
-/
namespace Sys2Proof.Machine

/-- The memory of a state has its canonical form: equal memories are equal data. -/
def State.wf (s : State) : Bool := Mem.wf s.mem

/-- Every command that waits can be given. -/
def State.queueOk (s : State) : Bool := s.pending.all (fun c => c.wellFormed)

/-- The block answers a next state. -/
def Goes (o : Host.Outcome State Fault Refusal) : Prop := ∃ t, o = .next t

/-- A safe state: its memory is canonical, and every command that waits can be given. -/
def State.safe (s : State) : Bool := s.wf && s.queueOk

/-! ### Answers -/

/-- The command turns the block into `b` and leaves memory and queue as they are. -/
def Gives (i : Instr) (s : State) (b : Blk) : Prop := exec i s = .next { s with blk := b }

/-- The command turns the block into `r.1`, writes the cells `r.2` into memory, and leaves the queue as it is. -/
def Writes (i : Instr) (s : State) (r : Blk × List Host.Cell) : Prop :=
  exec i s = .next { s with blk := r.1, mem := Mem.write s.mem r.2 }

/-- The command turns the block into `r.1`, wipes the ranges `r.2` of memory, and leaves the queue as it is. -/
def Wipes (i : Instr) (s : State) (r : Blk × List (Nat × Nat)) : Prop :=
  exec i s = .next { s with blk := r.1, mem := r.2.foldl (fun m x => Mem.wipe m x.1 x.2) s.mem }

/-- The command answers a next state of which `P` holds. -/
def Answers (i : Instr) (s : State) (P : State → Prop) : Prop := ∃ t, exec i s = .next t ∧ P t

/-- Registers outside `as` hold what they held. -/
def RegsKept (s t : State) (as : List Nat) : Prop := ∀ a, a ∉ as → t.blk.rd a = s.blk.rd a

/-- `t` is `s` but for the registers `as`, the outputs `os` that have left, and the note of which status bits hardware has set in this
clock (R7): memory, queue and all other state are as they were. -/
def OnlyRegs (s t : State) (as : List Nat) (os : List Output) : Prop :=
  t = { s with blk := { s.blk with regs := t.blk.regs, raised := t.blk.raised, raisedAt := t.blk.raisedAt, out := s.blk.out ++ os } }
    ∧ RegsKept s t as

/-- `t` is `s` but that the registers `as` hold 0. -/
def Cleared (s t : State) (as : List Nat) : Prop :=
  t = { s with blk := { s.blk with regs := t.blk.regs } } ∧ RegsKept s t as ∧ ∀ a ∈ as, t.blk.rd a = 0#32

/-! ### Names for the claims -/

/-- The counters of trunk port `p` (Table 10-12) with its lost stamps (Table 2-16). -/
def trunkPortCounts (p : Nat) : List Nat :=
  [Reg.TRK_Pp_RX_FRAMES p, Reg.TRK_Pp_RX_OCTETS_LO p, Reg.TRK_Pp_RX_OCTETS_HI p, Reg.TRK_Pp_RX_FCS_ERR p, Reg.TRK_Pp_RX_RUNT p,
    Reg.TRK_Pp_RX_OVERSIZE p, Reg.TRK_Pp_RX_PAUSE p, Reg.TRK_Pp_RX_STORM_DROP p, Reg.TRK_Pp_RX_NOCELL p, Reg.TRK_Pp_RX_FILTERED p,
    Reg.TRK_Pp_TX_FRAMES p, Reg.TRK_Pp_TX_OCTETS_LO p, Reg.TRK_Pp_TX_OCTETS_HI p, Reg.TRK_Pp_TX_LINKDROP p, Reg.TRK_Pp_LINK_DOWN p,
    Reg.TRK_Pp_FEC_CORR p, Reg.TRK_Pp_FEC_UNCORR p, Reg.TRK_Pp_TC_CORRECTED p, Reg.TRK_Pp_TX_STOMP p]
    ++ (List.range 8).map (Reg.TRK_Pp_TX_QDROPq p) ++ (if p < 4 then [Reg.TRK_Pp_TSQ_LOST p] else [])

/-- The E1.31 counters (Table 8-10). -/
def e131Counts : List Nat :=
  [Reg.E131_RX_PKTS, Reg.E131_RX_DROP, Reg.E131_RX_SEQ_DROP, Reg.E131_RX_SRC_DROP, Reg.E131_TX_PKTS, Reg.E131_TX_SKIP,
    Reg.E131_SYNC_RX, Reg.E131_SYNC_TX]

/-- The counters of drive channel `c` (Table 9-4). -/
def drvCounts (c : Nat) : List Nat :=
  [Reg.DRV_c_LATE_COUNT c, Reg.DRV_c_UNVERIFIED_COUNT c, Reg.DRV_c_DIAG_PULSES c, Reg.DRV_c_STRETCHED c, Reg.DRV_c_FAULT_COUNT c,
    Reg.DRV_c_OC_CYCLES c, Reg.DRV_c_WINDOW_CLIP c]

/-- The number by which a lock knows a requester (R324). -/
def ownerId (who : Requester) : Nat :=
  match who with
  | .cc0 => 1 | .cc1 => 2 | .pcie => 3 | .qspi => 4 | .debug => 5

/-- The entries of a queue none of which has been spilled, oldest first. -/
def SknQueue.entries (q : SknQueue) : List Nat := q.head ++ q.tail

/-! ### Command packets (R304) -/

/-- The opcode that a row of Table 12-4's opcodes brings, with the way the packet comes. -/
def packetCmd (i : Instr) : Option (Cmd × Via) :=
  match i with
  | .identify via => some (identifyCmd, via)
  | .getStatus via => some (getStatusCmd, via)
  | .getCaps via => some (getCapsCmd, via)
  | .setRole via => some (setRoleCmd, via)
  | .reset via => some (resetCmd, via)
  | .domainPower via => some (domainPowerCmd, via)
  | .enterDormant via => some (enterDormantCmd, via)
  | .lifecycleAdvance via => some (lifecycleAdvanceCmd, via)
  | .readReg via => some (readRegCmd, via)
  | .writeReg via => some (writeRegCmd, via)
  | .tbConfig via => some (tbConfigCmd, via)
  | .tbServoSet via => some (tbServoSetCmd, via)
  | .tbOffsetFeed via => some (tbOffsetFeedCmd, via)
  | .tbAcceptJump via => some (tbAcceptJumpCmd, via)
  | .tbDomainSwitch via => some (tbDomainSwitchCmd, via)
  | .meridianSetMode via => some (meridianSetModeCmd, via)
  | .meridianStatus via => some (meridianStatusCmd, via)
  | .waypointProgram via => some (waypointProgramCmd, via)
  | .waypointCancel via => some (waypointCancelCmd, via)
  | .canvasConfig via => some (canvasConfigCmd, via)
  | .canvasSubscribe via => some (canvasSubscribeCmd, via)
  | .canvasFlipPolicy via => some (canvasFlipPolicyCmd, via)
  | .canvasBackground via => some (canvasBackgroundCmd, via)
  | .regionEmit via => some (regionEmitCmd, via)
  | .stitchLoadProgram via => some (stitchLoadProgramCmd, via)
  | .stitchStart via => some (stitchStartCmd, via)
  | .stitchStop via => some (stitchStopCmd, via)
  | .stitchSetParam via => some (stitchSetParamCmd, via)
  | .stitchCue via => some (stitchCueCmd, via)
  | .stitchTrace via => some (stitchTraceCmd, via)
  | .atlasWrite via => some (atlasWriteCmd, via)
  | .atlasCommit via => some (atlasCommitCmd, via)
  | .calWrite via => some (calWriteCmd, via)
  | .contourWrite via => some (contourWriteCmd, via)
  | .motifSet via => some (motifSetCmd, via)
  | .motifStart via => some (motifStartCmd, via)
  | .strandConfig via => some (strandConfigCmd, via)
  | .strandSurvey via => some (strandSurveyCmd, via)
  | .strandAssign via => some (strandAssignCmd, via)
  | .strandRate via => some (strandRateCmd, via)
  | .strandQuery via => some (strandQueryCmd, via)
  | .strandPark via => some (strandParkCmd, via)
  | .dmxConfig via => some (dmxConfigCmd, via)
  | .rdmTransact via => some (rdmTransactCmd, via)
  | .daliConfig via => some (daliConfigCmd, via)
  | .daliTransact via => some (daliTransactCmd, via)
  | .driveConfig via => some (driveConfigCmd, via)
  | .driveSet via => some (driveSetCmd, via)
  | .driveDiag via => some (driveDiagCmd, via)
  | .driveThermalTable via => some (driveThermalTableCmd, via)
  | .trunkPortConfig via => some (trunkPortConfigCmd, via)
  | .switchTableWrite via => some (switchTableWriteCmd, via)
  | .e131Config via => some (e131ConfigCmd, via)
  | .wakePatternSet via => some (wakePatternSetCmd, via)
  | .pairConfig via => some (pairConfigCmd, via)
  | .pairStatus via => some (pairStatusCmd, via)
  | .pairForce via => some (pairForceCmd, via)
  | .fwBegin via => some (fwBeginCmd, via)
  | .fwChunk via => some (fwChunkCmd, via)
  | .fwVerify via err => some (fwVerifyWith err, via)
  | .fwHandover via => some (fwHandoverCmd, via)
  | .fwCommit via => some (fwCommitCmd, via)
  | .fwRevert via => some (fwRevertCmd, via)
  | .settingsSave via => some (settingsSaveCmd, via)
  | .lifelogRead via => some (lifelogReadCmd, via)
  | .countersRead via => some (countersReadCmd, via)
  | .swatchRun via => some (swatchRunCmd, via)
  | .gaugeRead via => some (gaugeReadCmd, via)
  | .readbackStatus via => some (readbackStatusCmd, via)
  | .relay via => some (relayCmd, via)
  | .rollCall via => some (rollCallCmd, via)
  | .hierStatus via => some (hierStatusCmd, via)
  | _ => none

/-! ### Packets on their way (R307, R310, R313) -/

/-- The packet `p` comes to firmware over `via` on the transport `path`, and its reply goes to `back`; a mailbox has then been acknowledged
with OK, or the descriptor of firmware's receive ring given back, which leaves the block `b0` and writes the cells `cs` (R313, R315). -/
def Delivers (via : Via) (m : Mem) (b : Blk) (path : Path) (back : ReplyTo) (p : List Byte) (b0 : Blk) (cs : List Host.Cell) : Prop :=
  match via with
  | .ring => ∃ f mac ip port, ringNext m b = some f ∧ ringUdp f = some (mac, ip, port, p) ∧ pktReply p = false ∧
      path = ringPath b f ∧ back = .udp f.port mac ip port ∧ ringGive m b = (b0, cs)
  | .mailbox k host =>
    b.flag (Reg.MBX_m_STATUS k) 0 = true ∧ hostPending b < 64 ∧ b0 = (mbxAck k .cc0 Status.ok b).1 ∧ path = .mailbox ∧ cs = [] ∧
    ∃ addr max, bufTake m b (b.rd64 (Reg.MBX_m_PTR_LO k) (Reg.MBX_m_PTR_HI k)) host = some (addr, max, p) ∧
      back = .mailbox k addr max (b.rdN (Reg.MBX_m_TAG k))

/-- The packet passes checks 1 to 3: its form, its tag where it has or needs one, its nonce (R307, R310, R311). -/
def Clears (path : Path) (back : ReplyTo) (p : List Byte) (b : Blk) (x : Asker) (b1 : Blk) : Prop :=
  pktForm (pathLimit b path p) p = true ∧ pktReply p = false ∧
  ((pktAuth p = false ∧ authMust b path p = false ∧ x = askerOf back p false ∧ b1 = b) ∨
   (pktAuth p = true ∧ pktTagOk b p = true ∧ replayLook b (pktSource p) (pktSlot p) (pktNonce p) = .fresh ∧ x = askerOf back p true ∧
    b1 = replayRaise b (pktSource p) (pktSlot p) (pktNonce p)))

/-! ### Domains (R10, R28) -/

/-- The power domain whose hardware a command's effect belongs to; none for register accesses, which name their own by address, for
AON, for firmware, and for what lies outside the device. -/
def homeDomain (i : Instr) : Option Nat :=
  match i with
  | .fabGuard _ => some 1
  | .patrolScrub _ _ _ => some 1
  | .atlasWriteLand _ => some 1
  | .tbSet _ _ => some 2
  | .tbStep _ _ => some 2
  | .acceptJump _ => some 2
  | .tbClrCounts _ => some 2
  | .tbOffsetSample _ _ _ => some 2
  | .ppsCapture _ => some 2
  | .clk10mCapture _ => some 2
  | .tbSampleTimeout _ => some 2
  | .synceRefLoss _ => some 3
  | .synceRefRestore _ => some 3
  | .tsqPop _ _ => some 3
  | .meridianRowStart _ _ => some 2
  | .meridianFrameBoundary _ => some 2
  | .fsyncEdge _ _ => some 2
  | .lsyncEdge _ _ => some 2
  | .ltcSyncWord _ _ => some 2
  | .wclkEdge _ => some 2
  | .mainsZcEdge _ _ => some 2
  | .edgeMiss _ => some 2
  | .slewComplete _ => some 2
  | .bearingSend _ => some 2
  | .meridianCommit _ => some 2
  | .meridianDiscard _ => some 2
  | .modelLoad _ _ => some 2
  | .modelFlush _ => some 2
  | .merClrCounts _ => some 2
  | .remoteModelApply _ => some 2
  | .bearingTimeout _ => some 2
  | .waypointFire _ _ => some 2
  | .wptWrite => some 2
  | .wptRead => some 2
  | .wptCancel => some 2
  | .wptClearAll => some 2
  | .waypointArmed _ => some 2
  | .evtPinEdge _ => some 2
  | .evtOutPulseEnd _ => some 2
  | .ppsOutEdge _ => some 2
  | .evtPassEdge _ => some 2
  | .evtInCapture _ _ _ => some 2
  | .evtInPop _ _ => some 2
  | .st2110Packet _ _ => some 3
  | .mergeWaitExpiry => some 4
  | .pathLoss _ => some 4
  | .sheetStreamPacket _ _ => some 3
  | .canvasAutoCommit _ => some 4
  | .cnvNext _ => some 4
  | .canvasApply => some 4
  | .cnvClrCounts => some 4
  | .hostGo => some 4
  | .hostFetchStart => some 4
  | .hostFetchDone _ _ _ _ => some 4
  | .flipLatch => some 4
  | .streamLoss => some 4
  | .regionBandSend _ _ => some 4
  | .batchActivate => some 5
  | .nodeDispatch _ _ _ => some 5
  | .nodeRetire _ _ _ => some 5
  | .batchDeadline _ => some 5
  | .stitchHalt => some 5
  | .flowCancel _ => some 5
  | .stcCue _ => some 5
  | .paramWrite _ _ => some 5
  | .delayFlush _ _ => some 5
  | .programLoad => some 5
  | .programCheckDone => some 5
  | .discardStaged => some 5
  | .stcClrCounts => some 5
  | .emitRingSpace _ => some 5
  | .delayExpire _ => some 5
  | .traceStop => some 5
  | .traceStallRelease => some 5
  | .traceClear => some 1
  | .lineMove n _ _ => some (strDom n)
  | .lineDeadline n _ _ => some (strDom n)
  | .frameLaunch n => some (strDom n)
  | .latchLaunch n => some (strDom n)
  | .strandFrameRx n _ _ => some (strDom n)
  | .replyTimeout n => some (strDom n)
  | .surveyStart n => some (strDom n)
  | .surveyAbort n => some (strDom n)
  | .ctlGo n => some (strDom n)
  | .parkStart n => some (strDom n)
  | .strClrCounts n => some (strDom n)
  | .rateTxSwitch n => some (strDom n)
  | .ringBreak n => some (strDom n)
  | .ringHeal n => some (strDom n)
  | .pairRingBreak _ => some 1
  | .readbackCheck n _ => some (strDom n)
  | .dmxPacketEnd n => some (strDom n)
  | .dmxKeepalive n => some (strDom n)
  | .dmxLateStart n => some (strDom n)
  | .rdmRequestStart n => some (strDom n)
  | .rdmWaitExpiry n => some (strDom n)
  | .rdmRequestEnd n => some (strDom n)
  | .rdmResponseRx n _ _ _ => some (strDom n)
  | .rdmResponseTimeout n => some (strDom n)
  | .daliForwardStart n => some (strDom n)
  | .daliAnswerTimeout n => some (strDom n)
  | .daliBackwardRx n _ _ _ => some (strDom n)
  | .daliCollision n _ => some (strDom n)
  | .daliFrameHeard n _ _ => some (strDom n)
  | .daliBusDown n _ => some (strDom n)
  | .daliBusIdle n _ => some (strDom n)
  | .e131RxPacket _ _ => some 3
  | .e131SyncRx _ _ => some 3
  | .e131SyncTimeout _ => some 3
  | .e131LossTimeout _ => some 3
  | .e131ClrCounts => some 3
  | .drvDiagSample _ _ _ _ => some 8
  | .drvOvercurrentCycle _ _ _ => some 8
  | .drvSenseFault _ => some 8
  | .sensorAutoStart _ _ => some 8
  | .ainConversionDone _ _ => some 8
  | .snsTransactionDone _ _ => some 8
  | .sensorStale _ => some 8
  | .derateSlewStep _ => some 8
  | .drvRetryExpiry _ => some 8
  | .drvFaultClr _ => some 8
  | .drvReclaim => some 8
  | .drvClrCounts _ => some 8
  | .drvHoldExpiry => some 8
  | .trunkFrameRx _ _ _ _ _ => some 3
  | .trunkFrameTx _ _ _ _ _ => some 3
  | .trunkModeChange _ _ => some 3
  | .fdbAgeExpiry _ _ => some 3
  | .tblWrite _ => some 3
  | .tblRead _ => some 3
  | .tblDelete _ => some 3
  | .fdbFlush => some 3
  | .trkClrCounts _ => some 3
  | .rxRingDelivery _ _ _ _ => some 3
  | .rxCoalTimeout _ => some 3
  | .txDescriptorFetch _ _ _ _ => some 3
  | .txFrameDone _ => some 3
  | .ringBeaconTimer _ => some 3
  | .ringFrameRx _ _ => some 3
  | .ringBeaconLoss _ => some 3
  | .pairHeartbeatToggle => some 1
  | .pairAliveInEdge => some 1
  | .pairAliveLoss => some 1
  | .pairBeaconTimer => some 1
  | .pairBeaconRx => some 1
  | .pairClaimTimeout => some 1
  | .pairRevertHoldExpiry => some 1
  | .pairWkrHeard _ => some 1
  | .wkrTimeout _ => some 1
  | .resetPartner => some 1
  | .pairClrCounts => some 1
  | .mbxPost _ _ _ _ => some 1
  | .mbxAck _ _ _ => some 1
  | .pairLinkTxDone _ => some 1
  | .doorbellRaise _ => some 1
  | .lockAcquire _ _ => some 1
  | .lockRelease _ _ _ => some 1
  | .lockBreak _ _ => some 1
  | .dmaGo _ => some 1
  | .dmaRefetch _ _ _ => some 1
  | .dmaEnClear _ _ => some 1
  | .dmaChReset _ _ => some 1
  | .dmaResetDone _ => some 1
  | .dmaClrCounts => some 1
  | .dmaDescFetched _ _ _ => some 1
  | .dmaTransferDone _ _ _ => some 1
  | .dmaWritebackDone _ _ _ => some 1
  | .dmaError _ _ _ _ _ _ _ => some 1
  | .dmaHostReadTimeout _ _ _ _ _ => some 1
  | .skeinPush _ _ _ _ => some 1
  | .skeinPop _ _ _ => some 1
  | .skeinRefillDone _ _ _ => some 1
  | .skeinQuotaWrite _ _ => some 1
  | .skeinModeWrite _ => some 1
  | .sknClrCounts => some 1
  | .crcEnd _ => some 1
  | .crcInit _ => some 1
  | .crcClrCounts => some 1
  | .resetFrameCheck => some 3
  | .fwuCopy _ => some 1
  | .fwuCopyDone => some 1
  | .fwuSwitch _ => some 1
  | .fwuConfirm _ => some 1
  | .fwuReturn _ => some 1
  | .fwuRevert _ => some 1
  | .fwuCommit _ => some 1
  | .handoverTimeout => some 1
  | .probationExpired => some 1
  | .lcCmd _ => some 1
  | .rollbackSet _ => some 1
  | .otpRevoke _ => some 1
  | .tokenCheck => some 1
  | .tokenCheckDone => some 1
  | .keyWrite _ => some 1
  | .keyErase _ => some 1
  | .recoveryGo _ => some 1
  | .logSnap => some 1
  | .swatchAutoStart _ => some 1
  | .swatchRunDone _ _ _ => some 1
  | .drvOffsetEstimate _ _ => some 1
  | .drvForcedInterrupt _ => some 1
  | .drvInterruptEnd _ _ => some 1
  | .trunkEyeRefresh _ _ _ => some 1
  | .calClrCounts => some 1
  | .strandRxLosRelease (.port n) => some (strDom n)
  | .synceDpllLock _ => some 3
  | _ => none

/-- The error response that an access makes in a domain that is off (R10); none for a command that is not an access. -/
def deniedAnswer (i : Instr) : Option Output :=
  match i with
  | .tsqPop p who => some (.readDone who (Reg.TRK_Pp_TSQ_Wx p 3) 0#32 true)
  | .evtInPop j who => some (.readDone who (Reg.EVT_INj_Fx j 5) 0#32 true)
  | .mbxPost m who _ _ => some (.writeDone who (Reg.MBX_m_TAG m) true)
  | .mbxAck m who _ => some (.writeDone who (Reg.MBX_m_ACK m) true)
  | .lockAcquire n who => some (.readDone who (Reg.MBX_LOCK_n n) 0#32 true)
  | .skeinPush q hostWin who _ => some (.writeDone who (sknPushReg hostWin q 3) true)
  | .skeinPop q hostWin who => some (.readDone who (sknPopReg hostWin q 0) 0#32 true)
  | _ => none

/-- The requester whose access a command is, where its hardware lies in a domain that can be off. -/
def accessBy (i : Instr) : Option Requester :=
  match i with
  | .tbSet _ who => some who
  | .tbStep _ who => some who
  | .tbOffsetSample _ who _ => some who
  | .tsqPop _ who => some who
  | .evtInPop _ who => some who
  | .mbxPost _ who _ _ => some who
  | .mbxAck _ who _ => some who
  | .lockAcquire _ who => some who
  | .lockRelease _ who _ => some who
  | .lockBreak who _ => some who
  | .skeinPush _ _ who _ => some who
  | .skeinPop _ _ who => some who
  | _ => none

/-- A locked debug port would make the access (R405). -/
def lockedOut (i : Instr) (b : Blk) : Bool := (accessBy i).any (shutOut b)

/-! ### Stores -/

/-- The command can store to memory: by its own effect, or by what firmware does with it. -/
def canStore (i : Instr) : Bool :=
  match i with
  | .registerWrite _ _ _ _ => true
  | .memoryWipeDone _ => true
  | .atlasWriteLand _ => true
  | .meridianRowStart _ _ => true
  | .waypointFire _ _ => true
  | .st2110Packet _ _ => true
  | .sheetStreamPacket _ _ => true
  | .hostFetchDone _ _ _ _ => true
  | .nodeRetire _ _ _ => true
  | .emitRingSpace _ => true
  | .traceStop => true
  | .traceStallRelease => true
  | .strandFrameRx _ _ _ => true
  | .replyTimeout _ => true
  | .dmxPacketEnd _ => true
  | .dmxLateStart _ => true
  | .rdmRequestEnd _ => true
  | .rdmResponseRx _ _ _ _ => true
  | .rdmResponseTimeout _ => true
  | .daliForwardStart _ => true
  | .daliAnswerTimeout _ => true
  | .daliBackwardRx _ _ _ _ => true
  | .daliCollision _ _ => true
  | .daliFrameHeard _ _ _ => true
  | .daliBusDown _ _ => true
  | .daliBusIdle _ _ => true
  | .e131RxPacket _ _ => true
  | .e131SyncRx _ _ => true
  | .rxRingDelivery _ _ _ _ => true
  | .txFrameDone _ => true
  | .commandPacket _ => true
  | .relayTimeout _ _ => true
  | .commandReplyRx => true
  | .identify _ => true
  | .getStatus _ => true
  | .getCaps _ => true
  | .setRole _ => true
  | .reset _ => true
  | .domainPower _ => true
  | .enterDormant _ => true
  | .lifecycleAdvance _ => true
  | .readReg _ => true
  | .writeReg _ => true
  | .tbConfig _ => true
  | .tbServoSet _ => true
  | .tbOffsetFeed _ => true
  | .tbAcceptJump _ => true
  | .tbDomainSwitch _ => true
  | .meridianSetMode _ => true
  | .meridianStatus _ => true
  | .waypointProgram _ => true
  | .waypointCancel _ => true
  | .canvasConfig _ => true
  | .canvasSubscribe _ => true
  | .canvasFlipPolicy _ => true
  | .canvasBackground _ => true
  | .regionEmit _ => true
  | .stitchLoadProgram _ => true
  | .stitchStart _ => true
  | .stitchStop _ => true
  | .stitchSetParam _ => true
  | .stitchCue _ => true
  | .stitchTrace _ => true
  | .atlasWrite _ => true
  | .atlasCommit _ => true
  | .calWrite _ => true
  | .contourWrite _ => true
  | .motifSet _ => true
  | .motifStart _ => true
  | .strandConfig _ => true
  | .strandSurvey _ => true
  | .strandAssign _ => true
  | .strandRate _ => true
  | .strandQuery _ => true
  | .strandPark _ => true
  | .dmxConfig _ => true
  | .rdmTransact _ => true
  | .daliConfig _ => true
  | .daliTransact _ => true
  | .driveConfig _ => true
  | .driveSet _ => true
  | .driveDiag _ => true
  | .driveThermalTable _ => true
  | .trunkPortConfig _ => true
  | .switchTableWrite _ => true
  | .e131Config _ => true
  | .wakePatternSet _ => true
  | .pairConfig _ => true
  | .pairStatus _ => true
  | .pairForce _ => true
  | .fwBegin _ => true
  | .fwChunk _ => true
  | .fwVerify _ _ => true
  | .fwHandover _ => true
  | .fwCommit _ => true
  | .fwRevert _ => true
  | .settingsSave _ => true
  | .lifelogRead _ => true
  | .countersRead _ => true
  | .swatchRun _ => true
  | .gaugeRead _ => true
  | .readbackStatus _ => true
  | .relay _ => true
  | .rollCall _ => true
  | .hierStatus _ => true
  | .qspiWriteDrain => true
  | .pcieBarAccess _ _ _ _ => true
  | .dmaEnClear _ _ => true
  | .dmaChReset _ _ => true
  | .dmaDescFetched _ _ _ => true
  | .dmaTransferDone _ _ _ => true
  | .dmaWritebackDone _ _ _ => true
  | .dmaError _ _ _ _ _ _ _ => true
  | .dmaHostReadTimeout _ _ _ _ _ => true
  | .skeinPush _ _ _ _ => true
  | .skeinRefillDone _ _ _ => true
  | .castOnS1Done => true
  | .castOnS4Done => true
  | .romBoot _ _ => true
  | .configured _ => true
  | .fwuCopyDone => true
  | .probationExpired => true
  | .keyWrite _ => true
  | .keyErase _ => true
  | .recoveryDone _ => true
  | .recEnd => true
  | .recRestart => true
  | .logFlushDue => true
  | .rollCallWindowExpiry => true
  | _ => false

end Sys2Proof.Machine
end

