-- ==== Sys2Proof/Certificates/Slice0/Obligations.lean ====
section
/-!
DEFINITION. The statements about the model: what each command does, what none of them does, and what every step keeps.
-/
section
open Sys2Proof Sys2Proof.Machine

/-- One step is `exec` of the command in front, on the state with the rest of the queue; on an empty queue it is one fabric clock
(log entry 4, DESIGN CHOICE). -/
def Obligations.StepRunsFront : Prop :=
  (∀ (c : Instr) (cs : List Instr) (s : State), step { s with pending := c :: cs } = exec c { s with pending := cs }) ∧
  (∀ s : State, s.pending = [] →
    step s = .next { s with blk := (fabTick s.mem s.blk).1, mem := Mem.write s.mem (fabTick s.mem s.blk).2 })

/-- What holds right after reset (the invariant of `MemoryFormKept` among it). -/
def Obligations.ResetHoldsForm : Prop :=
  State.reset.wf = true ∧ State.reset.safe = true ∧ State.reset.mem = [] ∧ State.reset.pending = [] ∧ State.reset.blk.out = [] ∧
  State.reset.blk.staged = [] ∧ State.reset.blk.latches = [] ∧ State.reset.blk.keys = []

/-- Reset values that the register tables give. -/
def Obligations.ResetRegisters : Prop :=
  let rd (a : Nat) : Word := State.reset.blk.rd a
  (∀ n : Fin 4, rd (Reg.TBn_FREQ_LIMIT n) = 0x030D4000#32 ∧ rd (Reg.TBn_KP_ACQ n) = 0x0000B333#32 ∧ rd (Reg.TBn_KI_LOCK n) = 0x148#32 ∧
    rd (Reg.TBn_JUMP_LIMIT n) = 1000#32 ∧ rd (Reg.TBn_LOCK_THRESH n) = 100#32 ∧ rd (Reg.TBn_LOCK_COUNT n) = 8#32 ∧
    rd (Reg.TBn_SAMPLE_TIMEOUT n) = 1000#32) ∧
  (∀ m : Fin 2, rd (Reg.MERm_KP_ACQ m) = 0x8000#32 ∧ rd (Reg.MERm_FREQ_LIMIT m) = 0xC3500#32 ∧ rd (Reg.MERm_LOCK_COUNT m) = 16#32 ∧
    rd (Reg.MERm_MISS_LIMIT m) = 4#32 ∧ rd (Reg.MERm_STEP_LIMIT m) = 10#32 ∧ rd (Reg.MERm_SLEW_RATE m) = 1000#32 ∧
    rd (Reg.MERm_BEARING_TIMEOUT m) = 500#32) ∧
  rd Reg.CNV_CTRL = 0x20#32 ∧ rd Reg.CNV_LOSS_FRAMES = 4#32 ∧ rd Reg.CNV_BG = 0x20080040#32 ∧ rd Reg.CNV_MERGE_WAIT = 1000#32 ∧
  rd Reg.STC_LANE_EN = 0xFF#32 ∧ rd Reg.STC_ROW_SLACK_MIN = 0xFFFFFFFF#32 ∧ rd Reg.TRC_POST_COUNT = 0x1000#32 ∧
  (∀ n : Fin 32, rd (Reg.STR_n_RATE n) = 0x300#32 ∧ rd (Reg.STR_n_LIMIT_B n) = 0xFFFFFFFF#32 ∧ rd (Reg.STR_n_PARK_LIMIT n) = 1080#32 ∧
    rd (Reg.STR_n_REFRESH n) = 16#32) ∧
  rd Reg.E131_SYNC_TIMEOUT = 2500#32 ∧ rd Reg.E131_LOSS_TIMEOUT = 2500#32 ∧
  (∀ c : Fin 16, rd (Reg.DRV_c_FSW c) = 500#32 ∧ rd (Reg.DRV_c_RETRY c) = 1000#32 ∧ rd (Reg.DRV_c_DFAULT c) = 0x4000#32 ∧
    rd (Reg.DRV_c_DERATE c) = 0x80008000#32) ∧
  rd Reg.TRK_AGE_TIME = 300#32 ∧ (∀ p : Fin 4, rd (Reg.TRK_Pp_MAX_LEN p) = 9216#32) ∧ (∀ p : Fin 5, rd (Reg.TRK_Pp_PCP_MAP p) = 0x76543210#32) ∧
  rd Reg.PAIR_PEER_AGE = 0xFFFFFFFF#32 ∧ rd Reg.PAIR_WEIGHT0 = 0x40208080#32 ∧
  rd Reg.SKN_CELLS = 65536#32 ∧ (∀ q : Fin 256, rd (Reg.SKN_Qn_QUOTA q) = 8#32 ∧ rd (Reg.SKN_Qn_FLAGS q) = 2#32) ∧
  (∀ n : Fin 8, rd (Reg.CRC_n_POLY_LO n) = 0x04C11DB7#32 ∧ rd (Reg.CRC_n_INIT_LO n) = 0xFFFFFFFF#32 ∧ rd (Reg.CRC_n_COUNT n) = 1#32) ∧
  rd Reg.RST_WDTHW_CTRL = 0x7D000#32 ∧ rd Reg.PWR_STATUS = 0x3FF#32 ∧ rd Reg.PWR_DOMAIN = 0x3FF#32 ∧
  rd Reg.FWU_HO_TIMEOUT = 4000#32 ∧ rd Reg.LOG_CTRL = 1#32 ∧ rd Reg.LOG_FLUSH_MIN = 60#32 ∧
  (∀ n : Fin 32, rd (Reg.CAL_STRn_AGE_MS n) = 0xFFFFFFFF#32)

/-- The queue is first in, first out: no command puts another into it or removes one. -/
def Obligations.StepTakesOne : Prop := ∀ s t : State, step s = .next t → t.pending = s.pending.tail

/-- The canonical form of the memory is an invariant of every step. -/
def Obligations.MemoryFormKept : Prop := ∀ s t : State, s.wf = true → step s = .next t → t.wf = true

/-- Nothing that can be given stops the block. -/
def Obligations.WellFormedGoes : Prop :=
  (∀ (i : Instr) (s : State), i.wellFormed = true → Goes (exec i s)) ∧
  (∀ (i : Instr) (s : State), i.wellFormed = false → ∃ name, exec i s = .fault (.illFormed name)) ∧
  (∀ s : State, s.queueOk = true → Goes (step s))

/-- Off domains and the locked debug port (R10, R28, R364, R367, R405; log entry 53). -/
def Obligations.OffDomainDoesNothing : Prop := ∀ (i : Instr) (s : State) (d : Nat),
  i.wellFormed = true → homeDomain i = some d → (domOn s.blk d = false ∨ lockedOut i s.blk = true) →
  (deniedAnswer i = none → exec i s = .next s) ∧
  (∀ o, deniedAnswer i = some o → exec i s = .next { s with blk := s.blk.emit o })

/-- Accesses to a domain that is switched off (R10). -/
def Obligations.OffRegisterAccess : Prop := ∀ (s : State) (a : BitVec 32) (d : Nat), regDomain a.toNat = some d → domOn s.blk d = false →
  (∀ who, exec (.multiwordCaptureRead who a) s = .next { s with blk := s.blk.emit (.readDone who a.toNat 0#32 true) }) ∧
  (∀ who v host, Answers (.registerWrite who a v host) s (fun t => t.mem = s.mem ∧ t.blk.regs = s.blk.regs ∧
    t.blk.latches = s.blk.latches ∧ t.blk.staged = s.blk.staged ∧
    ∃ sent, t.blk.out = s.blk.out ++ sent ++ [.writeDone who a.toNat true])) ∧
  (∀ o : BitVec 32, a.toNat = 0x40000000 + o.toNat → o.toNat % 4 = 0 → domOn s.blk 9 = true → s.blk.flag Reg.HST_STATUS 1 = true →
    let aborted (t : State) : Prop := t.blk.rdN Reg.HST_CA_COUNT = min (2 ^ 32 - 1) (s.blk.rdN Reg.HST_CA_COUNT + 1) ∧
      t.blk.rdN Reg.HST_INT_STATUS = putBits (s.blk.rdN Reg.HST_INT_STATUS) 2 2 1
    (∀ found, Answers (.pcieBarAccess false o none found) s (fun t => t.mem = s.mem ∧
      RegsKept s t [Reg.HST_CA_COUNT, Reg.HST_INT_STATUS] ∧ aborted t ∧ t.blk.latches = s.blk.latches ∧ t.blk.staged = s.blk.staged ∧
      ∃ sent, t.blk.out = s.blk.out ++ .readDone .pcie a.toNat 0#32 true :: sent)) ∧
    (∀ (v : Word) found, s.blk.flag Reg.HST_CTRL 0 = true → Answers (.pcieBarAccess false o (some v) found) s (fun t => t.mem = s.mem ∧
      RegsKept s t [Reg.HST_CA_COUNT, Reg.HST_INT_STATUS] ∧ aborted t ∧ t.blk.latches = s.blk.latches ∧ t.blk.staged = s.blk.staged ∧
      ∃ sent, t.blk.out = s.blk.out ++ .writeDone .pcie a.toNat true :: sent)))

/-- One register of each access code (R5 to R8). -/
def Obligations.AccessCodes : Prop := ∀ (s : State) (who : Requester) (v : Word) (host : List Byte), who ≠ .debug →
  let writes (a : Nat) (P : State → Prop) : Prop :=
    Answers (.registerWrite who (BitVec.ofNat 32 a) v host) s (fun t => t.mem = s.mem ∧ P t)
  let reads (a : Nat) (x : Word) : Prop :=
    exec (.multiwordCaptureRead who (BitVec.ofNat 32 a)) s = .next { s with blk := s.blk.emit (.readDone who a x false) }
  (domOn s.blk 1 = true →
    writes Reg.DBL_ENABLE (fun t => t.blk.rd Reg.DBL_ENABLE = v ∧ RegsKept s t [Reg.DBL_ENABLE]) ∧
    writes Reg.MBX_ERR_COUNT (fun t => RegsKept s t []) ∧
    writes Reg.DBL_STATUS (fun t => t.blk.rd Reg.DBL_STATUS =
      s.blk.rd Reg.DBL_STATUS &&& ~~~(v &&& ~~~BitVec.ofNat 32 (s.blk.raisedNow Reg.DBL_STATUS)) ∧ RegsKept s t [Reg.DBL_STATUS]) ∧
    writes Reg.DBL_RAISE (fun t => t.blk.rd Reg.DBL_STATUS = s.blk.rd Reg.DBL_STATUS ||| v ∧ RegsKept s t [Reg.DBL_STATUS]) ∧
    reads Reg.DBL_ENABLE (s.blk.rd Reg.DBL_ENABLE) ∧ reads (Reg.FWU_KEY_DATAx 0) 0#32) ∧
  (domOn s.blk 2 = true → writes (Reg.MERm_STAGE_LAYOUT 0) (fun t => RegsKept s t [] ∧
    (t.blk.stagedAt (Reg.MERm_STAGE_LAYOUT 0)).map (·.word) = some (v &&& 0x007FFFFF#32))) ∧
  (domOn s.blk 3 = true → writes Reg.TRK_AGE_TIME (fun t => RegsKept s t [Reg.TRK_AGE_TIME] ∧
    t.blk.rd Reg.TRK_AGE_TIME = (s.blk.rd Reg.TRK_AGE_TIME &&& 0xFFFF0000#32) ||| (v &&& 0x0000FFFF#32)))

/-- The frame of the commands that store nothing, over all of memory. -/
def Obligations.MemoryUntouched : Prop := ∀ (i : Instr) (s t : State), canStore i = false → exec i s = .next t →
  t.mem = s.mem ∧ ∀ a, Mem.byte t.mem a = Mem.byte s.mem a

/-- Every CLR_COUNTS command zeroes the counters of its block, and no other register; nothing else changes. -/
def Obligations.CountersClear : Prop := ∀ s : State,
  (∀ n : Fin 4, domOn s.blk 2 = true → Answers (.tbClrCounts n) s (fun t =>
    Cleared s t [Reg.TBn_SAMPLE_COUNT n, Reg.TBn_JUMP_COUNT n, Reg.TBn_STEP_COUNT n])) ∧
  (∀ m : Fin 2, domOn s.blk 2 = true → Answers (.merClrCounts m) s (fun t =>
    Cleared s t [Reg.MERm_EDGE_COUNT m, Reg.MERm_MISS_COUNT m, Reg.MERm_JUMP_COUNT m, Reg.MERm_BEARING_LATE_COUNT m])) ∧
  (domOn s.blk 4 = true → Answers .cnvClrCounts s (fun t =>
    Cleared s t ([Reg.CNV_COMMIT_COUNT, Reg.CNV_FLIP_COUNT, Reg.CNV_INCOMPLETE_COUNT, Reg.CNV_SKIP_COUNT, Reg.CNV_PKT_COUNT,
      Reg.CNV_PKT_DROP, Reg.CNV_MERGE_DUP, Reg.CNV_MERGE_LATE, Reg.CNV_PATH_A_ONLY, Reg.CNV_PATH_B_ONLY, Reg.CNV_RE_PKT_COUNT,
      Reg.CNV_RE_DROP] ++ (List.range 64).map Reg.CNV_REe_PKTS))) ∧
  (domOn s.blk 5 = true → Answers .stcClrCounts s (fun t =>
    let cs := [Reg.STC_BATCH_COUNT, Reg.STC_RETIRE_COUNT, Reg.STC_CANCEL_COUNT, Reg.STC_LATE_COUNT, Reg.STC_RACE_COUNT,
      Reg.STC_ECC_CANCEL_COUNT, Reg.STC_EMIT_SKIP_COUNT, Reg.STC_DELAY_OVF_COUNT, Reg.STC_DELAY_EXPIRE_COUNT, Reg.STC_CUE_BAD_COUNT,
      Reg.STC_INFLIGHT_FULL_CYCLES, Reg.STC_EMIT_WAIT_CYCLES, Reg.STC_INFLIGHT_MAX, Reg.STC_ROW_BUSY_MAX]
      ++ (List.range 8).map Reg.STC_LANEl_BUSY
    OnlyRegs s t (Reg.STC_ROW_SLACK_MIN :: cs) [] ∧ t.blk.rd Reg.STC_ROW_SLACK_MIN = 0xFFFFFFFF#32 ∧ ∀ a ∈ cs, t.blk.rd a = 0#32)) ∧
  (∀ n : Fin 32, domOn s.blk (strDom n) = true → Answers (.strClrCounts n) s (fun t =>
    Cleared s t [Reg.STR_n_FRAMES_TX n, Reg.STR_n_LINES_TX n, Reg.STR_n_UNDERRUN n, Reg.STR_n_BG_BYTES n, Reg.STR_n_LINE_SKIP n,
      Reg.STR_n_LINE_UNCHANGED n, Reg.STR_n_LATCHES n, Reg.STR_n_LATCH_LATE n, Reg.STR_n_RB_FRAMES n, Reg.STR_n_RB_MISMATCH n,
      Reg.STR_n_RX_FRAMES n, Reg.STR_n_RX_CRC_ERR n, Reg.STR_n_RX_LOS_COUNT n, Reg.STR_n_REPLY_TIMEOUT n, Reg.STR_n_RATE_CHANGES n,
      Reg.STR_n_LATE_BYTES n, Reg.STR_n_RING_SWITCH n])) ∧
  (domOn s.blk 3 = true → Answers .e131ClrCounts s (fun t => Cleared s t e131Counts)) ∧
  (∀ c : Fin 16, domOn s.blk 8 = true → Answers (.drvClrCounts (some c)) s (fun t => Cleared s t (drvCounts c))) ∧
  (domOn s.blk 8 = true → Answers (.drvClrCounts none) s (fun t => Cleared s t ((List.range 16).flatMap drvCounts))) ∧
  (∀ p : Fin 5, domOn s.blk 3 = true → Answers (.trkClrCounts (some p)) s (fun t => Cleared s t (trunkPortCounts p))) ∧
  (domOn s.blk 3 = true → Answers (.trkClrCounts none) s (fun t =>
    let cs := (List.range 5).flatMap trunkPortCounts ++ e131Counts ++ [Reg.TRK_LEARN_FULL, Reg.TRK_SYNCE_SWITCH_COUNT]
      ++ (List.range 2).flatMap (fun i => [Reg.TRK_RINGi_CHANGES i, Reg.TRK_RINGi_FLUSHES i, Reg.TRK_RINGi_LINKDOWN_RX i])
      ++ (List.range 16).flatMap (fun r => [Reg.TRK_RXr_FRAMES r, Reg.TRK_RXr_NOBUF r])
      ++ (List.range 4).flatMap (fun k => [Reg.TRK_TXt_FRAMES k, Reg.TRK_TXt_ERRORS k])
    t.mem = s.mem ∧ RegsKept s t (Reg.TRK_BUF_FREE :: Reg.TRK_BUF_MIN :: cs) ∧ (∀ a ∈ cs, t.blk.rd a = 0#32)
      ∧ t.blk.rd Reg.TRK_BUF_MIN = t.blk.rd Reg.TRK_BUF_FREE)) ∧
  (domOn s.blk 1 = true → Answers .pairClrCounts s (fun t =>
    Cleared s t [Reg.PAIR_TAKEOVERS, Reg.PAIR_YIELDS, Reg.PAIR_BEACON_TX, Reg.PAIR_BEACON_RX, Reg.PAIR_BEACON_BAD, Reg.PAIR_ALIVE_LOSS,
      Reg.PAIR_SHADOW_COMPARED, Reg.PAIR_SHADOW_MISMATCH, Reg.PAIR_SHADOW_SKIPPED, Reg.PAIR_WKR_SWITCHES])) ∧
  (domOn s.blk 1 = true → Answers .dmaClrCounts s (fun t =>
    Cleared s t ((List.range 16).flatMap (fun n =>
      [Reg.DMA_CHn_BYTES n, Reg.DMA_CHn_DESCS n, Reg.DMA_CHn_ERRORS n, Reg.DMA_CHn_TRIG_MISS n])))) ∧
  (domOn s.blk 1 = true → Answers .sknClrCounts s (fun t =>
    Cleared s t ((List.range 256).flatMap (fun n => [Reg.SKN_Qn_LOST n, Reg.SKN_Qn_UNDERFLOW n])))) ∧
  (domOn s.blk 1 = true → Answers .crcClrCounts s (fun t =>
    Cleared s t ((List.range 8).flatMap (fun n => [Reg.CRC_n_UNITS n, Reg.CRC_n_MISMATCHES n, Reg.CRC_n_BYTES n])))) ∧
  (domOn s.blk 1 = true → Answers .calClrCounts s (fun t =>
    let cs := Reg.CAL_JOB_DROP :: (List.range 32).flatMap (fun n =>
        [Reg.CAL_STRn_RUNS n, Reg.CAL_STRn_PAUSE_US n, Reg.CAL_STRn_FAILS n])
      ++ (List.range 16).flatMap (fun c => [Reg.CAL_DRVc_INTERRUPTS c, Reg.CAL_DRVc_UNSETTLED c])
    t.mem = s.mem ∧ RegsKept s t cs ∧ ∀ a ∈ cs, t.blk.rd a = 0#32))

/-- What the three commands that software gives a time base do to it (R37, R43; OFF: log entry 62). -/
def Obligations.TimeBaseJumpArm : Prop := ∀ (s : State) (n : Fin 4) (who : Requester), domFor s.blk 2 who = true →
  let counted (t : State) : Prop :=
    t.blk.rdN (Reg.TBn_STEP_COUNT n) = min (2 ^ 32 - 1) (s.blk.rdN (Reg.TBn_STEP_COUNT n) + 1) ∧
    t.blk.rdN (Reg.TBn_INT_STATUS n) = putBits (s.blk.rdN (Reg.TBn_INT_STATUS n)) 4 4 1
  Answers (.acceptJump n) s (fun t => t.blk.flag (Reg.TBn_STATUS n) 4 = true ∧ (t.blk.tb n).armClock = some s.blk.now
    ∧ (t.blk.tb n).armedBefore = tbArmed s.blk n ∧ (t.blk.tb n).time = (s.blk.tb n).time ∧ RegsKept s t [Reg.TBn_STATUS n]
    ∧ t.mem = s.mem ∧ ∀ k : Nat, k ≠ n → t.blk.tb k = s.blk.tb k) ∧
  (tbState s.blk n = 0 → exec (.tbSet n who) s = .next s ∧ exec (.tbStep n who) s = .next s) ∧
  (tbState s.blk n ≠ 0 →
    Answers (.tbSet n who) s (fun t => (t.blk.tb n).time = (s.blk.tb n).time
      ∧ (t.blk.tb n).integ = (s.blk.tb n).integ ∧ (t.blk.tb n).setClock = some s.blk.now ∧ t.mem = s.mem
      ∧ ((tbAdvance t.blk n).tb n).time = tbSetValue s.blk n who % tbModulus ∧ counted t
      ∧ (∀ k : Nat, k ≠ n → t.blk.tb k = s.blk.tb k)
      ∧ RegsKept s t [Reg.TBn_STEP_COUNT n, Reg.TBn_INT_STATUS n]) ∧
    Answers (.tbStep n who) s (fun t =>
      ((t.blk.tb n).time : Int) = ((s.blk.tb n).time + tbStepValue s.blk n who * 2 ^ 32) % (tbModulus : Int)
      ∧ (t.blk.tb n).integ = (s.blk.tb n).integ ∧ (t.blk.tb n).setClock = some s.blk.now ∧ t.mem = s.mem
      ∧ counted t ∧ (∀ k : Nat, k ≠ n → t.blk.tb k = s.blk.tb k)
      ∧ ((∀ m : Fin 2, merOn s.blk m = true → merTbSel s.blk m ≠ n) → RegsKept s t [Reg.TBn_STEP_COUNT n, Reg.TBn_INT_STATUS n])))

/-- The increment lies within half a unit of the exact product, a half going up (R35). -/
def Obligations.TimeBaseIncrement : Prop := ∀ f : Int, -(256 * 10 ^ 9) ≤ f →
  2 * (nsUnit : Int) * (256 * 10 ^ 9 + f) < 2 * (256 * 10 ^ 9) * (tbIncrement f : Int) + 256 * 10 ^ 9 ∧
  2 * (256 * 10 ^ 9) * (tbIncrement f : Int) ≤ 2 * (nsUnit : Int) * (256 * 10 ^ 9 + f) + 256 * 10 ^ 9

/-- The four commands of WPT_CMD and WPT_CTRL on the table (R80, R84, Table 3-16). -/
def Obligations.WaypointTable : Prop := ∀ s : State, domOn s.blk 2 = true →
  let i := s.blk.fld Reg.WPT_INDEX 9 0
  let w : Waypoint := {
    w0 := s.blk.rdN (Reg.WPT_ENTRYx 0), w1 := s.blk.rdN (Reg.WPT_ENTRYx 1),
    w2 := s.blk.rdN (Reg.WPT_ENTRYx 2) % 2 ^ 27, w3 := s.blk.rdN (Reg.WPT_ENTRYx 3) }
  Answers .wptWrite s (fun t => t.mem = s.mem ∧ t.blk.flag Reg.WPT_STATUS 16 = true ∧
    t.blk.wpt i = (if s.blk.flag (Reg.WPT_ENTRYx 2) 24 then some w else none) ∧ (∀ j, j ≠ i → t.blk.wpt j = s.blk.wpt j) ∧
    t.blk.wptDue = s.blk.wptDue.filter (fun d => d.index != i) ∧ i ∈ t.blk.wptBusy ∧
    RegsKept s t [Reg.WPT_STATUS, Reg.WPT_INT_STATUS]) ∧
  Answers .wptCancel s (fun t => t.mem = s.mem ∧ t.blk.wpt i = none ∧ (∀ j, j ≠ i → t.blk.wpt j = s.blk.wpt j) ∧
    t.blk.wptDue = s.blk.wptDue.filter (fun d => d.index != i) ∧
    (∀ x, s.blk.wpt i = some x → { clock := s.blk.now, index := i, entry := x } ∈ t.blk.wptGone) ∧
    RegsKept s t [Reg.WPT_STATUS]) ∧
  Answers .wptClearAll s (fun t => t.mem = s.mem ∧ (∀ j, t.blk.wpt j = none) ∧ t.blk.wptDue = [] ∧
    t.blk.fld Reg.WPT_STATUS 10 0 = 0 ∧ RegsKept s t [Reg.WPT_STATUS]) ∧
  Answers .wptRead s (fun t =>
    OnlyRegs s t [Reg.WPT_ENTRYx 0, Reg.WPT_ENTRYx 1, Reg.WPT_ENTRYx 2, Reg.WPT_ENTRYx 3] [] ∧
    let e := (s.blk.wpt i).getD {}
    t.blk.rd (Reg.WPT_ENTRYx 0) = BitVec.ofNat 32 e.w0 ∧ t.blk.rd (Reg.WPT_ENTRYx 1) = BitVec.ofNat 32 e.w1 ∧
    t.blk.rd (Reg.WPT_ENTRYx 2) = BitVec.ofNat 32 e.w2 ∧ t.blk.rd (Reg.WPT_ENTRYx 3) = BitVec.ofNat 32 e.w3)

/-- COMMIT and DISCARD (R78). -/
def Obligations.MeridianStaging : Prop := ∀ (s : State) (m : Fin 2), domOn s.blk 2 = true →
  (merOn s.blk m = true → Answers (.meridianCommit m) s (fun t => t.mem = s.mem ∧ t.blk.staged = s.blk.staged ∧
    t.blk.mer m = { s.blk.mer m with commits := (s.blk.mer m).commits ++ [s.blk.now] } ∧ t.blk.flag (Reg.MERm_STATUS m) 3 = true ∧
    RegsKept s t [Reg.MERm_STATUS m])) ∧
  Answers (.meridianDiscard m) s (fun t => t.mem = s.mem ∧ (t.blk.mer m).commits = [] ∧
    t.blk.flag (Reg.MERm_STATUS m) 3 = false ∧ RegsKept s t [Reg.MERm_STATUS m] ∧
    ∀ e, e ∈ t.blk.staged ↔ e ∈ s.blk.staged ∧ ¬ (Reg.MERm_STAGE_SRC m ≤ e.1 ∧ e.1 < Reg.MERm_MODEL_x m 0))

/-- A pop of the capture queue of EVT_INj (R86). -/
def Obligations.CaptureQueuePop : Prop := ∀ (s : State) (j : Fin 4) (who : Requester), domFor s.blk 2 who = true →
  let more := (s.blk.evtLosses j).elim [] (fun l => l.items)
  Answers (.evtInPop j who) s (fun t =>
    t.blk.evtInQ j = (s.blk.evtInQ j).tail ++ more.take 1 ∧ (∀ k : Nat, k ≠ j → t.blk.evtInQ k = s.blk.evtInQ k) ∧
    (∀ x r, s.blk.evtInQ j = x :: r →
      t.blk.out = s.blk.out ++ [.readDone who (Reg.EVT_INj_Fx j 5) (BitVec.ofNat 32 (x.words.getD 5 0)) false]) ∧
    (s.blk.evtInQ j = [] → t.blk.out = s.blk.out ++ [.readDone who (Reg.EVT_INj_Fx j 5) 0#32 false]) ∧
    RegsKept s t ([Reg.EVT_INj_STATUS j] ++ if more = [] then [] else [Reg.EVT_INj_LOST j, Reg.EVT_INT_STATUS]) ∧
    t.blk.fld (Reg.EVT_INj_STATUS j) 3 0 = ((s.blk.evtInQ j).tail ++ more.take 1).length % 16 ∧
    (more = [] → t.blk.rdN (Reg.EVT_INj_STATUS j) = putBits (s.blk.rdN (Reg.EVT_INj_STATUS j)) 3 0 (s.blk.evtInQ j).tail.length) ∧
    t.mem = s.mem)

/-- CNV_NEXT where it is ignored, and the latch cycle (R107, R108). -/
def Obligations.CanvasCommitIgnored : Prop := ∀ s : State, domOn s.blk 4 = true →
  let mer := cnvMer s.blk
  (∀ found, (cnvBack s.blk = 2 ∨ cnvBack s.blk = 3 ∨ s.blk.flag Reg.CNV_STATUS 7 = true) →
    Answers (.cnvNext found) s (fun t => OnlyRegs s t [Reg.CNV_INT_STATUS] [] ∧
      t.blk.rdN Reg.CNV_INT_STATUS = putBits (s.blk.rdN Reg.CNV_INT_STATUS) 4 4 1)) ∧
  ((merState s.blk mer = 0 ∨ s.blk.cnv.latchDone = true ∨ merTick s.blk mer < flipLine s.blk) → exec .flipLatch s = .next s) ∧
  (merState s.blk mer ≠ 0 → s.blk.cnv.latchDone = false → flipLine s.blk ≤ merTick s.blk mer →
    Answers .flipLatch s (fun t => t.blk.cnv = { s.blk.cnv with latchDone := true } ∧ t.mem = s.mem ∧
      (cnvBack s.blk = 2 → s.blk.cnv.commitAt < s.blk.now → cnvBack t.blk = 3 ∧ t.blk.rd Reg.CNV_FLIP_FRAME = BitVec.ofNat 32 ((merPos s.blk mer).1 + 1) ∧
        RegsKept s t [Reg.CNV_STATUS, Reg.CNV_FLIP_FRAME]) ∧
      (cnvBack s.blk ≠ 2 ∨ s.blk.now ≤ s.blk.cnv.commitAt → RegsKept s t [])))

/-- PARAM_WRITE in each mode (R133). -/
def Obligations.ParameterWrite : Prop := ∀ (s : State) (i : Fin 1024) (k : Fin 4), domOn s.blk 5 = true →
  (k = 0 → Answers (.paramWrite i k) s (fun t => RegsKept s t [Reg.STC_PARAM_i i] ∧ t.mem = s.mem ∧
    t.blk.rd (Reg.STC_PARAM_i i) = s.blk.rd Reg.STC_PARAM_DATA ∧ paramSeen t.blk i = paramSeen s.blk i ∧
    paramSeen { t.blk with now := t.blk.now + 1 } i = s.blk.rdN Reg.STC_PARAM_DATA ∧
    t.blk.stc = { s.blk.stc with params := t.blk.stc.params })) ∧
  (k ≠ 0 → Answers (.paramWrite i k) s (fun t => RegsKept s t [] ∧ t.mem = s.mem ∧
    (Tab.at none t.blk.stc.staged i).map (fun x => (x.mode, x.value, x.clock)) =
      some (min k.val 2, s.blk.rdN Reg.STC_PARAM_DATA, s.blk.now) ∧
    (∀ j : Nat, j ≠ i → Tab.at none t.blk.stc.staged j = Tab.at none s.blk.stc.staged j) ∧
    t.blk.stc = { s.blk.stc with staged := t.blk.stc.staged, params := t.blk.stc.params }))

/-- DELAY_FLUSH and DISCARD (R134, R135). -/
def Obligations.DelayFlushEmpties : Prop := ∀ (s : State) (m0 m1 : Bool), domOn s.blk 5 = true →
  Answers (.delayFlush m0 m1) s (fun t => t.mem = s.mem ∧ RegsKept s t [Reg.STC_DELAY_USED] ∧
    t.blk.rd Reg.STC_DELAY_USED = BitVec.ofNat 32 t.blk.stc.delays.length ∧
    (∀ d, d ∈ t.blk.stc.delays ↔ d ∈ s.blk.stc.delays ∧ (if d.mer = 0 then m0 = false else m1 = false)) ∧
    t.blk.stc = { s.blk.stc with delays := t.blk.stc.delays }) ∧
  Answers .discardStaged s (fun t => OnlyRegs s t [Reg.STC_PROG_STATUS] [] ∧
    t.blk.rdN Reg.STC_PROG_STATUS = putBits (s.blk.rdN Reg.STC_PROG_STATUS) 2 1 0)

/-- MIX (R151), for component values of 32 bits. -/
def Obligations.MixWeighs : Prop := ∀ (m : Mem) (b : Blk) (t : Batch) (n : PNode) (j k : Nat), n.op = 4 → k < n.width →
  let x := cmp ((Tab.at [] t.values n.a).getD j []) k
  let y := cmp ((Tab.at [] t.values n.b).getD j []) k
  x < 2 ^ 32 → y < 2 ^ 32 →
  (n.mode = 0 → ∃ w, w = (if 65536 < bits (dynWord b (n.word 0)) 16 0 then 65536 else bits (dynWord b (n.word 0)) 16 0) ∧
    (stitchEval m b t n j).getD k 0 = (x * (65536 - w) + y * w + 32768) >>> 16 ∧ (stitchEval m b t n j).getD k 0 < 2 ^ 32) ∧
  (n.mode ≠ 0 → ∃ v w, v = Mem.le m (n.word 0 + 2 * (t.first + j)) 2 ∧ w = v + v >>> 15 ∧ (v = 0xFFFF → w = 65536) ∧ (v = 0 → w = 0) ∧
    (stitchEval m b t n j).getD k 0 = (x * (65536 - w) + y * w + 32768) >>> 16 ∧ (stitchEval m b t n j).getD k 0 < 2 ^ 32)

/-- GAIN (R152); a dyn gain is the parameter in effect when bit 31 is set (R123). -/
def Obligations.GainScales : Prop := ∀ (m : Mem) (b : Blk) (t : Batch) (n : PNode) (j k : Nat), n.op = 7 → k < n.width →
  let x := cmp ((Tab.at [] t.values n.a).getD j []) k
  let w := n.word (if n.mode = 0 then 0 else k)
  let g := if bit w 31 then b.rdN (Reg.STC_PARAM_i (bits w 9 0)) else w
  (stitchEval m b t n j).getD k 0 = min ((x * g + 32768) >>> 16) (2 ^ 32 - 1) ∧
  (x < 2 ^ 32 → g = 0x00010000 → (stitchEval m b t n j).getD k 0 = x)

/-- The timers of a node and its rate switch (R196, R203, R204). -/
def Obligations.NodeTimers : Prop := ∀ (s : State) (n : Fin 32) (k : Fin 2048),
  let x := s.blk.node n k
  let others (t : State) : Prop :=
    ∀ (n' : Fin 32) (k' : Fin 2048), (n' ≠ n ∨ k' ≠ k) → t.blk.node n' k' = s.blk.node n' k'
  let fails (i : Instr) : Prop := Answers i s (fun t => t.mem = s.mem ∧ t.blk.regs = s.blk.regs ∧ others t ∧
    (t.blk.node n k).shown = x.scene ∧ (t.blk.node n k).state = 2 ∧ (t.blk.node n k).park = none ∧
    (t.blk.node n k).fails = min 65535 (x.fails + 1) ∧ ∃ light, t.blk.out = s.blk.out ++ .nodeShow n k x.scene :: light)
  ((x.state = 3 ∨ x.state = 2 ∨ s.blk.now < x.holdFrom + x.holdNs) → exec (.nodeHoldExpiry n k) s = .next s) ∧
  (x.state ≠ 3 → x.state ≠ 2 → x.holdFrom + x.holdNs ≤ s.blk.now → fails (.nodeHoldExpiry n k)) ∧
  ((x.state ≠ 3 ∨ x.park = none) → exec (.nodeParkLimitExpiry n k) s = .next s) ∧
  (∀ since minutes, x.park = some (since, minutes) →
    (s.blk.now < since + minutes * 60 * 10 ^ 9 → exec (.nodeParkLimitExpiry n k) s = .next s) ∧
    (x.state = 3 → since + minutes * 60 * 10 ^ 9 ≤ s.blk.now → fails (.nodeParkLimitExpiry n k))) ∧
  (x.rateNext = none → exec (.nodeRateSwitch n k) s = .next s) ∧
  (∀ r, x.rateNext = some r → Answers (.nodeRateSwitch n k) s (fun t => t.mem = s.mem ∧ t.blk.regs = s.blk.regs ∧
    t.blk.node n k = { x with rate := some r, rateNext := none } ∧ others t))

/-- STR_n_CTRL.PARK and the TX switch of a port (R196, R204). -/
def Obligations.StrandPark : Prop := ∀ (s : State) (n : Fin 32), domOn s.blk (strDom n) = true →
  (strSends s.blk n = false → exec (.parkStart n) s = .next s) ∧
  (strSends s.blk n = true → Gives (.parkStart n) s (s.blk.setStr n { s.blk.str n with parkLeft := 4, parkSent := 0 })) ∧
  ((s.blk.str n).rateSent = none → exec (.rateTxSwitch n) s = .next s) ∧
  (now4 s.blk + 4 ≤ (s.blk.str n).wireFree + 12 * strTsym4 s.blk n → exec (.rateTxSwitch n) s = .next s) ∧
  (∀ r, (s.blk.str n).rateSent = some r → (s.blk.str n).wireFree + 12 * strTsym4 s.blk n < now4 s.blk + 4 →
    Answers (.rateTxSwitch n) s (fun t =>
      t.mem = s.mem ∧ t.blk.fld (Reg.STR_n_STATUS n) 4 3 = r % 4 ∧ (t.blk.str n).rateSent = none ∧
      (t.blk.str n).wireFree = now4 s.blk + 4 * 8000 ∧
      t.blk.rdN (Reg.STR_n_RATE_CHANGES n) = min (2 ^ 32 - 1) (s.blk.rdN (Reg.STR_n_RATE_CHANGES n) + 1) ∧
      t.blk.flag (Reg.STR_n_INT_STATUS n) 9 = true))

/-- Timers of ports under FUNC 1 and FUNC 2 (R213, R214, R219). -/
def Obligations.AlternateWaits : Prop := ∀ (s : State) (n : Fin 32), domOn s.blk (strDom n) = true →
  ((s.blk.alt n).rdm = none → exec (.rdmWaitExpiry n) s = .next s) ∧
  (∀ q, (s.blk.alt n).rdm = some q →
    (s.blk.now < q.asked + 1000000 * (s.blk.alt n).cfg.rdmWait → exec (.rdmWaitExpiry n) s = .next s) ∧
    (q.asked + 1000000 * (s.blk.alt n).cfg.rdmWait ≤ s.blk.now → (s.blk.alt n).line ≠ .request → (s.blk.alt n).line ≠ .response →
      Answers (.rdmWaitExpiry n) s (fun t => t.mem = s.mem ∧ t.blk.regs = s.blk.regs ∧ t.blk.out = s.blk.out ∧
        t.blk.alt n = { s.blk.alt n with rdm := some { q with take := true } } ∧
        ∀ k : Nat, k ≠ n → t.blk.alt k = s.blk.alt k))) ∧
  (altRuns s.blk n 1 = false → exec (.dmxKeepalive n) s = .next s ∧ exec (.rdmRequestStart n) s = .next s) ∧
  (∀ (d : Fin 8) (rxp : Bool), domOn s.blk (strDom d) = true → (altRuns s.blk d 2 = false ∨ daliActive s.blk d rxp = false) →
    exec (.daliBusDown d rxp) s = .next s)

/-- Loss of a universe (R221). -/
def Obligations.E131Loss : Prop := ∀ (s : State) (i : Fin 1024), domOn s.blk 3 = true →
  let due := (e131U s.blk i).taken + e131LossClocks s.blk
  (s.blk.now < due → exec (.e131LossTimeout i) s = .next s) ∧
  (due ≤ s.blk.now → Answers (.e131LossTimeout i) s (fun t =>
    OnlyRegs s t [Reg.E131_RX_LOSSx (i / 32), Reg.E131_INT_STATUS] [] ∧
    t.blk.rdN (Reg.E131_RX_LOSSx (i / 32)) = putBits (s.blk.rdN (Reg.E131_RX_LOSSx (i / 32))) (i % 32) (i % 32) 1 ∧
    t.blk.rdN Reg.E131_INT_STATUS = putBits (s.blk.rdN Reg.E131_INT_STATUS) 0 0 1))

/-- The hold limit, RECLAIM without a hold, and FAULT_CLR (R246, R250, R252, R253). -/
def Obligations.DriveHoldLimit : Prop := ∀ s : State, domOn s.blk 8 = true →
  (s.blk.flag Reg.DRV_STATUS 16 = false → exec .drvHoldExpiry s = .next s ∧ exec .drvReclaim s = .next s) ∧
  (∀ e, s.blk.drv.holdEnd = some e → s.blk.now < e → exec .drvHoldExpiry s = .next s) ∧
  (s.blk.flag Reg.DRV_STATUS 16 = true → (∀ e, s.blk.drv.holdEnd = some e → e ≤ s.blk.now) →
    Answers .drvHoldExpiry s (fun t => t.mem = s.mem ∧
      (∀ c : Fin 16, drvState t.blk c = if drvState s.blk c = 2 then 0 else drvState s.blk c) ∧
      t.blk.flag Reg.DRV_STATUS 16 = false ∧ t.blk.flag Reg.DRV_STATUS 17 = true ∧ t.blk.rd Reg.DRV_HOLD_REMAIN = 0#32 ∧
      t.blk.flag Reg.DRV_INT_STATUS 1 = true)) ∧
  (∀ c : Fin 16,
    ((drvState s.blk c ≤ 2 ∨ (s.blk.chan c).faultClock = some s.blk.now) → exec (.drvFaultClr c) s = .next s) ∧
    (drvState s.blk c = 3 → (s.blk.chan c).faultClock ≠ some s.blk.now → Answers (.drvFaultClr c) s (fun t =>
      t.mem = s.mem ∧ t.blk.regs = s.blk.regs ∧
      (t.blk.chan c).restart = true ∧ (t.blk.chan c).auto = false ∧ ∀ k : Nat, k ≠ c → t.blk.chan k = s.blk.chan k)))

/-- The table commands on the multicast table, and the flush (R265, Table 10-12). -/
def Obligations.SwitchTables : Prop := ∀ (s : State) (cmd : Word), domOn s.blk 3 = true →
  let i := bits cmd.toNat 15 8
  let old := Tab.at none s.blk.trk.mct i
  let e : McEntry := {
    mac := s.blk.rdN Reg.TRK_TBL_DATA0 + 2 ^ 32 * s.blk.fld Reg.TRK_TBL_DATA1 15 0,
    vid := s.blk.fld Reg.TRK_TBL_DATA1 27 16, any := s.blk.flag Reg.TRK_TBL_DATA1 28, mask := s.blk.fld Reg.TRK_TBL_DATA2 4 0 }
  (cmd.getLsbD 4 = true → Answers (.tblWrite cmd) s (fun t => t.mem = s.mem ∧
    Tab.at none t.blk.trk.mct i = (if s.blk.flag Reg.TRK_TBL_DATA2 9 then some e else none) ∧
    (∀ j, j ≠ i → Tab.at none t.blk.trk.mct j = Tab.at none s.blk.trk.mct j) ∧ t.blk.trk.fdb = s.blk.trk.fdb ∧
    t.blk.rdN Reg.TRK_TBL_STATUS = (if old.isSome then 2 else 0) ∧ t.blk.flag Reg.TRK_INT_STATUS 7 = true ∧
    RegsKept s t [Reg.TRK_TBL_STATUS, Reg.TRK_INT_STATUS])) ∧
  (cmd.getLsbD 4 = true → Answers (.tblDelete cmd) s (fun t => t.mem = s.mem ∧
    Tab.at none t.blk.trk.mct i = none ∧ (∀ j, j ≠ i → Tab.at none t.blk.trk.mct j = Tab.at none s.blk.trk.mct j) ∧
    t.blk.rdN Reg.TRK_TBL_STATUS = (if old.isSome then 2 else 0) ∧ RegsKept s t [Reg.TRK_TBL_STATUS, Reg.TRK_INT_STATUS])) ∧
  (cmd.getLsbD 4 = true → Answers (.tblRead cmd) s (fun t => t.blk.trk = s.blk.trk ∧ t.mem = s.mem ∧
    (∀ x, old = some x → t.blk.rd Reg.TRK_TBL_DATA0 = BitVec.ofNat 32 x.mac ∧
      t.blk.rd Reg.TRK_TBL_DATA2 = BitVec.ofNat 32 (x.mask + 256 + 512) ∧ t.blk.rdN Reg.TRK_TBL_STATUS = 2) ∧
    (old = none → t.blk.rd Reg.TRK_TBL_DATA0 = 0#32 ∧ t.blk.rd Reg.TRK_TBL_DATA1 = 0#32 ∧ t.blk.rd Reg.TRK_TBL_DATA2 = 0#32 ∧
      t.blk.rdN Reg.TRK_TBL_STATUS = 0))) ∧
  Answers .fdbFlush s (fun t => t.mem = s.mem ∧ t.blk.trk.mct = s.blk.trk.mct ∧ RegsKept s t [Reg.TRK_STATUS] ∧
    ∀ k es, (k, es) ∈ t.blk.trk.fdb ↔ es ≠ [] ∧ ∃ es', (k, es') ∈ s.blk.trk.fdb ∧ es = es'.filter (fun x => x.static))

/-- PAIR_WKR_HEARD and WKR_TIMEOUT (R298). -/
def Obligations.WorkerArbiter : Prop := ∀ (s : State), domOn s.blk 1 = true →
  (∀ v : Word, let w := if v.getLsbD 16 then 1 else 0
    Answers (.pairWkrHeard v) s (fun t => t.mem = s.mem ∧ RegsKept s t [Reg.PAIR_WKR_CLAIM, Reg.PAIR_WKR_STATUS] ∧
      t.blk.fld Reg.PAIR_WKR_CLAIM (16 * w + 15) (16 * w) = bits v.toNat 15 0 ∧
      t.blk.fld Reg.PAIR_WKR_CLAIM (31 - 16 * w) (16 - 16 * w) = s.blk.fld Reg.PAIR_WKR_CLAIM (31 - 16 * w) (16 - 16 * w) ∧
      t.blk.flag Reg.PAIR_WKR_STATUS (1 + w) = true ∧
      t.blk.flag Reg.PAIR_WKR_STATUS (2 - w) = s.blk.flag Reg.PAIR_WKR_STATUS (2 - w) ∧
      Tab.at none t.blk.pair.wkr w = some s.blk.pair.frames ∧
      Tab.at none t.blk.pair.wkr (1 - w) = Tab.at none s.blk.pair.wkr (1 - w))) ∧
  (∀ srcB : Bool,
    let due (f : Nat) : Prop := f + s.blk.fld Reg.PAIR_TIMING 31 24 ≤ s.blk.pair.frames
    ((∀ f, Tab.at none s.blk.pair.wkr (b2n srcB) = some f → ¬ due f) → exec (.wkrTimeout srcB) s = .next s) ∧
    (∀ f, Tab.at none s.blk.pair.wkr (b2n srcB) = some f → due f → Answers (.wkrTimeout srcB) s (fun t =>
      t.mem = s.mem ∧ RegsKept s t [Reg.PAIR_WKR_STATUS] ∧
      t.blk.flag Reg.PAIR_WKR_STATUS (1 + b2n srcB) = false ∧ Tab.at none t.blk.pair.wkr (b2n srcB) = none ∧
      Tab.at none t.blk.pair.wkr (1 - b2n srcB) = Tab.at none s.blk.pair.wkr (1 - b2n srcB))))

/-- Posts and acknowledgements (R321, Table 12-18). -/
def Obligations.MailboxNotice : Prop := ∀ (s : State) (m : Fin 16) (who : Requester) (w : Word) (host : List Byte),
  domFor s.blk 1 who = true → m.val < 12 →
  let sender := if m.val < 4 then who = .pcie ∨ who = .qspi else if 10 ≤ m.val then who = .cc1 else who = .cc0
  let receiver := if m.val < 4 ∨ 10 ≤ m.val then who = .cc0 else if m.val < 8 then who = .pcie ∨ who = .qspi else who = .cc1
  let home := if 4 ≤ m.val ∧ m.val < 8 then 9 else 1
  let err := Reg.MBX_ERR_COUNT
  let more := min (2 ^ 32 - 1) (s.blk.rdN err + 1)
  let late (x : LatePost) : Prop := x.clock = s.blk.now ∧ x.mbx = m.val
  let done (ok : Bool) (t : State) : Prop := ∃ os, t.blk.out = s.blk.out ++ Output.writeDone who (Reg.MBX_m_TAG m) (!ok) :: os
  (sender → domOn s.blk home = true → s.blk.flag (Reg.MBX_m_STATUS m) 0 = false →
    Answers (.mbxPost m who w host) s (fun t => t.mem = s.mem ∧ done true t ∧
      RegsKept s t [Reg.MBX_m_TAG m, Reg.MBX_m_STATUS m, Reg.MBX_m_POSTS m, Reg.MBX_INT_STATUS] ∧
      t.blk.rdN (Reg.MBX_m_TAG m) = w.toNat % 65536 ∧
      t.blk.rdN (Reg.MBX_m_STATUS m) = putBits (s.blk.rdN (Reg.MBX_m_STATUS m)) 0 0 1 ∧
      t.blk.rdN (Reg.MBX_m_POSTS m) = min (2 ^ 32 - 1) (s.blk.rdN (Reg.MBX_m_POSTS m) + 1) ∧
      t.blk.rdN Reg.MBX_INT_STATUS = putBits (s.blk.rdN Reg.MBX_INT_STATUS) m m 1)) ∧
  (sender → domOn s.blk home = true → s.blk.flag (Reg.MBX_m_STATUS m) 0 = true →
    Answers (.mbxPost m who w host) s (fun t => t.mem = s.mem ∧ done true t ∧ RegsKept s t [Reg.MBX_m_STATUS m, err] ∧
      t.blk.rdN (Reg.MBX_m_STATUS m) = putBits (s.blk.rdN (Reg.MBX_m_STATUS m)) 2 2 1 ∧ t.blk.rdN err = more)) ∧
  (sender → domOn s.blk home = false → Answers (.mbxPost m who w host) s (fun t => t.mem = s.mem ∧ done false t ∧ RegsKept s t [])) ∧
  (¬ sender → Answers (.mbxPost m who w host) s (fun t =>
    t.mem = s.mem ∧ done false t ∧ RegsKept s t [err] ∧ t.blk.rdN err = more)) ∧
  (receiver → s.blk.flag (Reg.MBX_m_STATUS m) 0 = true → (∀ x ∈ s.blk.mbxLate, ¬ late x) → Answers (.mbxAck m who w) s (fun t =>
    OnlyRegs s t [Reg.MBX_m_STATUS m, Reg.MBX_m_RCODE m, Reg.MBX_INT_STATUS] [.writeDone who (Reg.MBX_m_ACK m) false] ∧
      t.blk.rdN (Reg.MBX_m_STATUS m) = putBits (s.blk.rdN (Reg.MBX_m_STATUS m)) 1 0 2 ∧
      t.blk.rdN (Reg.MBX_m_RCODE m) = w.toNat % 65536 ∧
      t.blk.rdN Reg.MBX_INT_STATUS = putBits (s.blk.rdN Reg.MBX_INT_STATUS) (16 + m) (16 + m) 1)) ∧
  (∀ x, receiver → s.blk.flag (Reg.MBX_m_STATUS m) 0 = true → s.blk.mbxLate.find? (fun y => decide (late y)) = some x →
    Answers (.mbxAck m who w) s (fun t => t.mem = s.mem ∧
      RegsKept s t [Reg.MBX_m_STATUS m, Reg.MBX_m_RCODE m, Reg.MBX_m_TAG m, Reg.MBX_m_POSTS m, Reg.MBX_INT_STATUS, err] ∧
      t.blk.flag (Reg.MBX_m_STATUS m) 0 = true ∧
      t.blk.flag (Reg.MBX_m_STATUS m) 2
        = (if ∃ y ∈ s.blk.mbxLate.erase x, late y then s.blk.flag (Reg.MBX_m_STATUS m) 2 else x.was) ∧
      t.blk.rdN (Reg.MBX_m_TAG m) = x.tag % 65536 ∧ t.blk.rdN (Reg.MBX_m_RCODE m) = w.toNat % 65536 ∧
      t.blk.rdN err = (if s.blk.rdN err + 1 = 2 ^ 32 ∧ 2 ^ 32 ≤ x.errs + s.blk.mbxLate.length then s.blk.rdN err
        else s.blk.rdN err - 1))) ∧
  (receiver → s.blk.flag (Reg.MBX_m_STATUS m) 0 = false → Answers (.mbxAck m who w) s (fun t =>
    OnlyRegs s t [] [.writeDone who (Reg.MBX_m_ACK m) false])) ∧
  (¬ receiver → Answers (.mbxAck m who w) s (fun t =>
    OnlyRegs s t [err] [.writeDone who (Reg.MBX_m_ACK m) true] ∧ t.blk.rdN err = more))

/-- Locks and doorbells (R323, R324). -/
def Obligations.LocksAndDoorbells : Prop := ∀ (s : State) (n : Fin 32) (who : Requester) (w : Word), domFor s.blk 1 who = true →
  let lock := Reg.MBX_LOCK_n n
  let owner := s.blk.fld lock 2 0
  let noted (t : State) : State := { s with blk := { s.blk with lockWon := t.blk.lockWon } }
  let after (x : LockWin) : Prop := x.clock = s.blk.now ∧ x.lock = n.val ∧ x.owner = owner ∧ ownerId who < owner
  (owner = 0 → Answers (.lockAcquire n who) s (fun t =>
    OnlyRegs (noted t) t [lock] [.readDone who lock 0#32 false] ∧ t.blk.rdN lock = ownerId who)) ∧
  (owner ≠ 0 → (∀ x ∈ s.blk.lockWon, ¬ after x) →
    Answers (.lockAcquire n who) s (fun t => OnlyRegs s t [] [.readDone who lock (BitVec.ofNat 32 owner) false])) ∧
  (∀ x, owner ≠ 0 → s.blk.lockWon.find? (fun y => decide (after y)) = some x → Answers (.lockAcquire n who) s (fun t =>
    t.mem = s.mem ∧ RegsKept s t [lock] ∧ t.blk.rdN lock = ownerId who ∧
    t.blk.out = s.blk.out.take x.before ++ (s.blk.out.drop x.before).map (lockTell n (ownerId who)) ++ [.readDone who lock 0#32 false])) ∧
  (owner = ownerId who → w = 0#32 → Answers (.lockRelease n who w) s (fun t => OnlyRegs s t [lock] [] ∧ t.blk.rd lock = 0#32)) ∧
  (owner ≠ ownerId who → Answers (.lockRelease n who w) s (fun t => OnlyRegs s t [Reg.MBX_LOCK_VIOL] [] ∧
    t.blk.rdN Reg.MBX_LOCK_VIOL = min (2 ^ 32 - 1) (s.blk.rdN Reg.MBX_LOCK_VIOL + 1))) ∧
  Answers (.lockBreak .cc0 w) s (fun t =>
    OnlyRegs s t [Reg.MBX_LOCK_n (w.toNat % 32)] [] ∧ t.blk.rd (Reg.MBX_LOCK_n (w.toNat % 32)) = 0#32) ∧
  (who ≠ .cc0 → exec (.lockBreak who w) s = .next s) ∧
  Answers (.doorbellRaise w) s (fun t => OnlyRegs s t [Reg.DBL_STATUS] [] ∧ t.blk.rd Reg.DBL_STATUS = s.blk.rd Reg.DBL_STATUS ||| w)

/-- GO (R335, R342). -/
def Obligations.DmaGo : Prop := ∀ (s : State) (n : Fin 16), domOn s.blk 1 = true →
  let st := Reg.DMA_CHn_STATUS n
  (dmaOwned s.blk n = true → exec (.dmaGo n) s = .next s) ∧
  (s.blk.fld st 2 0 ≠ 1 → s.blk.fld st 2 0 ≠ 6 → exec (.dmaGo n) s = .next s) ∧
  (dmaOwned s.blk n = false → s.blk.fld st 2 0 = 1 ∨ s.blk.fld st 2 0 = 6 → Answers (.dmaGo n) s (fun t =>
    OnlyRegs { s with blk := { s.blk with dma := t.blk.dma } } t [st] [] ∧ (∀ k : Nat, k ≠ n → dmaChan t.blk k = dmaChan s.blk k) ∧
    t.blk.fld st 2 0 = 2 ∧ t.blk.fld st 15 8 = 0 ∧ t.blk.flag st 6 = false))

/-- Pushes and pops (R345, R348). -/
def Obligations.SkeinFifo : Prop := ∀ (s : State) (q : Fin 256) (hostWin : Bool) (who : Requester) (v : Word), domFor s.blk 1 who = true →
  let old := sknQ s.blk q
  let quota := s.blk.rdN (Reg.SKN_Qn_QUOTA q)
  let lost := Reg.SKN_Qn_LOST q
  let held (x : Nat) : Nat := (s.blk.latch who (sknPushReg hostWin q x)).toNat
  let entry := held 0 + 2 ^ 32 * held 1 + 2 ^ 64 * held 2 + 2 ^ 96 * v.toNat
  let others (t : State) : Prop := t.mem = s.mem ∧ ∀ k : Nat, k ≠ q → sknQ t.blk k = sknQ s.blk k
  let reads (t : State) (e : Nat) : Prop :=
    t.blk.out = s.blk.out ++ [.readDone who (sknPopReg hostWin q 0) (BitVec.ofNat 32 e) false] ∧
    ∀ x : Fin 4, t.blk.latch who (sknPopReg hostWin q 0 + 4 * x) = BitVec.ofNat 32 (e / 2 ^ (32 * x.val))
  let all := (if old.level < quota then old.entries else old.entries.tail) ++ [entry]
  let count (t : State) : Prop := if old.level < quota then t.blk.rd lost = s.blk.rd lost
    else t.blk.rdN lost = min (2 ^ 32 - 1) (s.blk.rdN lost + 1) ∧ t.blk.flag Reg.SKN_INT_STATUS 1 = true
  (sknAccess s.blk q hostWin who 1 = true → sknOn s.blk q = true → old.mid = [] → old.head.length ≤ 4 →
    (∀ c w, old.quotaWas = some (c, w) → c ≠ s.blk.now) → old.level ≤ quota → 1 ≤ quota →
    (all.length < 8 ∨ sknBlock s.blk q = none →
      Answers (.skeinPush q hostWin who v) s (fun t => (sknQ t.blk q).entries = all ∧ count t ∧ others t)) ∧
    (∀ a, 8 ≤ all.length → sknBlock s.blk q = some a → Answers (.skeinPush q hostWin who v) s (fun t =>
      (sknQ t.blk q).head = all.take 4 ∧ (sknQ t.blk q).mid = [a] ∧ (sknQ t.blk q).tail = all.drop 8 ∧ count t ∧
      (∀ k : Nat, k ≠ q → sknQ t.blk k = sknQ s.blk k) ∧
      (0x10000000 ≤ a → a + 64 ≤ 0x11000000 → SramArray.pool ∉ s.blk.wiping → s.blk.fwu.protect = none →
        Mem.bytes t.mem a 64 = ((all.drop 4).take 4).flatMap (toLE 16) ∧
        ∀ x, x < a ∨ a + 64 ≤ x → Mem.byte t.mem x = Mem.byte s.mem x)))) ∧
  (sknAccess s.blk q hostWin who 2 = true →
    (∀ e es, (old.pushAt = s.blk.now → old.pushed = 0 ∧ old.gone = []) → old.head = e :: es →
      Answers (.skeinPop q hostWin who) s (fun t => reads t e ∧ (sknQ t.blk q).level + 1 = old.level ∧ others t)) ∧
    (∀ e es, old.pushAt = s.blk.now → old.gone = e :: es → Answers (.skeinPop q hostWin who) s (fun t =>
      reads t e ∧ (sknQ t.blk q).entries = old.entries ∧
      t.blk.rdN lost = (if s.blk.rdN lost = min (2 ^ 32 - 1) (old.lostWas + old.lostIn) then min (2 ^ 32 - 1) (old.lostWas + (old.lostIn - 1))
        else s.blk.rdN lost) ∧ others t)) ∧
    ((old.pushAt = s.blk.now → old.gone = []) → old.head = [] → Answers (.skeinPop q hostWin who) s (fun t =>
      reads t 0 ∧ t.blk.skn = s.blk.skn ∧
      t.blk.rdN (Reg.SKN_Qn_UNDERFLOW q) = min (2 ^ 32 - 1) (s.blk.rdN (Reg.SKN_Qn_UNDERFLOW q) + 1) ∧
      t.blk.flag Reg.SKN_INT_STATUS 3 = true ∧ RegsKept s t [Reg.SKN_Qn_UNDERFLOW q, Reg.SKN_INT_STATUS] ∧ t.mem = s.mem)))

/-- The two commands of CRC_n_CMD (R356, R357). -/
def Obligations.CheckValueUnit : Prop := ∀ (s : State) (n : Fin 8), domOn s.blk 1 = true →
  let cfg := Reg.CRC_n_CFG n
  let ini := s.blk.rd64 (Reg.CRC_n_INIT_LO n) (Reg.CRC_n_INIT_HI n) % 2 ^ crcWidth s.blk n
  let res := crcResult s.blk n (crcRunning s.blk n)
  let quiet : Prop := ∀ c v, Tab.at none s.blk.crcSet n = some (c, v) → c ≠ s.blk.now
  let same := res = s.blk.rd64 (Reg.CRC_n_EXPECT_LO n) (Reg.CRC_n_EXPECT_HI n) % 2 ^ crcWidth s.blk n
  (quiet → crcRunning s.blk n = s.blk.rd64 (Reg.CRC_n_VALUE_LO n) (Reg.CRC_n_VALUE_HI n)) ∧
  let ended := bit (s.blk.raisedNow Reg.CRC_INT_STATUS) (8 + n)
  (s.blk.fld cfg 17 16 ≠ 3 ∨ ended = true → exec (.crcEnd n) s = .next s) ∧
  (s.blk.fld cfg 17 16 = 3 → ended = false → Answers (.crcEnd n) s (fun t => t.mem = s.mem ∧
    t.blk.rd64 (Reg.CRC_n_RESULT_LO n) (Reg.CRC_n_RESULT_HI n) = res ∧
    t.blk.rdN (Reg.CRC_n_UNITS n) = min (2 ^ 32 - 1) (s.blk.rdN (Reg.CRC_n_UNITS n) + 1) ∧
    t.blk.flag Reg.CRC_INT_STATUS (8 + n) = true ∧
    (s.blk.flag cfg 10 = true → t.blk.flag (Reg.CRC_n_STATUS n) 1 = true ∧ (t.blk.flag (Reg.CRC_n_STATUS n) 0 = true ↔ same)) ∧
    (s.blk.flag cfg 10 = true → ¬ same → t.blk.flag Reg.CRC_INT_STATUS n = true ∧
      t.blk.rdN (Reg.CRC_n_MISMATCHES n) = min (2 ^ 32 - 1) (s.blk.rdN (Reg.CRC_n_MISMATCHES n) + 1)) ∧
    (s.blk.flag cfg 10 = false ∨ same → t.blk.rd (Reg.CRC_n_MISMATCHES n) = s.blk.rd (Reg.CRC_n_MISMATCHES n)) ∧
    (s.blk.flag cfg 11 = true → crcRunning t.blk n = ini ∧ (quiet → t.blk.rd64 (Reg.CRC_n_VALUE_LO n) (Reg.CRC_n_VALUE_HI n) = ini)) ∧
    (s.blk.flag cfg 11 = false → t.blk.rd (Reg.CRC_n_VALUE_LO n) = s.blk.rd (Reg.CRC_n_VALUE_LO n) ∧
      t.blk.rd (Reg.CRC_n_VALUE_HI n) = s.blk.rd (Reg.CRC_n_VALUE_HI n)) ∧
    RegsKept s t [Reg.CRC_n_RESULT_LO n, Reg.CRC_n_RESULT_HI n, Reg.CRC_n_UNITS n, Reg.CRC_INT_STATUS, Reg.CRC_n_STATUS n,
      Reg.CRC_n_MISMATCHES n, Reg.CRC_n_VALUE_LO n, Reg.CRC_n_VALUE_HI n])) ∧
  Answers (.crcInit n) s (fun t => t.mem = s.mem ∧ RegsKept s t [Reg.CRC_n_VALUE_LO n, Reg.CRC_n_VALUE_HI n] ∧
    crcRunning t.blk n = crcRunning s.blk n ∧ t.blk.rd64 (Reg.CRC_n_VALUE_LO n) (Reg.CRC_n_VALUE_HI n) = ini)

/-- Kicks of the three watchdogs (R368). -/
def Obligations.WatchdogKicks : Prop := ∀ (s : State) (who : Requester) (v : Word),
  let bad (w : Fin 3) : Prop := shutOut s.blk who = false → Answers (.wdtKick w who v) s (fun t => OnlyRegs s t [Reg.RST_WDT_BADKICK] [] ∧
    t.blk.rdN Reg.RST_WDT_BADKICK = min (2 ^ 32 - 1) (s.blk.rdN Reg.RST_WDT_BADKICK + 1))
  (shutOut s.blk who = true → ∀ w, exec (.wdtKick w who v) s = .next s) ∧
  (v ≠ 0x00007740#32 → ∀ w, bad w) ∧
  (who ≠ .cc0 → bad 0) ∧ (who ≠ .cc1 → bad 1) ∧ (who ≠ .cc0 → who ≠ .cc1 → bad 2) ∧
  (∀ c : Fin 2, who = (if c = 0 then .cc0 else .cc1) → v = 0x00007740#32 → s.blk.flag (Reg.RST_WDTc_CTRL c) 0 = true →
    (s.blk.rdN (Reg.RST_WDTc_REMAIN c) = 0 → exec (.wdtKick (c.castLE (by decide)) who v) s = .next s) ∧
    (s.blk.rdN (Reg.RST_WDTc_REMAIN c) ≠ 0 → Answers (.wdtKick (c.castLE (by decide)) who v) s (fun t =>
      OnlyRegs s t [Reg.RST_WDTc_REMAIN c] [] ∧
      t.blk.rdN (Reg.RST_WDTc_REMAIN c) = max 1 (s.blk.fld (Reg.RST_WDTc_CTRL c) 31 8)))) ∧
  ((who = .cc0 ∨ who = .cc1) → v = 0x00007740#32 → s.blk.flag Reg.RST_WDTHW_CTRL 0 = true →
    (s.blk.rdN Reg.RST_WDTHW_REMAIN = 0 → exec (.wdtKick 2 who v) s = .next s) ∧
    (s.blk.flag Reg.RST_WDTHW_CTRL 1 = true → s.blk.pwr.kicker = some who → exec (.wdtKick 2 who v) s = .next s) ∧
    (s.blk.rdN Reg.RST_WDTHW_REMAIN ≠ 0 → s.blk.flag Reg.RST_WDTHW_CTRL 1 = false ∨ s.blk.pwr.kicker ≠ some who → Answers (.wdtKick 2 who v) s (fun t =>
      t.mem = s.mem ∧ t.blk.pwr.kicker = some who ∧ RegsKept s t [Reg.RST_WDTHW_REMAIN] ∧
      t.blk.rdN Reg.RST_WDTHW_REMAIN = max 10 (s.blk.fld Reg.RST_WDTHW_CTRL 31 8))))

/-- A write of PWR_DOMAIN (R29). -/
def Obligations.DomainPowerRefused : Prop := ∀ (s : State) (v : Word),
  let w := v.toNat % 1024
  (domainsFit s.mem s.blk w = true ↔ bit w 0 = true ∧ bit w 1 = true ∧
    ((bit w 5 = true ∨ bit w 6 = true ∨ bit w 7 = true ∨ bit w 8 = true) → bit w 2 = true) ∧
    (bit w 5 = true → samplesLoaded s.mem s.blk = true → bit w 4 = true)) ∧
  (domainsFit s.mem s.blk w = false → Answers (.pwrDomainWrite v) s (fun t => OnlyRegs s t [Reg.RST_INT_STATUS] [] ∧
    t.blk.rdN Reg.RST_INT_STATUS = putBits (s.blk.rdN Reg.RST_INT_STATUS) 5 5 1)) ∧
  (domainsFit s.mem s.blk w = true → Answers (.pwrDomainWrite v) s (fun t => t.mem = s.mem ∧ t.blk.rdN Reg.PWR_DOMAIN = w ∧
    ∀ d, 2 ≤ d → d < 10 → t.blk.flag Reg.PWR_STATUS d = bit w d))

/-- The two fuse writes (R384, R385). -/
def Obligations.FusesOnlyRise : Prop := ∀ (s : State) (v : Word), domOn s.blk 1 = true →
  let target := min 64 (v.toNat % 128)
  let key := v.toNat % 4
  let good (k : Nat) : Prop := bit s.blk.otp.rootKeys k = true ∧ bit s.blk.otp.revoked k = false
  (target ≤ s.blk.otp.rollback → exec (.rollbackSet v) s = .next s) ∧
  (s.blk.otp.rollback < target → Answers (.rollbackSet v) s (fun t => t.mem = s.mem ∧ RegsKept s t [Reg.FWU_ROLLBACK] ∧
    t.blk.rdN Reg.FWU_ROLLBACK = target ∧ t.blk.otp = { s.blk.otp with rollback := target })) ∧
  (bits v.toNat 31 16 ≠ 0x7740 → exec (.otpRevoke v) s = .next s) ∧
  (bits v.toNat 31 16 = 0x7740 → (¬ ∃ k, k < 4 ∧ k ≠ key ∧ good k) → Answers (.otpRevoke v) s (fun t =>
    OnlyRegs s t [Reg.FWU_INT_STATUS] [] ∧ t.blk.rdN Reg.FWU_INT_STATUS = putBits (s.blk.rdN Reg.FWU_INT_STATUS) 6 6 1)) ∧
  (bits v.toNat 31 16 = 0x7740 → (∃ k, k < 4 ∧ k ≠ key ∧ good k) → Answers (.otpRevoke v) s (fun t =>
    t.mem = s.mem ∧ t.blk.otp = { s.blk.otp with revoked := s.blk.otp.revoked ||| 2 ^ key } ∧ RegsKept s t [Reg.FWU_OTP_KEYS]))

/-- FWU_KEY_CMD (R406). -/
def Obligations.KeyWriteRefused : Prop := ∀ (s : State) (v : Word), domOn s.blk 1 = true →
  let slot := v.toNat % 8
  let lc := s.blk.fld Reg.FWU_LC 2 0
  let has (k : Nat) : Option (BitVec 128) := Tab.at none s.blk.keys k
  (lc = 4 ∨ (lc = 2 ∧ bit v.toNat 4 = false ∧ (slot ≠ 0 ∨ (has 0).isSome = true)) → Answers (.keyWrite v) s (fun t =>
    OnlyRegs s t [Reg.FWU_KEY_STATUS] [] ∧ t.blk.rdN Reg.FWU_KEY_STATUS = putBits (s.blk.rdN Reg.FWU_KEY_STATUS) 9 9 1)) ∧
  (lc ≠ 4 → bit v.toNat 4 = false → (lc ≠ 2 ∨ (slot = 0 ∧ has 0 = none)) → Answers (.keyWrite v) s (fun t =>
    Tab.at none t.blk.keys slot = some (BitVec.ofNat 128 (s.blk.rdN (Reg.FWU_KEY_DATAx 0) + 2 ^ 32 * s.blk.rdN (Reg.FWU_KEY_DATAx 1)
      + 2 ^ 64 * s.blk.rdN (Reg.FWU_KEY_DATAx 2) + 2 ^ 96 * s.blk.rdN (Reg.FWU_KEY_DATAx 3))) ∧
    (∀ k, k ≠ slot → Tab.at none t.blk.keys k = has k) ∧ t.blk.flag Reg.FWU_KEY_STATUS 9 = false)) ∧
  Answers (.keyErase v) s (fun t => Tab.at none t.blk.keys slot = none ∧ (∀ k, k ≠ slot → Tab.at none t.blk.keys k = has k) ∧
    t.blk.flag Reg.FWU_KEY_STATUS 9 = false)

/-- Table 15-12 and the write that changes the state (R403). -/
def Obligations.LifeCycleSteps : Prop :=
  (∀ a b : Fin 8, lcStepTo a b =
    if (a.val, b.val) ∈ [(0, 1), (1, 2), (1, 4), (3, 4)] then some false
    else if (a.val, b.val) ∈ [(2, 3), (2, 4)] then some true else none) ∧
  ∀ (s : State) (v : Word), domOn s.blk 1 = true →
    (bits v.toNat 31 16 ≠ 0x7740 → exec (.lcCmd v) s = .next s) ∧
    (bits v.toNat 31 16 = 0x7740 → Answers (.lcCmd v) s (fun t => t.blk.otp.lifeCycle = min 4 (v.toNat % 8) ∧ t.blk.keys = [] ∧
      SramArray.retained ∈ t.blk.wiping ∧ t.mem = s.mem))

/-- SNAP (R409). -/
def Obligations.LifelogSnap : Prop := ∀ s : State, domOn s.blk 1 = true →
  let new (a : Nat) : Nat := if s.blk.lifeNow.1 = s.blk.now then Tab.get (fun _ => 0) s.blk.lifeNow.2 a else 0
  Answers .logSnap s (fun t => t.mem = s.mem ∧
  (∀ a ∈ lifeRegs, t.blk.rd a = BitVec.ofNat 32 (Tab.get (fun _ => 0) s.blk.life a - new a)) ∧
  (∀ a, Tab.get (fun _ => 0) t.blk.life a = new a) ∧ RegsKept s t (Reg.LOG_STATUS :: lifeRegs) ∧
  t.blk.fld Reg.LOG_STATUS 15 0 = (s.blk.fld Reg.LOG_STATUS 15 0 + 1) % 65536)

/-- A packet that nothing refuses runs its opcode (R304 to R317). -/
def Obligations.PacketRows : Prop := ∀ (s : State) (i : Instr) (c : Cmd) (via : Via) (path : Path) (back : ReplyTo) (p : List Byte)
    (b0 b1 : Blk) (cs : List Host.Cell) (x : Asker),
  (packetCmd i = some (c, via) ∨ (i = .commandPacket via ∧ findCmd (pktOpcode p) = some c)) →
  fwTasks s.blk = true → Delivers via s.mem s.blk path back p b0 cs → Clears path back p b0 x b1 →
  leAt p 1 1 = 1 → pktIsMine b1 path p = true → pktOpcode p = c.opcode →
  c.fits (pktPayload p) = true → (c.domains (pktPayload p)).all (domOn b1) = true → c.permit (pktPayload p) s.mem b1 = none →
  let r := pktDone c path x p (c.act x (pktPayload p) s.mem b1)
  exec i s = .next { s with blk := intSettle r.1, mem := Mem.write s.mem (cs ++ r.2) }

/-- Failed checks (R305, R307, R310, R311). -/
def Obligations.PacketRefused : Prop :=
  (∀ (c : Cmd) (x : Asker) (p : List Byte) (m : Mem) (b : Blk),
    (c.fits p = false → cmdRun c x p m b = { blk := b, reply := some (Status.badLength, []) }) ∧
    (c.fits p = true → (c.domains p).all (domOn b) = false → cmdRun c x p m b = { blk := b, reply := some (Status.domainOff, []) }) ∧
    (∀ r, c.fits p = true → (c.domains p).all (domOn b) = true → c.permit p m b = some r →
      cmdRun c x p m b = { blk := b, reply := some r })) ∧
  (∀ (s : State) (i : Instr) (via : Via), (i = .commandPacket via ∨ ∃ c, packetCmd i = some (c, via)) →
    (fwTasks s.blk = false → exec i s = .next s) ∧
    (∀ path back p b0 cs, fwTasks s.blk = true → Delivers via s.mem s.blk path back p b0 cs → pktReply p = false →
      let ends (r : Blk × List Host.Cell) : Prop :=
        exec i s = .next { s with blk := intSettle r.1, mem := Mem.write s.mem (cs ++ r.2) }
      let told (auth : Bool) (b : Blk) (status : Nat) : Prop := ends (reply (askerOf back p auth) status [] (b, []))
      let early (auth : Bool) (status : Nat) : Prop :=
        (path = .mailbox → told auth b0 status) ∧ (path ≠ .mailbox → ends (cmdError b0, []))
      let form := pktForm (pathLimit b0 path p) p
      let tag := pktAuth p = true ∧ pktTagOk b0 p = true
      let look := replayLook b0 (pktSource p) (pktSlot p) (pktNonce p)
      (form = false → early false Status.badLength) ∧
      (form = true → pktAuth p = false → authMust b0 path p = true → early false Status.authFail) ∧
      (form = true → pktAuth p = true → pktTagOk b0 p = false → early false Status.authFail) ∧
      (form = true → tag → look = .stale → early true Status.replayed) ∧
      (form = true → tag → look = .full → pktIsMine b0 path p = true → told true b0 Status.noResource) ∧
      (∀ x b1, Clears path back p b0 x b1 →
        (leAt p 1 1 ≠ 1 → ends (reply x Status.badOpcode [] (b1, []))) ∧
        (leAt p 1 1 = 1 → pktIsMine b1 path p = false → (pktRelay p && b1.firm.role == 1) = false → ends (cmdError b1, [])) ∧
        (leAt p 1 1 = 1 → pktIsMine b1 path p = true → i = .commandPacket via → findCmd (pktOpcode p) = none →
          ends (reply x Status.badOpcode [] (b1, []))))))

/-- Register accesses and fabric events complete: each answers the next state that its meaning gives, under conditions on the state and the operands alone. -/
def Obligations.RegisterAndFabricRows : Prop :=
  (∀ (who : Requester) (addr : BitVec 32) (value : Word) (host : List Byte) (s : State), Writes (.registerWrite who addr value host) s
    (registerWrite who addr.toNat value host s.mem s.blk)) ∧
  (∀ (who : Requester) (addr : BitVec 32) (s : State), Gives (.multiwordCaptureRead who addr) s (regReadDone who addr.toNat s.blk)) ∧
  (∀ (c : Fin 4) (s : State), domOn s.blk 1 = true → Gives (.fabGuard c) s (fabGuard (c + 1) s.blk)) ∧
  (∀ (a : BitVec 32) (buffer : Option (Fin 16)) (found : EccResult) (s : State), domOn s.blk 1 = true → Gives (.patrolScrub a buffer found)
    s (patrolScrub a.toNat (buffer.map (·.val)) found s.blk)) ∧
  (∀ (array : SramArray) (s : State), Wipes (.memoryWipeDone array) s (memoryWipeDone array s.mem s.blk)) ∧
  (∀ (region : Fin 64) (s : State), domOn s.blk 1 = true → Writes (.atlasWriteLand region) s (atlasWriteLand region s.mem s.blk))


/-- Every time base command completes: each answers the next state that its meaning gives, under conditions on the state and the operands alone. -/
def Obligations.TimeBaseRows : Prop :=
  (∀ (n : Fin 4) (who : Requester) (s : State), domFor s.blk 2 who = true → Gives (.tbSet n who) s (tbSet n who s.blk)) ∧
  (∀ (n : Fin 4) (who : Requester) (s : State), domFor s.blk 2 who = true → Gives (.tbStep n who) s (tbStep n who s.blk)) ∧
  (∀ (n : Fin 4) (s : State), domOn s.blk 2 = true → Gives (.acceptJump n) s (acceptJump n s.blk)) ∧
  (∀ (n : Fin 4) (s : State), domOn s.blk 2 = true → Gives (.tbClrCounts n) s (tbClrCounts n s.blk)) ∧
  (∀ (n : Fin 4) (who : Requester) (ofsHi : Word) (s : State), domFor s.blk 2 who = true → Gives (.tbOffsetSample n who ofsHi) s
    (tbOffsetSample n who ofsHi s.blk)) ∧
  (∀ (quarter : Fin 4) (s : State), domOn s.blk 2 = true → Gives (.ppsCapture quarter) s (ppsCapture quarter s.blk)) ∧
  (∀ (quarter : Fin 4) (s : State), domOn s.blk 2 = true → Gives (.clk10mCapture quarter) s (clk10mCapture quarter s.blk)) ∧
  (∀ (n : Fin 4) (s : State), domOn s.blk 2 = true → Gives (.tbSampleTimeout n) s (tbSampleTimeout n s.blk)) ∧
  (∀ (secondary : Bool) (s : State), domOn s.blk 3 = true → Gives (.synceRefLoss secondary) s (synceRefLoss secondary s.blk)) ∧
  (∀ (secondary : Bool) (s : State), domOn s.blk 3 = true → Gives (.synceRefRestore secondary) s (synceRefRestore secondary s.blk)) ∧
  (∀ (p : Fin 4) (who : Requester) (s : State), domFor s.blk 3 who = true → Gives (.tsqPop p who) s (tsqPop p who s.blk)) ∧
  (∀ (freq : Word) (s : State), domOn s.blk 3 = true → Gives (.synceDpllLock freq) s (synceDpllLock freq s.blk))


/-- Every Meridian and Bearing command completes: each answers the next state that its meaning gives, under conditions on the state and the operands alone. -/
def Obligations.MeridianRows : Prop :=
  (∀ (m : Fin 2) (lost : List Nat) (s : State), domOn s.blk 2 = true → Writes (.meridianRowStart m lost) s (merRowStart m lost s.mem s.blk)) ∧
  (∀ (m : Fin 2) (s : State), domOn s.blk 2 = true → Gives (.meridianFrameBoundary m) s (merBoundary m s.mem s.blk)) ∧
  (∀ (rising : Bool) (quarter : Fin 4) (s : State), domOn s.blk 2 = true → Gives (.fsyncEdge rising quarter) s (fsyncEdge rising quarter
    s.blk)) ∧
  (∀ (rising : Bool) (quarter : Fin 4) (s : State), domOn s.blk 2 = true → Gives (.lsyncEdge rising quarter) s (lsyncEdge rising quarter
    s.blk)) ∧
  (∀ (tc : Timecode) (quarter : Fin 4) (s : State), domOn s.blk 2 = true → Gives (.ltcSyncWord tc quarter) s (ltcSyncWord tc quarter s.blk)) ∧
  (∀ (quarter : Fin 4) (s : State), domOn s.blk 2 = true → Gives (.wclkEdge quarter) s (wclkEdge quarter s.blk)) ∧
  (∀ (rising : Bool) (quarter : Fin 4) (s : State), domOn s.blk 2 = true → Gives (.mainsZcEdge rising quarter) s (mainsZcEdge rising quarter
    s.blk)) ∧
  (∀ (m : Fin 2) (s : State), domOn s.blk 2 = true → Gives (.edgeMiss m) s (edgeMiss m s.blk)) ∧
  (∀ (m : Fin 2) (s : State), domOn s.blk 2 = true → Gives (.slewComplete m) s (merSlewDone s.blk m)) ∧
  (∀ (m : Fin 2) (s : State), fwTasks s.blk = true → domOn s.blk 2 = true → Gives (.bearingSend m) s (bearingSend m s.blk)) ∧
  (∀ (payload : List Byte) (s : State), fwTasks s.blk = true → Gives (.bearingReceive payload) s (bearingReceive payload s.blk)) ∧
  (∀ (m : Fin 2) (s : State), domOn s.blk 2 = true → Gives (.meridianCommit m) s (meridianCommit m s.blk)) ∧
  (∀ (m : Fin 2) (s : State), domOn s.blk 2 = true → Gives (.meridianDiscard m) s (merDropStaged s.blk m)) ∧
  (∀ (m : Fin 2) (locked : Bool) (s : State), domOn s.blk 2 = true → Gives (.modelLoad m locked) s (modelLoad m locked s.blk)) ∧
  (∀ (m : Fin 2) (s : State), domOn s.blk 2 = true → Gives (.modelFlush m) s (merSetQueue s.blk m [])) ∧
  (∀ (m : Fin 2) (s : State), domOn s.blk 2 = true → Gives (.merClrCounts m) s (merClrCounts m s.blk)) ∧
  (∀ (m : Fin 2) (s : State), domOn s.blk 2 = true → Gives (.remoteModelApply m) s (remoteModelApply m s.blk)) ∧
  (∀ (m : Fin 2) (s : State), domOn s.blk 2 = true → Gives (.bearingTimeout m) s (bearingTimeout m s.blk))


/-- Every Waypoint and event pin command completes: each answers the next state that its meaning gives, under conditions on the state and the operands alone. -/
def Obligations.WaypointRows : Prop :=
  (∀ (s : State), domOn s.blk 2 = true → Gives .wptWrite s (wptWrite s.blk)) ∧
  (∀ (s : State), domOn s.blk 2 = true → Gives .wptRead s (wptRead s.blk)) ∧
  (∀ (s : State), domOn s.blk 2 = true → Gives .wptCancel s (wptCancel s.blk)) ∧
  (∀ (s : State), domOn s.blk 2 = true → Gives .wptClearAll s (wptClearAll s.blk)) ∧
  (∀ (index : Fin 1024) (s : State), domOn s.blk 2 = true → Gives (.waypointArmed index) s (waypointArmed index s.blk)) ∧
  (∀ (k : Fin 8) (s : State), domOn s.blk 2 = true → Gives (.evtPinEdge k) s (evtPinEdge k s.blk)) ∧
  (∀ (k : Fin 8) (s : State), domOn s.blk 2 = true → Gives (.evtOutPulseEnd k) s (evtOutPulseEnd k s.blk)) ∧
  (∀ (rising : Bool) (s : State), domOn s.blk 2 = true → Gives (.ppsOutEdge rising) s (ppsOutEdge rising s.blk)) ∧
  (∀ (rising : Bool) (s : State), domOn s.blk 2 = true → Gives (.evtPassEdge rising) s (evtPassEdge rising s.blk)) ∧
  (∀ (j : Fin 4) (rising : Bool) (quarter : Fin 4) (s : State), domOn s.blk 2 = true → Gives (.evtInCapture j rising quarter) s
    (evtInCapture j rising quarter s.blk)) ∧
  (∀ (j : Fin 4) (who : Requester) (s : State), domFor s.blk 2 who = true → Gives (.evtInPop j who) s (evtInPop j who s.blk)) ∧
  (∀ (index : Fin 1024) (found : List (Fin 16 × EccResult)) (s : State), domOn s.blk 2 = true → Writes (.waypointFire index found) s
    (waypointFire index found s.mem s.blk))


/-- Every canvas command completes: each answers the next state that its meaning gives, under conditions on the state and the operands alone. -/
def Obligations.CanvasRows : Prop :=
  (∀ (s : State), domOn s.blk 4 = true → Gives .mergeWaitExpiry s (mergeWaitExpiry s.mem s.blk)) ∧
  (∀ (pathB : Bool) (s : State), domOn s.blk 4 = true → Gives (.pathLoss pathB) s (pathLoss pathB s.blk)) ∧
  (∀ (found : ReFound) (s : State), domOn s.blk 4 = true → Gives (.canvasAutoCommit found) s (canvasAutoCommit found s.mem s.blk)) ∧
  (∀ (found : ReFound) (s : State), domOn s.blk 4 = true → Gives (.cnvNext found) s (cnvNext found s.mem s.blk)) ∧
  (∀ (s : State), domOn s.blk 4 = true → Gives .canvasApply s (canvasApply s.blk)) ∧
  (∀ (s : State), domOn s.blk 4 = true → Gives .cnvClrCounts s (cnvClrCounts s.blk)) ∧
  (∀ (s : State), domOn s.blk 4 = true → Gives .hostGo s (hostGo s.blk)) ∧
  (∀ (s : State), domOn s.blk 4 = true → Gives .hostFetchStart s (hostFetchStart s.mem s.blk)) ∧
  (∀ (y c0 c1 : List Byte) (found : ReFound) (s : State), domOn s.blk 4 = true → Writes (.hostFetchDone y c0 c1 found) s (hostFetchDone y c0
    c1 found s.mem s.blk)) ∧
  (∀ (s : State), domOn s.blk 4 = true → Gives .flipLatch s (flipLatch s.blk)) ∧
  (∀ (s : State), domOn s.blk 4 = true → Gives .streamLoss s (streamLoss s.blk)) ∧
  (∀ (e : Fin 64) (found : List (Nat × EccResult)) (s : State), domOn s.blk 4 = true → Gives (.regionBandSend e found) s (regionBandSend e
    found s.mem s.blk)) ∧
  (∀ (found : EccResult) (bank : Fin 16) (s : State), domOn s.blk 3 = true → Writes (.st2110Packet found bank) s (innerTo .st2110 (fun _ f
    => st2110Packet f.inPort (innerFrame f)) found bank s.mem s.blk)) ∧
  (∀ (found : EccResult) (bank : Fin 16) (s : State), domOn s.blk 3 = true → Writes (.sheetStreamPacket found bank) s (innerTo .sheet (fun _
    f => sheetStreamPacket (innerFrame f)) found bank s.mem s.blk))


/-- Every Stitch command completes: each answers the next state that its meaning gives, under conditions on the state and the operands alone. -/
def Obligations.StitchRows : Prop :=
  (∀ (s : State), domOn s.blk 5 = true → Gives .batchActivate s (batchActivate s.blk)) ∧
  (∀ (lane : Fin 8) (found : EccResult) (addr : BitVec 32) (s : State), domOn s.blk 5 = true → Gives (.nodeDispatch lane found addr) s
    (nodeDispatch lane found addr.toNat s.mem s.blk)) ∧
  (∀ (lane : Fin 8) (ctx : Fin 4) (node : Fin 256) (s : State), domOn s.blk 5 = true → Writes (.nodeRetire lane ctx node) s (nodeRetire lane
    ctx node s.mem s.blk)) ∧
  (∀ (batch : Nat) (s : State), domOn s.blk 5 = true → Gives (.batchDeadline batch) s (batchDeadline batch s.blk)) ∧
  (∀ (s : State), domOn s.blk 5 = true → Gives .stitchHalt s (stcHalt s.blk)) ∧
  (∀ (flow : Fin 1024) (s : State), domOn s.blk 5 = true → Gives (.flowCancel flow) s (flowCancel flow s.blk)) ∧
  (∀ (cue : Fin 4096) (s : State), domOn s.blk 5 = true → Gives (.stcCue cue) s (stcCue cue s.mem s.blk)) ∧
  (∀ (index : Fin 1024) (applyAt : Fin 4) (s : State), domOn s.blk 5 = true → Gives (.paramWrite index applyAt) s (paramWrite index applyAt
    s.blk)) ∧
  (∀ (m0 m1 : Bool) (s : State), domOn s.blk 5 = true → Gives (.delayFlush m0 m1) s (delayFlush m0 m1 s.blk)) ∧
  (∀ (s : State), domOn s.blk 5 = true → Gives .programLoad s (programLoad s.blk)) ∧
  (∀ (s : State), domOn s.blk 5 = true → Gives .programCheckDone s (programCheckDone s.mem s.blk)) ∧
  (∀ (s : State), domOn s.blk 5 = true → Gives .discardStaged s (discardStaged s.blk)) ∧
  (∀ (s : State), domOn s.blk 5 = true → Gives .stcClrCounts s (stcClrCounts s.blk)) ∧
  (∀ (batch : Nat) (s : State), domOn s.blk 5 = true → Writes (.emitRingSpace batch) s (emitRingSpace batch s.mem s.blk)) ∧
  (∀ (mer : Fin 2) (s : State), domOn s.blk 5 = true → Gives (.delayExpire mer) s (delayExpire mer s.mem s.blk)) ∧
  (∀ (s : State), domOn s.blk 5 = true → Writes .traceStop s (traceStop s.blk)) ∧
  (∀ (s : State), domOn s.blk 5 = true → Writes .traceStallRelease s (trcDrain 2 s.blk)) ∧
  (∀ (s : State), domOn s.blk 1 = true → Gives .traceClear s (traceClear s.blk))


/-- Every strand port and node command completes: each answers the next state that its meaning gives, under conditions on the state and the operands alone. -/
def Obligations.StrandRows : Prop :=
  (∀ (n : Fin 32) (found : EccResult) (ofs : Fin 8192) (s : State), domOn s.blk (strDom n) = true → Gives (.lineMove n found ofs) s
    (lineMove n found ofs s.mem s.blk)) ∧
  (∀ (n : Fin 32) (found : EccResult) (ofs : Fin 8192) (s : State), domOn s.blk (strDom n) = true → Gives (.lineDeadline n found ofs) s
    (lineDeadline n found ofs s.mem s.blk)) ∧
  (∀ (n : Fin 32) (s : State), domOn s.blk (strDom n) = true → Gives (.frameLaunch n) s (frameLaunch n s.blk)) ∧
  (∀ (n : Fin 32) (s : State), domOn s.blk (strDom n) = true → Gives (.latchLaunch n) s (latchLaunch n s.blk)) ∧
  (∀ (n : Fin 32) (age : BitVec 32) (bytes : List Byte) (s : State), domOn s.blk (strDom n) = true → Writes (.strandFrameRx n age bytes) s
    (strandFrameRx n age.toNat bytes s.blk)) ∧
  (∀ (n : Fin 32) (s : State), domOn s.blk (strDom n) = true → Writes (.replyTimeout n) s (replyTimeout n s.blk)) ∧
  (∀ (n : Fin 32) (s : State), domOn s.blk (strDom n) = true → Gives (.surveyStart n) s (surveyStart n s.blk)) ∧
  (∀ (n : Fin 32) (s : State), domOn s.blk (strDom n) = true → Gives (.surveyAbort n) s (surveyAbort n s.blk)) ∧
  (∀ (n : Fin 32) (s : State), domOn s.blk (strDom n) = true → Gives (.parkStart n) s (parkStart n s.blk)) ∧
  (∀ (n : Fin 32) (s : State), domOn s.blk (strDom n) = true → Gives (.strClrCounts n) s (strClrCounts n s.blk)) ∧
  (∀ (n : Fin 32) (s : State), domOn s.blk (strDom n) = true → Gives (.rateTxSwitch n) s (rateTxSwitch n s.blk)) ∧
  (∀ (n : Fin 32) (s : State), domOn s.blk (strDom n) = true → Gives (.ringBreak n) s (ringBreak n s.blk)) ∧
  (∀ (n : Fin 32) (s : State), domOn s.blk (strDom n) = true → Gives (.ringHeal n) s (ringHeal n s.blk)) ∧
  (∀ (n : Fin 32) (bytes : Option (List Byte)) (s : State), domOn s.blk (strDom n) = true → Gives (.readbackCheck n bytes) s (readbackCheck
    n bytes s.blk)) ∧
  (∀ (rx : LineRx) (s : State), Gives (.strandRxLos rx) s (strandRxLos rx s.blk)) ∧
  (∀ (n : Fin 32) (k : Fin 2048) (port2 : Bool) (frame : List Byte) (delay : BitVec 16) (s : State), Gives (.nodeFrameRx n k port2 frame
    delay) s (nodeFrameRx n k port2 frame delay.toNat s.blk)) ∧
  (∀ (n : Fin 32) (k : Fin 2048) (s : State), Gives (.nodeLatch n k) s (nodeLatch n k s.blk)) ∧
  (∀ (n : Fin 32) (k : Fin 2048) (port2 : Bool) (s : State), Gives (.nodeClaimTimeout n k port2) s (nodeClaimTimeout n k port2 s.blk)) ∧
  (∀ (n : Fin 32) (k : Fin 2048) (s : State), Gives (.nodeHoldExpiry n k) s (nodeHoldExpiry n k s.blk)) ∧
  (∀ (n : Fin 32) (k : Fin 2048) (s : State), Gives (.nodeParkLimitExpiry n k) s (nodeParkLimitExpiry n k s.blk)) ∧
  (∀ (n : Fin 32) (k : Fin 2048) (s : State), Gives (.nodeRateSwitch n k) s (nodeRateSwitch n k s.blk)) ∧
  (∀ (n : Fin 32) (k : Fin 2048) (s : State), Gives (.nodeCalibPattern n k) s (nodeCalibPattern n k s.blk)) ∧
  (∀ (n : Fin 32) (k : Fin 2048) (s : State), Gives (.nodePowerUp n k) s (nodePowerUp n k s.blk))

/-- Every DMX512-A, RDM, DALI-2 and E1.31 command completes: each answers the next state that its meaning gives, under conditions on the state and the operands alone. -/
def Obligations.AlternateFunctionRows : Prop :=
  (∀ (n : Fin 32) (s : State), domOn s.blk (strDom n) = true → Gives (.ctlGo n) s (ctlGo n s.mem s.blk)) ∧
  (∀ (n : Fin 32) (s : State), domOn s.blk (strDom n) = true → Writes (.dmxPacketEnd n) s (dmxPacketEnd n s.mem s.blk)) ∧
  (∀ (n : Fin 32) (s : State), domOn s.blk (strDom n) = true → Gives (.dmxKeepalive n) s (dmxKeepalive n s.blk)) ∧
  (∀ (n : Fin 32) (s : State), domOn s.blk (strDom n) = true → Writes (.dmxLateStart n) s (dmxLateStart n s.mem s.blk)) ∧
  (∀ (n : Fin 32) (s : State), domOn s.blk (strDom n) = true → Gives (.rdmRequestStart n) s (rdmRequestStart n s.blk)) ∧
  (∀ (n : Fin 32) (s : State), domOn s.blk (strDom n) = true → Gives (.rdmWaitExpiry n) s (rdmWaitExpiry n s.blk)) ∧
  (∀ (n : Fin 32) (s : State), domOn s.blk (strDom n) = true → Writes (.rdmRequestEnd n) s (rdmRequestEnd n s.mem s.blk)) ∧
  (∀ (n : Fin 32) (bytes : List Byte) (framed : Bool) (rt : BitVec 32) (s : State), domOn s.blk (strDom n) = true → Writes (.rdmResponseRx n
    bytes framed rt) s (rdmResponseRx n bytes framed rt.toNat s.mem s.blk)) ∧
  (∀ (n : Fin 32) (s : State), domOn s.blk (strDom n) = true → Writes (.rdmResponseTimeout n) s (rdmResponseTimeout n s.mem s.blk)) ∧
  (∀ (n : Fin 8) (s : State), domOn s.blk (strDom n) = true → Writes (.daliForwardStart n) s (daliForwardStart n s.mem s.blk)) ∧
  (∀ (n : Fin 8) (s : State), domOn s.blk (strDom n) = true → Writes (.daliAnswerTimeout n) s (daliAnswerTimeout n s.mem s.blk)) ∧
  (∀ (n : Fin 8) (byte : Byte) (valid : Bool) (rt : BitVec 32) (s : State), domOn s.blk (strDom n) = true → Writes (.daliBackwardRx n byte
    valid rt) s (daliBackwardRx n byte valid rt.toNat s.mem s.blk)) ∧
  (∀ (n : Fin 8) (rxp : Bool) (s : State), domOn s.blk (strDom n) = true → Writes (.daliCollision n rxp) s (daliCollision n rxp s.mem
    s.blk)) ∧
  (∀ (n : Fin 8) (bits24 : Bool) (frame : BitVec 24) (s : State), domOn s.blk (strDom n) = true → Writes (.daliFrameHeard n bits24 frame) s
    (daliFrameHeard n bits24 frame.toNat s.mem s.blk)) ∧
  (∀ (n : Fin 8) (rxp : Bool) (s : State), domOn s.blk (strDom n) = true → Writes (.daliBusDown n rxp) s (daliBusDown n rxp s.mem s.blk)) ∧
  (∀ (n : Fin 8) (rxp : Bool) (s : State), domOn s.blk (strDom n) = true → Writes (.daliBusIdle n rxp) s (daliBusIdle n rxp s.mem s.blk)) ∧
  (∀ (sync : BitVec 16) (s : State), domOn s.blk 3 = true → Gives (.e131SyncTimeout sync) s (e131SyncTimeout sync.toNat s.blk)) ∧
  (∀ (i : Fin 1024) (s : State), domOn s.blk 3 = true → Gives (.e131LossTimeout i) s (e131LossTimeout i s.blk)) ∧
  (∀ (s : State), domOn s.blk 3 = true → Gives .e131ClrCounts s (e131ClrCounts s.blk)) ∧
  (∀ (found : EccResult) (bank : Fin 16) (s : State), domOn s.blk 3 = true → Writes (.e131RxPacket found bank) s (innerTo .e131 (fun _ f =>
    e131Packet (innerFrame f)) found bank s.mem s.blk)) ∧
  (∀ (found : EccResult) (bank : Fin 16) (s : State), domOn s.blk 3 = true → Writes (.e131SyncRx found bank) s (innerTo .e131Sync (fun _ f
    => e131Packet (innerFrame f)) found bank s.mem s.blk))

/-- Every local drive command completes: each answers the next state that its meaning gives, under conditions on the state and the operands alone. -/
def Obligations.DriveRows : Prop :=
  (∀ (c : Fin 16) (pin sense : BitVec 24) (tOff : BitVec 16) (s : State), domOn s.blk 8 = true → Gives (.drvDiagSample c pin sense tOff) s
    (drvDiagSample c pin.toNat sense.toNat tOff.toNat s.blk)) ∧
  (∀ (c : Fin 16) (t : BitVec 16) (follows : Bool) (s : State), domOn s.blk 8 = true → Gives (.drvOvercurrentCycle c t follows) s
    (drvOvercurrent c t.toNat follows s.blk)) ∧
  (∀ (c : Fin 16) (s : State), domOn s.blk 8 = true → Gives (.drvSenseFault c) s (if drvChecks s.blk c then drvFault s.blk c 4 else s.blk)) ∧
  (∀ (bus : Bool) (i : Fin 8) (s : State), domOn s.blk 8 = true → Gives (.sensorAutoStart bus i) s (sensorAuto (if bus then 8 + i.val % 4
    else i.val) s.blk)) ∧
  (∀ (i : Fin 8) (ratio : BitVec 12) (s : State), domOn s.blk 8 = true → Gives (.ainConversionDone i ratio) s (ainDone i ratio.toNat s.blk)) ∧
  (∀ (i : Fin 64) (data : Option (BitVec 64)) (s : State), domOn s.blk 8 = true → Gives (.snsTransactionDone i data) s (snsDone i data
    s.blk)) ∧
  (∀ (c : Fin 16) (s : State), domOn s.blk 8 = true → Gives (.sensorStale c) s (sensorStale c s.blk)) ∧
  (∀ (c : Fin 16) (s : State), domOn s.blk 8 = true → Gives (.derateSlewStep c) s (derateSlewStep c s.blk)) ∧
  (∀ (c : Fin 16) (s : State), domOn s.blk 8 = true → Gives (.drvRetryExpiry c) s (drvRetryExpiry c s.blk)) ∧
  (∀ (c : Fin 16) (s : State), domOn s.blk 8 = true → Gives (.drvFaultClr c) s (drvFaultClr c s.blk)) ∧
  (∀ (s : State), domOn s.blk 8 = true → Gives .drvReclaim s (drvReclaim s.blk)) ∧
  (∀ (c : Option (Fin 16)) (s : State), domOn s.blk 8 = true → Gives (.drvClrCounts c) s (drvClrCounts (c.map (·.val)) s.blk)) ∧
  (∀ (s : State), domOn s.blk 8 = true → Gives .drvHoldExpiry s (drvHoldExpiry s.blk))


/-- Every trunk command completes: each answers the next state that its meaning gives, under conditions on the state and the operands alone. -/
def Obligations.TrunkRows : Prop :=
  (∀ (p : Fin 4) (age corrected failed : BitVec 32) (frame : List Byte) (s : State), domOn s.blk 3 = true → Gives (.trunkFrameRx p age
    corrected failed frame) s (trunkFrameRx p age.toNat corrected.toNat failed.toNat frame s.blk)) ∧
  (∀ (p : Fin 4) (quarter : Fin 4) (found : EccResult) (bank : Fin 16) (late : Bool) (s : State), domOn s.blk 3 = true → Gives
    (.trunkFrameTx p quarter found bank late) s (trunkFrameTx p quarter found bank late s.blk)) ∧
  (∀ (p : Fin 4) (speedOk : Bool) (s : State), Gives (.trunkLinkUp p speedOk) s (if domOn s.blk 3 then portUp p speedOk s.blk else wakeLink
    p true s.blk)) ∧
  (∀ (p : Fin 4) (s : State), Gives (.trunkLinkDown p) s (if domOn s.blk 3 then portDown s.blk p else wakeLink p false s.blk)) ∧
  (∀ (p : Fin 4) (mode : Fin 8) (s : State), domOn s.blk 3 = true → Gives (.trunkModeChange p mode) s (portModeChange p mode s.blk)) ∧
  (∀ (mac : BitVec 48) (vid : BitVec 12) (s : State), domOn s.blk 3 = true → Gives (.fdbAgeExpiry mac vid) s (fdbAgeExpiry mac.toNat
    vid.toNat s.blk)) ∧
  (∀ (cmd : Word) (s : State), domOn s.blk 3 = true → Gives (.tblWrite cmd) s (tblWrite cmd.toNat s.blk)) ∧
  (∀ (cmd : Word) (s : State), domOn s.blk 3 = true → Gives (.tblRead cmd) s (tblRead cmd.toNat s.blk)) ∧
  (∀ (cmd : Word) (s : State), domOn s.blk 3 = true → Gives (.tblDelete cmd) s (tblDelete cmd.toNat s.blk)) ∧
  (∀ (s : State), domOn s.blk 3 = true → Gives .fdbFlush s (fdbForget s.blk (fun _ => true))) ∧
  (∀ (port : Option (Fin 5)) (s : State), domOn s.blk 3 = true → Gives (.trkClrCounts port) s (trkClrCounts (port.map (fun p => p.val))
    s.blk)) ∧
  (∀ (r : Fin 16) (s : State), domOn s.blk 3 = true → Gives (.rxCoalTimeout r) s (rxCoalTimeout r s.blk)) ∧
  (∀ (t : Fin 4) (err : Bool) (host : List Byte) (words : List (BitVec 32 × EccResult)) (s : State), domOn s.blk 3 = true → Gives
    (.txDescriptorFetch t err host words) s (txDescriptorFetch t err host words s.mem s.blk)) ∧
  (∀ (t : Fin 4) (s : State), domOn s.blk 3 = true → Writes (.txFrameDone t) s (txFrameDone t s.mem s.blk)) ∧
  (∀ (i : Fin 2) (s : State), domOn s.blk 3 = true → Gives (.ringBeaconTimer i) s (ringBeaconTimer i s.blk)) ∧
  (∀ (p : Fin 4) (frame : List Byte) (s : State), domOn s.blk 3 = true → Gives (.ringFrameRx p frame) s (ringFrameRx p frame s.blk)) ∧
  (∀ (i : Fin 2) (s : State), domOn s.blk 3 = true → Gives (.ringBeaconLoss i) s (ringBeaconLoss i s.blk)) ∧
  (∀ (host : List Byte) (found : EccResult) (bank : Fin 16) (words : List (BitVec 32 × EccResult)) (s : State), domOn s.blk 3 = true →
    Writes (.rxRingDelivery host found bank words) s (innerTo .ring (fun q f m b => rxDeliver m b q f host words) found bank s.mem s.blk))


/-- Every pair command completes: each answers the next state that its meaning gives, under conditions on the state and the operands alone. -/
def Obligations.PairRows : Prop :=
  (∀ (n : Fin 32) (s : State), domOn s.blk 1 = true → Gives (.pairRingBreak n) s (pairRingBreak n s.blk)) ∧
  (∀ (s : State), domOn s.blk 1 = true → Gives .pairHeartbeatToggle s (pairHeartbeatToggle s.blk)) ∧
  (∀ (s : State), domOn s.blk 1 = true → Gives .pairAliveInEdge s (pairAliveInEdge s.blk)) ∧
  (∀ (s : State), domOn s.blk 1 = true → Gives .pairAliveLoss s (pairAliveLoss s.blk)) ∧
  (∀ (s : State), domOn s.blk 1 = true → Gives .pairBeaconTimer s (pairBeaconTimer s.blk)) ∧
  (∀ (s : State), domOn s.blk 1 = true → Gives .pairClaimTimeout s (pairClaimTimeout s.blk)) ∧
  (∀ (s : State), domOn s.blk 1 = true → Gives .pairRevertHoldExpiry s (pairRevertHoldExpiry s.blk)) ∧
  (∀ (value : Word) (s : State), domOn s.blk 1 = true → Gives (.pairWkrHeard value) s (pairWkrHeard value.toNat s.blk)) ∧
  (∀ (srcB : Bool) (s : State), domOn s.blk 1 = true → Gives (.wkrTimeout srcB) s (wkrTimeout (b2n srcB) s.blk)) ∧
  (∀ (s : State), domOn s.blk 1 = true → Gives .pairClrCounts s (pairClrCounts s.blk)) ∧
  (∀ (s : State), domOn s.blk 1 = true → Gives .resetPartner s (pairForceWritten s.blk 256)) ∧
  (∀ (s : State), domOn s.blk 1 = true → Gives .pairBeaconRx s (pairBeaconRx s.blk))


/-- Every mailbox, doorbell, lock, PCIe and QSPI command completes: each answers the next state that its meaning gives, under conditions on the state and the operands alone. -/
def Obligations.MailboxAndHostRows : Prop :=
  (∀ (m : Fin 16) (who : Requester) (tag : Word) (host : List Byte) (s : State), domFor s.blk 1 who = true → Gives (.mbxPost m who tag host)
    s (intSettle (writeDone (mbxPost m who tag.toNat host s.mem s.blk) who (Reg.MBX_m_TAG m)))) ∧
  (∀ (m : Fin 16) (who : Requester) (code : Word) (s : State), domFor s.blk 1 who = true → Gives (.mbxAck m who code) s (writeDone (mbxAck m
    who code.toNat s.blk) who (Reg.MBX_m_ACK m))) ∧
  (∀ (cc1 : Bool) (s : State), domOn s.blk 1 = true → Gives (.pairLinkTxDone cc1) s (pairLinkTxDone (14 + b2n cc1) s.mem s.blk)) ∧
  (∀ (value : Word) (s : State), domOn s.blk 1 = true → Gives (.doorbellRaise value) s (s.blk.raise Reg.DBL_STATUS value)) ∧
  (∀ (n : Fin 32) (who : Requester) (s : State), domFor s.blk 1 who = true → Gives (.lockAcquire n who) s ((lockRead n who s.blk).2.emit
    (.readDone who (Reg.MBX_LOCK_n n) (BitVec.ofNat 32 (lockRead n who s.blk).1) false))) ∧
  (∀ (n : Fin 32) (who : Requester) (value : Word) (s : State), domFor s.blk 1 who = true → Gives (.lockRelease n who value) s (lockWrite n
    who value.toNat s.blk)) ∧
  (∀ (who : Requester) (value : Word) (s : State), domFor s.blk 1 who = true → Gives (.lockBreak who value) s (lockBreak who value.toNat
    s.blk)) ∧
  (∀ (addr : BitVec 32) (data : List Byte) (s : State), Gives (.qspiWrite addr data) s (qspiWrite addr.toNat data s.blk)) ∧
  (∀ (addr count : BitVec 32) (s : State), Gives (.qspiReadReq addr count) s (qspiReadReq addr.toNat count.toNat s.blk)) ∧
  (∀ (s : State), Gives .qspiReadData s (if qspiOn s.blk then s.blk.emit (.qspi s.blk.host.rbuf) else s.blk)) ∧
  (∀ (s : State), Gives .qspiStatus s (qspiStatusRead s.blk)) ∧
  (∀ (s : State), Gives .qspiBadOp s (if qspiOn s.blk then s.blk.irq Reg.HST_QSPI_STATUS 7 else s.blk)) ∧
  (∀ (s : State), Writes .qspiWriteDrain s (qspiDrain s.mem s.blk)) ∧
  (∀ (found : List (BitVec 32 × EccResult)) (s : State), Gives (.qspiReadDone found) s (qspiReadDone found s.mem s.blk)) ∧
  (∀ (bar2 : Bool) (offset : BitVec 32) (write : Option Word) (found : EccResult) (s : State), Writes (.pcieBarAccess bar2 offset write
    found) s (barAccess bar2 offset.toNat write found s.mem s.blk)) ∧
  (∀ (speed : Fin 4) (x2 busMaster msixEn : Bool) (s : State), Gives (.pcieLinkUp speed x2 busMaster msixEn) s (pcieLinkUp speed x2
    busMaster msixEn s.blk)) ∧
  (∀ (s : State), Gives .pcieLinkDown s (pcieLinkDown s.blk))


/-- Every DMA command completes: each answers the next state that its meaning gives, under conditions on the state and the operands alone. -/
def Obligations.DmaRows : Prop :=
  (∀ (n : Fin 16) (s : State), domOn s.blk 1 = true → Gives (.dmaGo n) s (dmaGo n s.blk)) ∧
  (∀ (n : Fin 16) (host : List Byte) (fixed : List (BitVec 32)) (s : State), domOn s.blk 1 = true → Gives (.dmaRefetch n host fixed) s
    (dmaRefetch n host s.mem (dmaFixed n [1] fixed s.blk))) ∧
  (∀ (n : Fin 16) (host : List Byte) (s : State), domOn s.blk 1 = true → Writes (.dmaEnClear n host) s (dmaEnClear n host s.mem s.blk)) ∧
  (∀ (n : Fin 16) (host : List Byte) (s : State), domOn s.blk 1 = true → Writes (.dmaChReset n host) s (dmaChReset n host s.mem s.blk)) ∧
  (∀ (n : Fin 16) (s : State), domOn s.blk 1 = true → Gives (.dmaResetDone n) s (dmaResetDone n s.blk)) ∧
  (∀ (s : State), domOn s.blk 1 = true → Gives .dmaClrCounts s (dmaClrCounts s.blk)) ∧
  (∀ (n : Fin 16) (host : List Byte) (fixed : List (BitVec 32)) (s : State), domOn s.blk 1 = true → Writes (.dmaDescFetched n host fixed) s
    (dmaFetched n host s.mem (dmaFixed n [2] fixed s.blk))) ∧
  (∀ (n : Fin 16) (host : List Byte) (fixed : List (BitVec 32)) (s : State), domOn s.blk 1 = true → Writes (.dmaTransferDone n host fixed) s
    (dmaDone n host s.mem (dmaFixed n [4] fixed s.blk))) ∧
  (∀ (n : Fin 16) (host : List Byte) (fixed : List (BitVec 32)) (s : State), domOn s.blk 1 = true → Writes (.dmaWritebackDone n host fixed)
    s (dmaBack n host s.mem (dmaFixed n [5] fixed s.blk))) ∧
  (∀ (n : Fin 16) (code : Fin 16) (late : Bool) (addr : BitVec 64) (sgDone : BitVec 16) (host : List Byte) (fixed : List (BitVec 32)) (s :
    State), dmaErrorOk code.val late = true → domOn s.blk 1 = true → Writes (.dmaError n code late addr sgDone host fixed) s
    (Sys2Proof.Machine.dmaError n code late addr.toNat sgDone.toNat host s.mem (dmaFixed n [1, 2, 4, 5] fixed s.blk))) ∧
  (∀ (n : Fin 16) (addr : BitVec 64) (sgDone : BitVec 16) (host : List Byte) (fixed : List (BitVec 32)) (s : State), domOn s.blk 1 = true →
    Writes (.dmaHostReadTimeout n addr sgDone host fixed) s (dmaTimeout n addr.toNat sgDone.toNat host s.mem (dmaFixed n [1, 2, 4, 5]
    fixed s.blk)))


/-- Every Skein and check-value command completes: each answers the next state that its meaning gives, under conditions on the state and the operands alone. -/
def Obligations.SkeinAndCheckValueRows : Prop :=
  (∀ (q : Fin 256) (hostWin : Bool) (who : Requester) (value : Word) (s : State), domFor s.blk 1 who = true → Writes (.skeinPush q hostWin
    who value) s ((Sys2Proof.Machine.skeinPush q hostWin who value.toNat s.mem s.blk).1.emit (.writeDone who (sknPushReg hostWin q 3)
    (!(Sys2Proof.Machine.skeinPush q hostWin who value.toNat s.mem s.blk).2.2)), (Sys2Proof.Machine.skeinPush q hostWin who value.toNat
    s.mem s.blk).2.1)) ∧
  (∀ (q : Fin 256) (hostWin : Bool) (who : Requester) (s : State), domFor s.blk 1 who = true → Gives (.skeinPop q hostWin who) s
    ((Sys2Proof.Machine.skeinPop q hostWin who s.blk).1.emit (.readDone who (sknPopReg hostWin q 0) (BitVec.ofNat 32
    (Sys2Proof.Machine.skeinPop q hostWin who s.blk).2.1) (!(Sys2Proof.Machine.skeinPop q hostWin who s.blk).2.2)))) ∧
  (∀ (q : Fin 256) (found : EccResult) (ofs : Fin 64) (s : State), domOn s.blk 1 = true → Writes (.skeinRefillDone q found ofs) s
    (skeinRefillDone q found ofs s.mem s.blk)) ∧
  (∀ (q : Fin 256) (value : Word) (s : State), domOn s.blk 1 = true → Gives (.skeinQuotaWrite q value) s (skeinQuota q value.toNat s.blk)) ∧
  (∀ (value : Word) (s : State), domOn s.blk 1 = true → Gives (.skeinModeWrite value) s (skeinMode value.toNat s.blk)) ∧
  (∀ (s : State), domOn s.blk 1 = true → Gives .sknClrCounts s (sknClrCounts s.blk)) ∧
  (∀ (n : Fin 8) (s : State), domOn s.blk 1 = true → Gives (.crcEnd n) s (crcEndCmd n s.blk)) ∧
  (∀ (n : Fin 8) (s : State), domOn s.blk 1 = true → Gives (.crcInit n) s (crcInitCmd n s.blk)) ∧
  (∀ (s : State), domOn s.blk 1 = true → Gives .crcClrCounts s (crcClrCounts s.blk))


/-- Every power, reset and Cast-on command completes: each answers the next state that its meaning gives, under conditions on the state and the operands alone. -/
def Obligations.PowerAndResetRows : Prop :=
  (∀ (frame : List Byte) (s : State), Gives (.wakeFrameRx frame) s (wakeFrameRx frame s.blk)) ∧
  (∀ (s : State), Gives .perstN s (perstN s.blk)) ∧
  (∀ (rail : Fin 10) (s : State), Gives (.railFail rail) s (railFail rail s.blk)) ∧
  (∀ (rail : Fin 10) (s : State), Gives (.railValid rail) s (railValid rail s.blk)) ∧
  (∀ (rail : Fin 10) (s : State), Gives (.railTimeout rail) s (railTimeout rail s.blk)) ∧
  (∀ (s : State), Gives .rstNLow s (rstNLow s.blk)) ∧
  (∀ (s : State), Gives .rstNHigh s (s.blk.setPwr { s.blk.pwr with rstLow := false })) ∧
  (∀ (bootMode : Fin 8) (hostSel pairSide : Bool) (s : State), Gives (.resetRelease bootMode hostSel pairSide) s (resetRelease bootMode
    hostSel pairSide s.blk)) ∧
  (∀ (w : Fin 3) (s : State), Gives (.watchdogExpiry w) s (wdtExpiry w s.blk)) ∧
  (∀ (w : Fin 3) (who : Requester) (value : Word) (s : State), Gives (.wdtKick w who value) s (wdtKick w who value.toNat s.blk)) ∧
  (∀ (value : Word) (s : State), Gives (.swReset value) s (swReset value.toNat s.blk)) ∧
  (∀ (s : State), Gives .debugReset s (if debugOpen s.blk then resetRaise 11 s.blk else s.blk)) ∧
  (∀ (s : State), Gives .commandReset s (commandReset s.blk)) ∧
  (∀ (s : State), domOn s.blk 3 = true → Gives .resetFrameCheck s (resetFrameCheck s.blk)) ∧
  (∀ (value : Word) (s : State), Gives (.domainReset value) s (domainReset value.toNat s.blk)) ∧
  (∀ (reading : BitVec 16) (dips : List (Fin 10 × Fin 3)) (s : State), Gives (.tjReading reading dips) s (tjReading reading.toNat (dips.map
    (fun d => (d.1.val, d.2.val))) s.blk)) ∧
  (∀ (s : State), Gives .castOnS0Done s (castOnS0Done s.blk)) ∧
  (∀ (s : State), Wipes .castOnS1Done s (castOnS1Done s.mem s.blk)) ∧
  (∀ (pciIds trunkDef flags recIp : EccResult) (s : State), Gives (.optionLoadDone pciIds trunkDef flags recIp) s (optionLoadDone pciIds
    trunkDef flags recIp s.blk)) ∧
  (∀ (refclk : Bool) (s : State), Gives (.pllLock refclk) s (pllLock refclk s.blk)) ∧
  (∀ (s : State), Gives .pllLockFail s (pllLockFail s.blk)) ∧
  (∀ (s : State), Wipes .castOnS4Done s (castOnS4Done s.mem s.blk)) ∧
  (∀ (s : State), Gives .dormantEntry s (dormantEntry s.blk)) ∧
  (∀ (s : State), Gives .dormantEnStep s (dormantEnStep s.blk)) ∧
  (∀ (s : State), Gives .wakePin s (wakePin s.blk)) ∧
  (∀ (s : State), Gives .dormantExitRetry s (dormantExitRetry s.blk)) ∧
  (∀ (who : Requester) (s : State), Gives (.bkpWipe who) s (bkpWipe who s.blk)) ∧
  (∀ (value : Word) (s : State), Gives (.pwrDomainWrite value) s (pwrDomainWrite value.toNat s.mem s.blk)) ∧
  (∀ (s : State), Gives .perstNRelease s (perstNRelease s.blk)) ∧
  (∀ (s : State), Gives .wakeHeldExit s (wakeHeldExit s.blk))


/-- Every image, handover, key, token, life-cycle and recovery command completes: each answers the next state that its meaning gives, under conditions on the state and the operands alone. -/
def Obligations.FirmwareImageRows : Prop :=
  (∀ (errA errB : Bool) (s : State), Writes (.romBoot errA errB) s (romBoot errA errB s.mem s.blk)) ∧
  (∀ (value : Word) (s : State), domOn s.blk 1 = true → Gives (.fwuCopy value) s (fwuCtrlWrite (value.toNat ||| 1) s.blk)) ∧
  (∀ (s : State), domOn s.blk 1 = true → Writes .fwuCopyDone s (fwuCopyDone s.mem s.blk)) ∧
  (∀ (value : Word) (s : State), domOn s.blk 1 = true → Gives (.fwuSwitch value) s (fwuCtrlWrite (value.toNat ||| 2) s.blk)) ∧
  (∀ (value : Word) (s : State), domOn s.blk 1 = true → Gives (.fwuReturn value) s (fwuCtrlWrite (value.toNat ||| 8) s.blk)) ∧
  (∀ (value : Word) (s : State), domOn s.blk 1 = true → Gives (.fwuRevert value) s (fwuCtrlWrite (value.toNat ||| 16) s.blk)) ∧
  (∀ (value : Word) (s : State), domOn s.blk 1 = true → Gives (.fwuCommit value) s (fwuCtrlWrite (value.toNat ||| 32) s.blk)) ∧
  (∀ (s : State), domOn s.blk 1 = true → Gives .handoverTimeout s (handoverTimeout s.blk)) ∧
  (∀ (s : State), domOn s.blk 1 = true → Writes .probationExpired s (probationExpired s.mem s.blk)) ∧
  (∀ (value : Word) (s : State), domOn s.blk 1 = true → Gives (.lcCmd value) s (lcCmd value.toNat s.blk)) ∧
  (∀ (value : Word) (s : State), domOn s.blk 1 = true → Gives (.rollbackSet value) s (rollbackSet value.toNat s.blk)) ∧
  (∀ (value : Word) (s : State), domOn s.blk 1 = true → Gives (.otpRevoke value) s (otpRevoke value.toNat s.blk)) ∧
  (∀ (s : State), domOn s.blk 1 = true → Gives .tokenCheck s (s.blk.setFlag Reg.FWU_TOKEN_STATUS 0 true)) ∧
  (∀ (s : State), domOn s.blk 1 = true → Gives .tokenCheckDone s (tokenCheckDone s.blk)) ∧
  (∀ (value : Word) (s : State), domOn s.blk 1 = true → Writes (.keyWrite value) s (keyWrite value.toNat s.mem s.blk)) ∧
  (∀ (value : Word) (s : State), domOn s.blk 1 = true → Writes (.keyErase value) s (keyErase value.toNat s.mem s.blk)) ∧
  (∀ (value : Word) (s : State), domOn s.blk 1 = true → Gives (.recoveryGo value) s (recoveryGo value.toNat s.blk)) ∧
  (∀ (err : Bool) (s : State), Writes (.recoveryDone err) s (recoveryDone err s.mem s.blk)) ∧
  (∀ (s : State), Gives .recHello s (recHello s.mem s.blk)) ∧
  (∀ (s : State), Gives .recArp s (recArp s.blk)) ∧
  (∀ (s : State), Gives .recStart s (recStart s.blk)) ∧
  (∀ (s : State), Gives .recData s (recData s.blk)) ∧
  (∀ (s : State), Writes .recEnd s (recEnd s.mem s.blk)) ∧
  (∀ (s : State), Gives .recSessionTimeout s (recSessionTimeout s.blk)) ∧
  (∀ (s : State), Writes .recRestart s (recRestart s.mem s.blk)) ∧
  (∀ (value : Word) (s : State), domOn s.blk 1 = true → Gives (.fwuConfirm value) s (fwuConfirmWrite value.toNat s.mem s.blk))


/-- Every Lifelog and Swatch command completes: each answers the next state that its meaning gives, under conditions on the state and the operands alone. -/
def Obligations.LifelogAndSwatchRows : Prop :=
  (∀ (s : State), domOn s.blk 1 = true → Gives .logSnap s (logSnap s.blk)) ∧
  (∀ (s : State), Writes .logFlushDue s (logFlushDue s.mem s.blk)) ∧
  (∀ (n : Fin 32) (s : State), domOn s.blk 1 = true → Gives (.swatchAutoStart n) s (swatchAutoStart n s.mem s.blk)) ∧
  (∀ (n : Fin 32) (los : Bool) (bins : List (BitVec 16)) (s : State), bins.length = 192 → domOn s.blk 1 = true → Gives (.swatchRunDone n los
    bins) s (Sys2Proof.Machine.swatchRunDone n los (bins.map (·.toNat)) s.blk)) ∧
  (∀ (c : Fin 16) (samples : List (BitVec 32)) (s : State), samples.length = 256 → domOn s.blk 1 = true → Gives (.drvOffsetEstimate c
    samples) s (drvEstimate c (samples.map (·.toInt)) s.blk)) ∧
  (∀ (c : Fin 16) (s : State), domOn s.blk 1 = true → Gives (.drvForcedInterrupt c) s (drvBreak c s.blk)) ∧
  (∀ (c : Fin 16) (settled : Bool) (s : State), domOn s.blk 1 = true → Gives (.drvInterruptEnd c settled) s (drvBreakEnd c settled s.blk)) ∧
  (∀ (p : Fin 4) (horiz : BitVec 7) (vert : BitVec 16) (s : State), domOn s.blk 1 = true → Gives (.trunkEyeRefresh p horiz vert) s
    (eyeRefresh p horiz.toNat vert.toNat s.blk)) ∧
  (∀ (s : State), domOn s.blk 1 = true → Gives .calClrCounts s (calClrCounts s.blk)) ∧
  (∀ (n : Fin 32) (s : State), domOn s.blk (strDom n) = true → Gives (.strandRxLosRelease (.port n)) s (s.blk.setFlag (Reg.STR_n_STATUS n) 5
    false)) ∧
  (∀ (n : Fin 32) (k : Fin 2048) (p : Bool) (s : State), Gives (.strandRxLosRelease (.node n k p)) s s.blk)


/-- Every event that firmware takes completes: each answers the next state that its meaning gives, under conditions on the state and the operands alone. -/
def Obligations.FirmwareEventRows : Prop :=
  (∀ (opcode seq : BitVec 16) (s : State), fwTasks s.blk = true → Writes (.relayTimeout opcode seq) s (relayTimeout opcode.toNat seq.toNat
    s.mem s.blk)) ∧
  (∀ (s : State), fwTasks s.blk = true → Writes .commandReplyRx s (commandReplyRx s.mem s.blk)) ∧
  (∀ (s : State), fwTasks s.blk = true → Gives .replayTableSave s (replaySaveDue s.blk)) ∧
  (∀ (writes : List (BitVec 32 × Word)) (s : State), fwTasks s.blk = true → Writes (.configured writes) s (configured (writes.map (fun x =>
    (x.1.toNat, x.2.toNat))) s.mem s.blk)) ∧
  (∀ (s : State), fwTasks s.blk = true → Gives .bindOff s (bindOff s.blk)) ∧
  (∀ (s : State), fwTasks s.blk = true → Gives .fwTransferTimeout s (transferTimeout s.blk)) ∧
  (∀ (s : State), fwTasks s.blk = true → Writes .rollCallWindowExpiry s (rollCallOver s.mem s.blk))


end
end

