-- ==== Sys2Proof/Laws/Tab.lean ====
section
/-!
SUPPORT. Sparse tables: a read after a write, and the canonical form.
-/
namespace Sys2Proof.Machine

variable {α : Type}

theorem Tab.get_nil (d : Nat → α) (i : Nat) : Tab.get d [] i = d i := rfl

theorem Tab.get_erase_self (d : Nat → α) (t : Tab α) (i : Nat) : Tab.get d (Tab.erase t i) i = d i := by
  induction t with
  | nil => rfl
  | cons e r ih =>
    by_cases h : e.1 = i
    · simp [Tab.erase, h, ih]
    · simp [Tab.erase, Tab.get, h, ih]

theorem Tab.get_erase_ne (d : Nat → α) (t : Tab α) {i j : Nat} (h : j ≠ i) :
    Tab.get d (Tab.erase t i) j = Tab.get d t j := by
  induction t with
  | nil => rfl
  | cons e r ih =>
    by_cases hi : e.1 = i
    · have : e.1 ≠ j := fun hj => h (hj.symm.trans hi)
      simp [Tab.erase, Tab.get, hi, ih, h.symm]
    · simp [Tab.erase, Tab.get, hi, ih]

theorem Tab.get_put_ne (d : Nat → α) (t : Tab α) {i j : Nat} (x : α) (h : j ≠ i) :
    Tab.get d (Tab.put t i x) j = Tab.get d t j := by
  induction t with
  | nil => simp [Tab.put, Tab.get, h.symm]
  | cons e r ih =>
    by_cases hk : i < e.1
    · simp [Tab.put, Tab.get, hk, h.symm]
    · simp [Tab.put, Tab.get, hk, ih]

theorem Tab.get_put_erase_self (d : Nat → α) (t : Tab α) (i : Nat) (x : α) :
    Tab.get d (Tab.put (Tab.erase t i) i x) i = x := by
  induction t with
  | nil => simp [Tab.erase, Tab.put, Tab.get]
  | cons e r ih =>
    by_cases h : e.1 = i
    · simpa [Tab.erase, h] using ih
    · by_cases hk : i < e.1
      · simp [Tab.erase, Tab.put, Tab.get, h, hk]
      · simp [Tab.erase, Tab.put, Tab.get, h, hk, ih]

/-- A read of what has just been written. -/
@[simp] theorem Tab.get_set_self [DecidableEq α] (d : Nat → α) (t : Tab α) (i : Nat) (x : α) : Tab.get d (Tab.set d t i x) i = x := by
  unfold Tab.set
  split
  · next h => rw [Tab.get_erase_self, h]
  · exact Tab.get_put_erase_self d t i x

/-- A write leaves every other key alone. -/
theorem Tab.get_set_ne [DecidableEq α] (d : Nat → α) (t : Tab α) {i j : Nat} (x : α) (h : j ≠ i) :
    Tab.get d (Tab.set d t i x) j = Tab.get d t j := by
  unfold Tab.set
  split
  · exact Tab.get_erase_ne d t h
  · rw [Tab.get_put_ne d _ x h, Tab.get_erase_ne d t h]

theorem Tab.get_set [DecidableEq α] (d : Nat → α) (t : Tab α) (i j : Nat) (x : α) :
    Tab.get d (Tab.set d t i x) j = if j = i then x else Tab.get d t j := by
  by_cases h : j = i
  · subst h; simp
  · rw [Tab.get_set_ne d t x h, if_neg h]

/-! ### The canonical form -/

theorem Tab.wfFrom_weaken [DecidableEq α] {d : Nat → α} {l k : Nat} {t : Tab α} (h : l ≤ k) :
    Tab.wfFrom d (some k) t = true → Tab.wfFrom d (some l) t = true := by
  cases t with
  | nil => intro _; rfl
  | cons e r =>
    simp only [Tab.wfFrom, Bool.and_eq_true, decide_eq_true_eq]
    rintro ⟨⟨h1, h2⟩, h3⟩
    exact ⟨⟨Nat.lt_of_le_of_lt h h1, h2⟩, h3⟩

theorem Tab.wfFrom_none [DecidableEq α] {d : Nat → α} {k : Nat} {t : Tab α} :
    Tab.wfFrom d (some k) t = true → Tab.wfFrom d none t = true := by
  cases t with
  | nil => intro _; rfl
  | cons e r =>
    simp only [Tab.wfFrom, Bool.and_eq_true, decide_eq_true_eq]
    rintro ⟨⟨_, h2⟩, h3⟩
    exact ⟨⟨trivial, h2⟩, h3⟩

/-- A lower bound of a table that may be none. -/
def Tab.Above : Option Nat → Nat → Prop
  | none, _ => True
  | some l, k => l < k

theorem Tab.wfFrom_cons [DecidableEq α] {d : Nat → α} {lo : Option Nat} {k : Nat} {x : α} {r : Tab α} :
    Tab.wfFrom d lo ((k, x) :: r) = true ↔ Tab.Above lo k ∧ x ≠ d k ∧ Tab.wfFrom d (some k) r = true := by
  cases lo <;> simp [Tab.wfFrom, Tab.Above, and_assoc]

theorem Tab.wfFrom_lower [DecidableEq α] {d : Nat → α} {lo : Option Nat} {k : Nat} {t : Tab α} (h : Tab.Above lo k) :
    Tab.wfFrom d (some k) t = true → Tab.wfFrom d lo t = true := by
  cases lo with
  | none => exact Tab.wfFrom_none
  | some l => exact Tab.wfFrom_weaken (Nat.le_of_lt h)

theorem Tab.wfFrom_erase [DecidableEq α] {d : Nat → α} (t : Tab α) (i : Nat) (lo : Option Nat) :
    Tab.wfFrom d lo t = true → Tab.wfFrom d lo (Tab.erase t i) = true := by
  induction t generalizing lo with
  | nil => intro h; exact h
  | cons e r ih =>
    obtain ⟨k, x⟩ := e
    rw [Tab.wfFrom_cons]
    rintro ⟨h1, h2, h3⟩
    by_cases h : k = i
    · simpa [Tab.erase, h] using ih lo (Tab.wfFrom_lower h1 h3)
    · simp only [Tab.erase, h, if_false, Tab.wfFrom_cons]
      exact ⟨h1, h2, ih (some k) h3⟩

theorem Tab.mem_erase {t : Tab α} {i : Nat} {e : Nat × α} (h : e ∈ Tab.erase t i) : e ∈ t ∧ e.1 ≠ i := by
  induction t with
  | nil => cases h
  | cons f r ih =>
    by_cases hk : f.1 = i
    · rw [show Tab.erase (f :: r) i = Tab.erase r i by simp [Tab.erase, hk]] at h
      exact ⟨List.mem_cons_of_mem _ (ih h).1, (ih h).2⟩
    · rw [show Tab.erase (f :: r) i = f :: Tab.erase r i by simp [Tab.erase, hk]] at h
      rcases List.mem_cons.mp h with h | h
      · subst h; exact ⟨List.mem_cons_self, hk⟩
      · exact ⟨List.mem_cons_of_mem _ (ih h).1, (ih h).2⟩

theorem Tab.wfFrom_put [DecidableEq α] {d : Nat → α} (t : Tab α) (i : Nat) (x : α) (lo : Option Nat) (hx : x ≠ d i)
    (hlo : Tab.Above lo i) (hne : ∀ e ∈ t, e.1 ≠ i) :
    Tab.wfFrom d lo t = true → Tab.wfFrom d lo (Tab.put t i x) = true := by
  induction t generalizing lo with
  | nil => intro _; simp only [Tab.put, Tab.wfFrom_cons]; exact ⟨hlo, hx, rfl⟩
  | cons e r ih =>
    obtain ⟨k, y⟩ := e
    rw [Tab.wfFrom_cons]
    rintro ⟨h1, h2, h3⟩
    by_cases hk : i < k
    · simp only [Tab.put, hk, if_true, Tab.wfFrom_cons]
      exact ⟨hlo, hx, hk, h2, h3⟩
    · have hki : k ≠ i := hne (k, y) List.mem_cons_self
      have : k < i := Nat.lt_of_le_of_ne (Nat.not_lt.mp hk) hki
      simp only [Tab.put, hk, if_false, Tab.wfFrom_cons]
      exact ⟨h1, h2, ih (some k) this (fun e he => hne e (List.mem_cons_of_mem _ he)) h3⟩

/-- A write keeps the canonical form. -/
theorem Tab.wf_set [DecidableEq α] {d : Nat → α} (t : Tab α) (i : Nat) (x : α) (h : Tab.wf d t = true) :
    Tab.wf d (Tab.set d t i x) = true := by
  have he := Tab.wfFrom_erase t i none h
  unfold Tab.set
  split
  · exact he
  · next hx => exact Tab.wfFrom_put _ i x none hx trivial (fun e hm => (Tab.mem_erase hm).2) he

theorem Tab.wfFrom_filter [DecidableEq α] {d : Nat → α} (t : Tab α) (p : Nat × α → Bool) (lo : Option Nat) :
    Tab.wfFrom d lo t = true → Tab.wfFrom d lo (t.filter p) = true := by
  induction t generalizing lo with
  | nil => intro h; exact h
  | cons e r ih =>
    obtain ⟨k, x⟩ := e
    rw [Tab.wfFrom_cons]
    rintro ⟨h1, h2, h3⟩
    by_cases hp : p (k, x) = true
    · simp only [List.filter_cons, hp, if_true, Tab.wfFrom_cons]
      exact ⟨h1, h2, ih (some k) h3⟩
    · rw [List.filter_cons_of_neg hp]; exact ih lo (Tab.wfFrom_lower h1 h3)

end Sys2Proof.Machine
end

