-- ==== Sys2Proof/Laws/Reg.lean ====
section
/-!
SUPPORT. The register file: a read after a write.
-/
namespace Sys2Proof.Machine

@[simp] theorem Blk.rd_wr_self (b : Blk) (a : Nat) (v : Word) : (b.wr a v).rd a = v := by simp [Blk.rd, Blk.wr]

theorem Blk.rd_wr_ne (b : Blk) {a c : Nat} (v : Word) (h : c ≠ a) : (b.wr a v).rd c = b.rd c := by
  simp [Blk.rd, Blk.wr, Tab.get_set_ne _ _ _ h]

theorem Blk.rd_wr (b : Blk) (a c : Nat) (v : Word) : (b.wr a v).rd c = if c = a then v else b.rd c := by
  simp [Blk.rd, Blk.wr, Tab.get_set]

@[simp] theorem Blk.rd_wrN_self (b : Blk) (a n : Nat) : (b.wrN a n).rd a = BitVec.ofNat 32 n := by simp [Blk.wrN]
theorem Blk.rd_wrN_ne (b : Blk) {a c : Nat} (n : Nat) (h : c ≠ a) : (b.wrN a n).rd c = b.rd c := Blk.rd_wr_ne b _ h
theorem Blk.rd_setFld_ne (b : Blk) {a c : Nat} (hi lo v : Nat) (h : c ≠ a) : (b.setFld a hi lo v).rd c = b.rd c := Blk.rd_wr_ne b _ h
theorem Blk.rd_setFlag_ne (b : Blk) {a c : Nat} (i : Nat) (v : Bool) (h : c ≠ a) : (b.setFlag a i v).rd c = b.rd c := Blk.rd_wr_ne b _ h
theorem Blk.rd_irq_ne (b : Blk) {a c : Nat} (i : Nat) (h : c ≠ a) : (b.irq a i).rd c = b.rd c := Blk.rd_wr_ne b _ h
theorem Blk.rd_count_ne (b : Blk) {a c : Nat} (n : Nat) (h : c ≠ a) : (b.count a n).rd c = b.rd c := Blk.rd_wr_ne b _ h

/-- A read of the register file depends on the register file alone. -/
theorem Blk.rd_congr {b c : Blk} (h : b.regs = c.regs) (a : Nat) : b.rd a = c.rd a := by simp [Blk.rd, h]

/-- Registers that take 0 read 0; the others are left alone. -/
theorem Blk.rd_zero (as : List Nat) (b : Blk) (a : Nat) : (b.zero as).rd a = if a ∈ as then 0#32 else b.rd a := by
  induction as generalizing b with
  | nil => simp [Blk.zero]
  | cons c cs ih =>
    have : (b.zero (c :: cs)) = (b.wr c 0#32).zero cs := rfl
    rw [this, ih]
    by_cases h : a ∈ cs
    · simp [h]
    · by_cases hc : a = c
      · simp [hc]
      · simp [h, hc, Blk.rd_wr_ne b _ hc]

@[simp] theorem Blk.zero_now (as : List Nat) (b : Blk) : (b.zero as).now = b.now := by
  induction as generalizing b with
  | nil => rfl
  | cons c cs ih => exact (ih (b.wr c 0#32)).trans rfl

theorem bit_lt_two (n i : Nat) : n / 2 ^ i % 2 < 2 := Nat.mod_lt _ (by decide)

theorem bits_lt (n hi lo : Nat) : bits n hi lo < 2 ^ (hi + 1 - lo) := Nat.mod_lt _ (Nat.two_pow_pos _)

theorem sat32_le (n : Nat) : sat32 n ≤ max32 := by unfold sat32; split <;> omega

end Sys2Proof.Machine
end

