-- ==== Sys2Proof/Laws/Bits.lean ====
section
/-!
SUPPORT. Bit fields: a field read after a field written, of a number and of a register.
-/
namespace Sys2Proof.Machine

/-- A number is its bits above a field, the field, and its bits below. -/
theorem bits_split (n lo k : Nat) : n = n / 2 ^ (lo + k) * 2 ^ (lo + k) + n / 2 ^ lo % 2 ^ k * 2 ^ lo + n % 2 ^ lo := by
  have h1 := Nat.div_add_mod n (2 ^ lo)
  have h2 := Nat.div_add_mod (n / 2 ^ lo) (2 ^ k)
  rw [Nat.div_div_eq_div_mul, ← Nat.pow_add] at h2
  have h3 : n / 2 ^ (lo + k) * 2 ^ (lo + k) = 2 ^ lo * (2 ^ k * (n / 2 ^ (lo + k))) := by
    rw [Nat.pow_add, Nat.mul_comm, Nat.mul_assoc]
  rw [h3, Nat.mul_comm (n / 2 ^ lo % 2 ^ k), ← Nat.mul_add, h2, h1]

/-- A number with a field replaced is its bits above, the new field, and its bits below. -/
theorem putBits_eq (n hi lo v : Nat) (h : lo ≤ hi) :
    putBits n hi lo v = n / 2 ^ (hi + 1) * 2 ^ (hi + 1) + v % 2 ^ (hi + 1 - lo) * 2 ^ lo + n % 2 ^ lo := by
  have e : lo + (hi + 1 - lo) = hi + 1 := by omega
  have := bits_split n lo (hi + 1 - lo)
  rw [e] at this
  unfold putBits bits
  omega

theorem bits_putBits_self (n hi lo v : Nat) (h : lo ≤ hi) : bits (putBits n hi lo v) hi lo = v % 2 ^ (hi + 1 - lo) := by
  rw [putBits_eq n hi lo v h]
  unfold bits
  have hp : 0 < 2 ^ lo := Nat.two_pow_pos lo
  have e : 2 ^ (hi + 1) = 2 ^ (hi + 1 - lo) * 2 ^ lo := by rw [← Nat.pow_add]; congr 1; omega
  have e2 : n / 2 ^ (hi + 1) * 2 ^ (hi + 1) + v % 2 ^ (hi + 1 - lo) * 2 ^ lo + n % 2 ^ lo
      = n % 2 ^ lo + 2 ^ lo * (n / 2 ^ (hi + 1) * 2 ^ (hi + 1 - lo) + v % 2 ^ (hi + 1 - lo)) := by
    rw [Nat.mul_add, Nat.mul_comm (2 ^ lo), Nat.mul_assoc, Nat.mul_comm (2 ^ lo), ← e]; omega
  rw [e2, Nat.add_mul_div_left _ _ hp, Nat.div_eq_of_lt (Nat.mod_lt _ hp), Nat.zero_add, Nat.mul_comm, Nat.mul_add_mod,
    Nat.mod_mod]

/-- A field replaced inside `w` bits leaves a number of `w` bits. -/
theorem putBits_lt (n hi lo v w : Nat) (h : lo ≤ hi) (hw : hi < w) (hn : n < 2 ^ w) : putBits n hi lo v < 2 ^ w := by
  rw [putBits_eq n hi lo v h]
  have hf : v % 2 ^ (hi + 1 - lo) * 2 ^ lo + n % 2 ^ lo < 2 ^ (hi + 1) := by
    have h1 : v % 2 ^ (hi + 1 - lo) < 2 ^ (hi + 1 - lo) := Nat.mod_lt _ (Nat.two_pow_pos _)
    have h2 : n % 2 ^ lo < 2 ^ lo := Nat.mod_lt _ (Nat.two_pow_pos _)
    have e : 2 ^ (hi + 1) = 2 ^ (hi + 1 - lo) * 2 ^ lo := by rw [← Nat.pow_add]; congr 1; omega
    have h3 : (v % 2 ^ (hi + 1 - lo) + 1) * 2 ^ lo ≤ 2 ^ (hi + 1 - lo) * 2 ^ lo := Nat.mul_le_mul_right _ h1
    rw [Nat.add_mul, Nat.one_mul] at h3
    omega
  have e : 2 ^ w = 2 ^ (w - (hi + 1)) * 2 ^ (hi + 1) := by rw [← Nat.pow_add]; congr 1; omega
  have hd : n / 2 ^ (hi + 1) < 2 ^ (w - (hi + 1)) := by
    rw [Nat.div_lt_iff_lt_mul (Nat.two_pow_pos _), ← e]; exact hn
  have h3 : (n / 2 ^ (hi + 1) + 1) * 2 ^ (hi + 1) ≤ 2 ^ (w - (hi + 1)) * 2 ^ (hi + 1) := Nat.mul_le_mul_right _ hd
  rw [Nat.add_mul, Nat.one_mul, ← e] at h3
  omega

/-- A field below the one replaced stays. -/
theorem bits_putBits_below (n hi lo v h l : Nat) (hl : lo ≤ hi) (hb : h < lo) : bits (putBits n hi lo v) h l = bits n h l := by
  have key : putBits n hi lo v % 2 ^ lo = n % 2 ^ lo := by
    rw [putBits_eq n hi lo v hl]
    have e : 2 ^ (hi + 1) = 2 ^ lo * 2 ^ (hi + 1 - lo) := by rw [← Nat.pow_add]; congr 1; omega
    rw [e, ← Nat.mul_assoc, Nat.mul_comm (_ * 2 ^ lo), Nat.mul_comm _ (2 ^ lo), Nat.mul_comm _ (2 ^ lo)]
    have : 2 ^ (hi + 1 - lo) * (2 ^ lo * (n / (2 ^ lo * 2 ^ (hi + 1 - lo)))) = 2 ^ lo * (2 ^ (hi + 1 - lo) * (n / (2 ^ lo * 2 ^ (hi + 1 - lo)))) := by
      rw [← Nat.mul_assoc, Nat.mul_comm (2 ^ _), Nat.mul_assoc]
    rw [this, ← Nat.mul_add, Nat.mul_add_mod, Nat.mod_mod]
  by_cases hlh : l ≤ h
  · have red : ∀ x, bits x h l = x % 2 ^ lo % 2 ^ (h + 1) / 2 ^ l := by
      intro x
      have e1 : h + 1 = l + (h + 1 - l) := by omega
      have e2 : lo = (h + 1) + (lo - (h + 1)) := by omega
      rw [e2, Nat.pow_add, Nat.mod_mul_right_mod]
      unfold bits
      conv => rhs; rw [e1, Nat.pow_add]
      rw [Nat.mod_mul_right_div_self]
    rw [red, red, key]
  · unfold bits
    have : h + 1 - l = 0 := by omega
    rw [this]; simp [Nat.mod_one]

/-- A field above the one replaced stays. -/
theorem bits_putBits_above (n hi lo v h l : Nat) (hl : lo ≤ hi) (hb : hi < l) : bits (putBits n hi lo v) h l = bits n h l := by
  have key : putBits n hi lo v / 2 ^ (hi + 1) = n / 2 ^ (hi + 1) := by
    have hf : v % 2 ^ (hi + 1 - lo) * 2 ^ lo + n % 2 ^ lo < 2 ^ (hi + 1) := by
      have := putBits_lt 0 hi lo v (hi + 1) hl (by omega) (Nat.two_pow_pos _)
      have h1 : v % 2 ^ (hi + 1 - lo) < 2 ^ (hi + 1 - lo) := Nat.mod_lt _ (Nat.two_pow_pos _)
      have h2 : n % 2 ^ lo < 2 ^ lo := Nat.mod_lt _ (Nat.two_pow_pos _)
      have e : 2 ^ (hi + 1) = 2 ^ (hi + 1 - lo) * 2 ^ lo := by rw [← Nat.pow_add]; congr 1; omega
      have h3 : (v % 2 ^ (hi + 1 - lo) + 1) * 2 ^ lo ≤ 2 ^ (hi + 1 - lo) * 2 ^ lo := Nat.mul_le_mul_right _ h1
      rw [Nat.add_mul, Nat.one_mul] at h3
      omega
    rw [putBits_eq n hi lo v hl, Nat.add_assoc, Nat.add_comm, Nat.add_mul_div_right _ _ (Nat.two_pow_pos _),
      Nat.div_eq_of_lt hf, Nat.zero_add]
  have red : ∀ x, bits x h l = x / 2 ^ (hi + 1) / 2 ^ (l - (hi + 1)) % 2 ^ (h + 1 - l) := by
    intro x
    unfold bits
    rw [Nat.div_div_eq_div_mul, ← Nat.pow_add]; congr 3; omega
  rw [red, red, key]

theorem bit_eq_bits (n i : Nat) : bit n i = (bits n i i == 1) := by
  simp [bit, bits]

theorem Blk.rdN_lt (b : Blk) (a : Nat) : b.rdN a < 2 ^ 32 := (b.rd a).isLt

@[simp] theorem Blk.rdN_setFld_self (b : Blk) (a hi lo v : Nat) (h : lo ≤ hi) (hw : hi < 32) :
    (b.setFld a hi lo v).rdN a = putBits (b.rdN a) hi lo v := by
  simp only [Blk.setFld, Blk.rdN, Blk.rd_wrN_self, BitVec.toNat_ofNat]
  exact Nat.mod_eq_of_lt (putBits_lt _ _ _ _ _ h hw (b.rd a).isLt)

theorem Blk.fld_setFld_self (b : Blk) (a hi lo v : Nat) (h : lo ≤ hi) (hw : hi < 32) :
    (b.setFld a hi lo v).fld a hi lo = v % 2 ^ (hi + 1 - lo) := by
  rw [Blk.fld, Blk.rdN_setFld_self b a hi lo v h hw, bits_putBits_self _ _ _ _ h]

theorem Blk.flag_setFlag_self (b : Blk) (a i : Nat) (v : Bool) (hw : i < 32) : (b.setFlag a i v).flag a i = v := by
  rw [Blk.flag, Blk.setFlag, Blk.rdN_setFld_self b a i i _ (Nat.le_refl i) hw, bit_eq_bits, bits_putBits_self _ _ _ _ (Nat.le_refl i)]
  cases v <;> simp [b2n]

theorem Blk.rdN_count_self (b : Blk) (a n : Nat) : (b.count a n).rdN a = sat32 (b.rdN a + n) := by
  simp only [Blk.count, Blk.rdN, Blk.rd_wrN_self, BitVec.toNat_ofNat]
  exact Nat.mod_eq_of_lt (Nat.lt_of_le_of_lt (sat32_le _) (by decide))

end Sys2Proof.Machine
end

