-- ==== Sys2Proof/Laws/State.lean ====
section
/-!
SUPPORT. The block's fields under its updates: an update changes the one field it names. One lemma per field per update, each by `rfl`.
-/
namespace Sys2Proof.Machine

variable (b : Blk)

/-! `wr` -/

@[simp] theorem Blk.wr_latches (a : Nat) (v : Word) : (b.wr a v).latches = b.latches := rfl
@[simp] theorem Blk.wr_now (a : Nat) (v : Word) : (b.wr a v).now = b.now := rfl
@[simp] theorem Blk.wr_raised (a : Nat) (v : Word) : (b.wr a v).raised = b.raised := rfl
@[simp] theorem Blk.wr_raisedAt (a : Nat) (v : Word) : (b.wr a v).raisedAt = b.raisedAt := rfl
@[simp] theorem Blk.wr_freeCount (a : Nat) (v : Word) : (b.wr a v).freeCount = b.freeCount := rfl
@[simp] theorem Blk.wr_out (a : Nat) (v : Word) : (b.wr a v).out = b.out := rfl
@[simp] theorem Blk.wr_wiping (a : Nat) (v : Word) : (b.wr a v).wiping = b.wiping := rfl
@[simp] theorem Blk.wr_regionBlock (a : Nat) (v : Word) : (b.wr a v).regionBlock = b.regionBlock := rfl
@[simp] theorem Blk.wr_spareBlocks (a : Nat) (v : Word) : (b.wr a v).spareBlocks = b.spareBlocks := rfl
@[simp] theorem Blk.wr_regionStage (a : Nat) (v : Word) : (b.wr a v).regionStage = b.regionStage := rfl
@[simp] theorem Blk.wr_atlasWaiting (a : Nat) (v : Word) : (b.wr a v).atlasWaiting = b.atlasWaiting := rfl
@[simp] theorem Blk.wr_atlasCommit (a : Nat) (v : Word) : (b.wr a v).atlasCommit = b.atlasCommit := rfl
@[simp] theorem Blk.wr_tbs (a : Nat) (v : Word) : (b.wr a v).tbs = b.tbs := rfl
@[simp] theorem Blk.wr_tsq (a : Nat) (v : Word) : (b.wr a v).tsq = b.tsq := rfl
@[simp] theorem Blk.wr_tsqLost (a : Nat) (v : Word) : (b.wr a v).tsqLost = b.tsqLost := rfl
@[simp] theorem Blk.wr_synceOnSec (a : Nat) (v : Word) : (b.wr a v).synceOnSec = b.synceOnSec := rfl
@[simp] theorem Blk.wr_syncePriLost (a : Nat) (v : Word) : (b.wr a v).syncePriLost = b.syncePriLost := rfl
@[simp] theorem Blk.wr_synceSecLost (a : Nat) (v : Word) : (b.wr a v).synceSecLost = b.synceSecLost := rfl
@[simp] theorem Blk.wr_synceHist (a : Nat) (v : Word) : (b.wr a v).synceHist = b.synceHist := rfl
@[simp] theorem Blk.wr_staged (a : Nat) (v : Word) : (b.wr a v).staged = b.staged := rfl
@[simp] theorem Blk.wr_mers (a : Nat) (v : Word) : (b.wr a v).mers = b.mers := rfl
@[simp] theorem Blk.wr_wpts (a : Nat) (v : Word) : (b.wr a v).wpts = b.wpts := rfl
@[simp] theorem Blk.wr_wptDue (a : Nat) (v : Word) : (b.wr a v).wptDue = b.wptDue := rfl
@[simp] theorem Blk.wr_wptBusy (a : Nat) (v : Word) : (b.wr a v).wptBusy = b.wptBusy := rfl
@[simp] theorem Blk.wr_wptGone (a : Nat) (v : Word) : (b.wr a v).wptGone = b.wptGone := rfl
@[simp] theorem Blk.wr_wptFired (a : Nat) (v : Word) : (b.wr a v).wptFired = b.wptFired := rfl
@[simp] theorem Blk.wr_evtQueue (a : Nat) (v : Word) : (b.wr a v).evtQueue = b.evtQueue := rfl
@[simp] theorem Blk.wr_evtLevel (a : Nat) (v : Word) : (b.wr a v).evtLevel = b.evtLevel := rfl
@[simp] theorem Blk.wr_evtPin (a : Nat) (v : Word) : (b.wr a v).evtPin = b.evtPin := rfl
@[simp] theorem Blk.wr_evtPulse (a : Nat) (v : Word) : (b.wr a v).evtPulse = b.evtPulse := rfl
@[simp] theorem Blk.wr_evtIn0 (a : Nat) (v : Word) : (b.wr a v).evtIn0 = b.evtIn0 := rfl
@[simp] theorem Blk.wr_ppsEnd (a : Nat) (v : Word) : (b.wr a v).ppsEnd = b.ppsEnd := rfl
@[simp] theorem Blk.wr_ppsLevel (a : Nat) (v : Word) : (b.wr a v).ppsLevel = b.ppsLevel := rfl
@[simp] theorem Blk.wr_evtIn (a : Nat) (v : Word) : (b.wr a v).evtIn = b.evtIn := rfl
@[simp] theorem Blk.wr_evtLost (a : Nat) (v : Word) : (b.wr a v).evtLost = b.evtLost := rfl
@[simp] theorem Blk.wr_keys (a : Nat) (v : Word) : (b.wr a v).keys = b.keys := rfl
@[simp] theorem Blk.wr_nonces (a : Nat) (v : Word) : (b.wr a v).nonces = b.nonces := rfl
@[simp] theorem Blk.wr_noncesSaved (a : Nat) (v : Word) : (b.wr a v).noncesSaved = b.noncesSaved := rfl
@[simp] theorem Blk.wr_bearingSeq (a : Nat) (v : Word) : (b.wr a v).bearingSeq = b.bearingSeq := rfl
@[simp] theorem Blk.wr_cnv (a : Nat) (v : Word) : (b.wr a v).cnv = b.cnv := rfl
@[simp] theorem Blk.wr_stc (a : Nat) (v : Word) : (b.wr a v).stc = b.stc := rfl
@[simp] theorem Blk.wr_e131Bank (a : Nat) (v : Word) : (b.wr a v).e131Bank = b.e131Bank := rfl
@[simp] theorem Blk.wr_drvGot (a : Nat) (v : Word) : (b.wr a v).drvGot = b.drvGot := rfl
@[simp] theorem Blk.wr_strs (a : Nat) (v : Word) : (b.wr a v).strs = b.strs := rfl
@[simp] theorem Blk.wr_pairG (a : Nat) (v : Word) : (b.wr a v).pairG = b.pairG := rfl
@[simp] theorem Blk.wr_nodes (a : Nat) (v : Word) : (b.wr a v).nodes = b.nodes := rfl
@[simp] theorem Blk.wr_alts (a : Nat) (v : Word) : (b.wr a v).alts = b.alts := rfl
@[simp] theorem Blk.wr_e131Rx (a : Nat) (v : Word) : (b.wr a v).e131Rx = b.e131Rx := rfl
@[simp] theorem Blk.wr_e131Syncs (a : Nat) (v : Word) : (b.wr a v).e131Syncs = b.e131Syncs := rfl
@[simp] theorem Blk.wr_e131TxSeq (a : Nat) (v : Word) : (b.wr a v).e131TxSeq = b.e131TxSeq := rfl
@[simp] theorem Blk.wr_e131SyncSeq (a : Nat) (v : Word) : (b.wr a v).e131SyncSeq = b.e131SyncSeq := rfl
@[simp] theorem Blk.wr_e131Term (a : Nat) (v : Word) : (b.wr a v).e131Term = b.e131Term := rfl
@[simp] theorem Blk.wr_drv (a : Nat) (v : Word) : (b.wr a v).drv = b.drv := rfl
@[simp] theorem Blk.wr_trk (a : Nat) (v : Word) : (b.wr a v).trk = b.trk := rfl
@[simp] theorem Blk.wr_pair (a : Nat) (v : Word) : (b.wr a v).pair = b.pair := rfl
@[simp] theorem Blk.wr_deviceId (a : Nat) (v : Word) : (b.wr a v).deviceId = b.deviceId := rfl
@[simp] theorem Blk.wr_host (a : Nat) (v : Word) : (b.wr a v).host = b.host := rfl
@[simp] theorem Blk.wr_mbxLate (a : Nat) (v : Word) : (b.wr a v).mbxLate = b.mbxLate := rfl
@[simp] theorem Blk.wr_lockWon (a : Nat) (v : Word) : (b.wr a v).lockWon = b.lockWon := rfl
@[simp] theorem Blk.wr_firm (a : Nat) (v : Word) : (b.wr a v).firm = b.firm := rfl
@[simp] theorem Blk.wr_dma (a : Nat) (v : Word) : (b.wr a v).dma = b.dma := rfl
@[simp] theorem Blk.wr_skn (a : Nat) (v : Word) : (b.wr a v).skn = b.skn := rfl
@[simp] theorem Blk.wr_crcCount (a : Nat) (v : Word) : (b.wr a v).crcCount = b.crcCount := rfl
@[simp] theorem Blk.wr_crcSet (a : Nat) (v : Word) : (b.wr a v).crcSet = b.crcSet := rfl
@[simp] theorem Blk.wr_crcEnded (a : Nat) (v : Word) : (b.wr a v).crcEnded = b.crcEnded := rfl
@[simp] theorem Blk.wr_cycAt (a : Nat) (v : Word) : (b.wr a v).cycAt = b.cycAt := rfl
@[simp] theorem Blk.wr_otp (a : Nat) (v : Word) : (b.wr a v).otp = b.otp := rfl
@[simp] theorem Blk.wr_pwr (a : Nat) (v : Word) : (b.wr a v).pwr = b.pwr := rfl
@[simp] theorem Blk.wr_life (a : Nat) (v : Word) : (b.wr a v).life = b.life := rfl
@[simp] theorem Blk.wr_fwu (a : Nat) (v : Word) : (b.wr a v).fwu = b.fwu := rfl
@[simp] theorem Blk.wr_log (a : Nat) (v : Word) : (b.wr a v).log = b.log := rfl
@[simp] theorem Blk.wr_lifeNow (a : Nat) (v : Word) : (b.wr a v).lifeNow = b.lifeNow := rfl
@[simp] theorem Blk.wr_cal (a : Nat) (v : Word) : (b.wr a v).cal = b.cal := rfl

/-! `wrN` -/

@[simp] theorem Blk.wrN_latches (a n : Nat) : (b.wrN a n).latches = b.latches := rfl
@[simp] theorem Blk.wrN_now (a n : Nat) : (b.wrN a n).now = b.now := rfl
@[simp] theorem Blk.wrN_raised (a n : Nat) : (b.wrN a n).raised = b.raised := rfl
@[simp] theorem Blk.wrN_raisedAt (a n : Nat) : (b.wrN a n).raisedAt = b.raisedAt := rfl
@[simp] theorem Blk.wrN_freeCount (a n : Nat) : (b.wrN a n).freeCount = b.freeCount := rfl
@[simp] theorem Blk.wrN_out (a n : Nat) : (b.wrN a n).out = b.out := rfl
@[simp] theorem Blk.wrN_wiping (a n : Nat) : (b.wrN a n).wiping = b.wiping := rfl
@[simp] theorem Blk.wrN_regionBlock (a n : Nat) : (b.wrN a n).regionBlock = b.regionBlock := rfl
@[simp] theorem Blk.wrN_spareBlocks (a n : Nat) : (b.wrN a n).spareBlocks = b.spareBlocks := rfl
@[simp] theorem Blk.wrN_regionStage (a n : Nat) : (b.wrN a n).regionStage = b.regionStage := rfl
@[simp] theorem Blk.wrN_atlasWaiting (a n : Nat) : (b.wrN a n).atlasWaiting = b.atlasWaiting := rfl
@[simp] theorem Blk.wrN_atlasCommit (a n : Nat) : (b.wrN a n).atlasCommit = b.atlasCommit := rfl
@[simp] theorem Blk.wrN_tbs (a n : Nat) : (b.wrN a n).tbs = b.tbs := rfl
@[simp] theorem Blk.wrN_tsq (a n : Nat) : (b.wrN a n).tsq = b.tsq := rfl
@[simp] theorem Blk.wrN_tsqLost (a n : Nat) : (b.wrN a n).tsqLost = b.tsqLost := rfl
@[simp] theorem Blk.wrN_synceOnSec (a n : Nat) : (b.wrN a n).synceOnSec = b.synceOnSec := rfl
@[simp] theorem Blk.wrN_syncePriLost (a n : Nat) : (b.wrN a n).syncePriLost = b.syncePriLost := rfl
@[simp] theorem Blk.wrN_synceSecLost (a n : Nat) : (b.wrN a n).synceSecLost = b.synceSecLost := rfl
@[simp] theorem Blk.wrN_synceHist (a n : Nat) : (b.wrN a n).synceHist = b.synceHist := rfl
@[simp] theorem Blk.wrN_staged (a n : Nat) : (b.wrN a n).staged = b.staged := rfl
@[simp] theorem Blk.wrN_mers (a n : Nat) : (b.wrN a n).mers = b.mers := rfl
@[simp] theorem Blk.wrN_wpts (a n : Nat) : (b.wrN a n).wpts = b.wpts := rfl
@[simp] theorem Blk.wrN_wptDue (a n : Nat) : (b.wrN a n).wptDue = b.wptDue := rfl
@[simp] theorem Blk.wrN_wptBusy (a n : Nat) : (b.wrN a n).wptBusy = b.wptBusy := rfl
@[simp] theorem Blk.wrN_wptGone (a n : Nat) : (b.wrN a n).wptGone = b.wptGone := rfl
@[simp] theorem Blk.wrN_wptFired (a n : Nat) : (b.wrN a n).wptFired = b.wptFired := rfl
@[simp] theorem Blk.wrN_evtQueue (a n : Nat) : (b.wrN a n).evtQueue = b.evtQueue := rfl
@[simp] theorem Blk.wrN_evtLevel (a n : Nat) : (b.wrN a n).evtLevel = b.evtLevel := rfl
@[simp] theorem Blk.wrN_evtPin (a n : Nat) : (b.wrN a n).evtPin = b.evtPin := rfl
@[simp] theorem Blk.wrN_evtPulse (a n : Nat) : (b.wrN a n).evtPulse = b.evtPulse := rfl
@[simp] theorem Blk.wrN_evtIn0 (a n : Nat) : (b.wrN a n).evtIn0 = b.evtIn0 := rfl
@[simp] theorem Blk.wrN_ppsEnd (a n : Nat) : (b.wrN a n).ppsEnd = b.ppsEnd := rfl
@[simp] theorem Blk.wrN_ppsLevel (a n : Nat) : (b.wrN a n).ppsLevel = b.ppsLevel := rfl
@[simp] theorem Blk.wrN_evtIn (a n : Nat) : (b.wrN a n).evtIn = b.evtIn := rfl
@[simp] theorem Blk.wrN_evtLost (a n : Nat) : (b.wrN a n).evtLost = b.evtLost := rfl
@[simp] theorem Blk.wrN_keys (a n : Nat) : (b.wrN a n).keys = b.keys := rfl
@[simp] theorem Blk.wrN_nonces (a n : Nat) : (b.wrN a n).nonces = b.nonces := rfl
@[simp] theorem Blk.wrN_noncesSaved (a n : Nat) : (b.wrN a n).noncesSaved = b.noncesSaved := rfl
@[simp] theorem Blk.wrN_bearingSeq (a n : Nat) : (b.wrN a n).bearingSeq = b.bearingSeq := rfl
@[simp] theorem Blk.wrN_cnv (a n : Nat) : (b.wrN a n).cnv = b.cnv := rfl
@[simp] theorem Blk.wrN_stc (a n : Nat) : (b.wrN a n).stc = b.stc := rfl
@[simp] theorem Blk.wrN_e131Bank (a n : Nat) : (b.wrN a n).e131Bank = b.e131Bank := rfl
@[simp] theorem Blk.wrN_drvGot (a n : Nat) : (b.wrN a n).drvGot = b.drvGot := rfl
@[simp] theorem Blk.wrN_strs (a n : Nat) : (b.wrN a n).strs = b.strs := rfl
@[simp] theorem Blk.wrN_pairG (a n : Nat) : (b.wrN a n).pairG = b.pairG := rfl
@[simp] theorem Blk.wrN_nodes (a n : Nat) : (b.wrN a n).nodes = b.nodes := rfl
@[simp] theorem Blk.wrN_alts (a n : Nat) : (b.wrN a n).alts = b.alts := rfl
@[simp] theorem Blk.wrN_e131Rx (a n : Nat) : (b.wrN a n).e131Rx = b.e131Rx := rfl
@[simp] theorem Blk.wrN_e131Syncs (a n : Nat) : (b.wrN a n).e131Syncs = b.e131Syncs := rfl
@[simp] theorem Blk.wrN_e131TxSeq (a n : Nat) : (b.wrN a n).e131TxSeq = b.e131TxSeq := rfl
@[simp] theorem Blk.wrN_e131SyncSeq (a n : Nat) : (b.wrN a n).e131SyncSeq = b.e131SyncSeq := rfl
@[simp] theorem Blk.wrN_e131Term (a n : Nat) : (b.wrN a n).e131Term = b.e131Term := rfl
@[simp] theorem Blk.wrN_drv (a n : Nat) : (b.wrN a n).drv = b.drv := rfl
@[simp] theorem Blk.wrN_trk (a n : Nat) : (b.wrN a n).trk = b.trk := rfl
@[simp] theorem Blk.wrN_pair (a n : Nat) : (b.wrN a n).pair = b.pair := rfl
@[simp] theorem Blk.wrN_deviceId (a n : Nat) : (b.wrN a n).deviceId = b.deviceId := rfl
@[simp] theorem Blk.wrN_host (a n : Nat) : (b.wrN a n).host = b.host := rfl
@[simp] theorem Blk.wrN_mbxLate (a n : Nat) : (b.wrN a n).mbxLate = b.mbxLate := rfl
@[simp] theorem Blk.wrN_lockWon (a n : Nat) : (b.wrN a n).lockWon = b.lockWon := rfl
@[simp] theorem Blk.wrN_firm (a n : Nat) : (b.wrN a n).firm = b.firm := rfl
@[simp] theorem Blk.wrN_dma (a n : Nat) : (b.wrN a n).dma = b.dma := rfl
@[simp] theorem Blk.wrN_skn (a n : Nat) : (b.wrN a n).skn = b.skn := rfl
@[simp] theorem Blk.wrN_crcCount (a n : Nat) : (b.wrN a n).crcCount = b.crcCount := rfl
@[simp] theorem Blk.wrN_crcSet (a n : Nat) : (b.wrN a n).crcSet = b.crcSet := rfl
@[simp] theorem Blk.wrN_crcEnded (a n : Nat) : (b.wrN a n).crcEnded = b.crcEnded := rfl
@[simp] theorem Blk.wrN_cycAt (a n : Nat) : (b.wrN a n).cycAt = b.cycAt := rfl
@[simp] theorem Blk.wrN_otp (a n : Nat) : (b.wrN a n).otp = b.otp := rfl
@[simp] theorem Blk.wrN_pwr (a n : Nat) : (b.wrN a n).pwr = b.pwr := rfl
@[simp] theorem Blk.wrN_life (a n : Nat) : (b.wrN a n).life = b.life := rfl
@[simp] theorem Blk.wrN_fwu (a n : Nat) : (b.wrN a n).fwu = b.fwu := rfl
@[simp] theorem Blk.wrN_log (a n : Nat) : (b.wrN a n).log = b.log := rfl
@[simp] theorem Blk.wrN_lifeNow (a n : Nat) : (b.wrN a n).lifeNow = b.lifeNow := rfl
@[simp] theorem Blk.wrN_cal (a n : Nat) : (b.wrN a n).cal = b.cal := rfl

/-! `setFld` -/

@[simp] theorem Blk.setFld_latches (a hi lo v : Nat) : (b.setFld a hi lo v).latches = b.latches := rfl
@[simp] theorem Blk.setFld_now (a hi lo v : Nat) : (b.setFld a hi lo v).now = b.now := rfl
@[simp] theorem Blk.setFld_raised (a hi lo v : Nat) : (b.setFld a hi lo v).raised = b.raised := rfl
@[simp] theorem Blk.setFld_raisedAt (a hi lo v : Nat) : (b.setFld a hi lo v).raisedAt = b.raisedAt := rfl
@[simp] theorem Blk.setFld_freeCount (a hi lo v : Nat) : (b.setFld a hi lo v).freeCount = b.freeCount := rfl
@[simp] theorem Blk.setFld_out (a hi lo v : Nat) : (b.setFld a hi lo v).out = b.out := rfl
@[simp] theorem Blk.setFld_wiping (a hi lo v : Nat) : (b.setFld a hi lo v).wiping = b.wiping := rfl
@[simp] theorem Blk.setFld_regionBlock (a hi lo v : Nat) : (b.setFld a hi lo v).regionBlock = b.regionBlock := rfl
@[simp] theorem Blk.setFld_spareBlocks (a hi lo v : Nat) : (b.setFld a hi lo v).spareBlocks = b.spareBlocks := rfl
@[simp] theorem Blk.setFld_regionStage (a hi lo v : Nat) : (b.setFld a hi lo v).regionStage = b.regionStage := rfl
@[simp] theorem Blk.setFld_atlasWaiting (a hi lo v : Nat) : (b.setFld a hi lo v).atlasWaiting = b.atlasWaiting := rfl
@[simp] theorem Blk.setFld_atlasCommit (a hi lo v : Nat) : (b.setFld a hi lo v).atlasCommit = b.atlasCommit := rfl
@[simp] theorem Blk.setFld_tbs (a hi lo v : Nat) : (b.setFld a hi lo v).tbs = b.tbs := rfl
@[simp] theorem Blk.setFld_tsq (a hi lo v : Nat) : (b.setFld a hi lo v).tsq = b.tsq := rfl
@[simp] theorem Blk.setFld_tsqLost (a hi lo v : Nat) : (b.setFld a hi lo v).tsqLost = b.tsqLost := rfl
@[simp] theorem Blk.setFld_synceOnSec (a hi lo v : Nat) : (b.setFld a hi lo v).synceOnSec = b.synceOnSec := rfl
@[simp] theorem Blk.setFld_syncePriLost (a hi lo v : Nat) : (b.setFld a hi lo v).syncePriLost = b.syncePriLost := rfl
@[simp] theorem Blk.setFld_synceSecLost (a hi lo v : Nat) : (b.setFld a hi lo v).synceSecLost = b.synceSecLost := rfl
@[simp] theorem Blk.setFld_synceHist (a hi lo v : Nat) : (b.setFld a hi lo v).synceHist = b.synceHist := rfl
@[simp] theorem Blk.setFld_staged (a hi lo v : Nat) : (b.setFld a hi lo v).staged = b.staged := rfl
@[simp] theorem Blk.setFld_mers (a hi lo v : Nat) : (b.setFld a hi lo v).mers = b.mers := rfl
@[simp] theorem Blk.setFld_wpts (a hi lo v : Nat) : (b.setFld a hi lo v).wpts = b.wpts := rfl
@[simp] theorem Blk.setFld_wptDue (a hi lo v : Nat) : (b.setFld a hi lo v).wptDue = b.wptDue := rfl
@[simp] theorem Blk.setFld_wptBusy (a hi lo v : Nat) : (b.setFld a hi lo v).wptBusy = b.wptBusy := rfl
@[simp] theorem Blk.setFld_wptGone (a hi lo v : Nat) : (b.setFld a hi lo v).wptGone = b.wptGone := rfl
@[simp] theorem Blk.setFld_wptFired (a hi lo v : Nat) : (b.setFld a hi lo v).wptFired = b.wptFired := rfl
@[simp] theorem Blk.setFld_evtQueue (a hi lo v : Nat) : (b.setFld a hi lo v).evtQueue = b.evtQueue := rfl
@[simp] theorem Blk.setFld_evtLevel (a hi lo v : Nat) : (b.setFld a hi lo v).evtLevel = b.evtLevel := rfl
@[simp] theorem Blk.setFld_evtPin (a hi lo v : Nat) : (b.setFld a hi lo v).evtPin = b.evtPin := rfl
@[simp] theorem Blk.setFld_evtPulse (a hi lo v : Nat) : (b.setFld a hi lo v).evtPulse = b.evtPulse := rfl
@[simp] theorem Blk.setFld_evtIn0 (a hi lo v : Nat) : (b.setFld a hi lo v).evtIn0 = b.evtIn0 := rfl
@[simp] theorem Blk.setFld_ppsEnd (a hi lo v : Nat) : (b.setFld a hi lo v).ppsEnd = b.ppsEnd := rfl
@[simp] theorem Blk.setFld_ppsLevel (a hi lo v : Nat) : (b.setFld a hi lo v).ppsLevel = b.ppsLevel := rfl
@[simp] theorem Blk.setFld_evtIn (a hi lo v : Nat) : (b.setFld a hi lo v).evtIn = b.evtIn := rfl
@[simp] theorem Blk.setFld_evtLost (a hi lo v : Nat) : (b.setFld a hi lo v).evtLost = b.evtLost := rfl
@[simp] theorem Blk.setFld_keys (a hi lo v : Nat) : (b.setFld a hi lo v).keys = b.keys := rfl
@[simp] theorem Blk.setFld_nonces (a hi lo v : Nat) : (b.setFld a hi lo v).nonces = b.nonces := rfl
@[simp] theorem Blk.setFld_noncesSaved (a hi lo v : Nat) : (b.setFld a hi lo v).noncesSaved = b.noncesSaved := rfl
@[simp] theorem Blk.setFld_bearingSeq (a hi lo v : Nat) : (b.setFld a hi lo v).bearingSeq = b.bearingSeq := rfl
@[simp] theorem Blk.setFld_cnv (a hi lo v : Nat) : (b.setFld a hi lo v).cnv = b.cnv := rfl
@[simp] theorem Blk.setFld_stc (a hi lo v : Nat) : (b.setFld a hi lo v).stc = b.stc := rfl
@[simp] theorem Blk.setFld_e131Bank (a hi lo v : Nat) : (b.setFld a hi lo v).e131Bank = b.e131Bank := rfl
@[simp] theorem Blk.setFld_drvGot (a hi lo v : Nat) : (b.setFld a hi lo v).drvGot = b.drvGot := rfl
@[simp] theorem Blk.setFld_strs (a hi lo v : Nat) : (b.setFld a hi lo v).strs = b.strs := rfl
@[simp] theorem Blk.setFld_pairG (a hi lo v : Nat) : (b.setFld a hi lo v).pairG = b.pairG := rfl
@[simp] theorem Blk.setFld_nodes (a hi lo v : Nat) : (b.setFld a hi lo v).nodes = b.nodes := rfl
@[simp] theorem Blk.setFld_alts (a hi lo v : Nat) : (b.setFld a hi lo v).alts = b.alts := rfl
@[simp] theorem Blk.setFld_e131Rx (a hi lo v : Nat) : (b.setFld a hi lo v).e131Rx = b.e131Rx := rfl
@[simp] theorem Blk.setFld_e131Syncs (a hi lo v : Nat) : (b.setFld a hi lo v).e131Syncs = b.e131Syncs := rfl
@[simp] theorem Blk.setFld_e131TxSeq (a hi lo v : Nat) : (b.setFld a hi lo v).e131TxSeq = b.e131TxSeq := rfl
@[simp] theorem Blk.setFld_e131SyncSeq (a hi lo v : Nat) : (b.setFld a hi lo v).e131SyncSeq = b.e131SyncSeq := rfl
@[simp] theorem Blk.setFld_e131Term (a hi lo v : Nat) : (b.setFld a hi lo v).e131Term = b.e131Term := rfl
@[simp] theorem Blk.setFld_drv (a hi lo v : Nat) : (b.setFld a hi lo v).drv = b.drv := rfl
@[simp] theorem Blk.setFld_trk (a hi lo v : Nat) : (b.setFld a hi lo v).trk = b.trk := rfl
@[simp] theorem Blk.setFld_pair (a hi lo v : Nat) : (b.setFld a hi lo v).pair = b.pair := rfl
@[simp] theorem Blk.setFld_deviceId (a hi lo v : Nat) : (b.setFld a hi lo v).deviceId = b.deviceId := rfl
@[simp] theorem Blk.setFld_host (a hi lo v : Nat) : (b.setFld a hi lo v).host = b.host := rfl
@[simp] theorem Blk.setFld_mbxLate (a hi lo v : Nat) : (b.setFld a hi lo v).mbxLate = b.mbxLate := rfl
@[simp] theorem Blk.setFld_lockWon (a hi lo v : Nat) : (b.setFld a hi lo v).lockWon = b.lockWon := rfl
@[simp] theorem Blk.setFld_firm (a hi lo v : Nat) : (b.setFld a hi lo v).firm = b.firm := rfl
@[simp] theorem Blk.setFld_dma (a hi lo v : Nat) : (b.setFld a hi lo v).dma = b.dma := rfl
@[simp] theorem Blk.setFld_skn (a hi lo v : Nat) : (b.setFld a hi lo v).skn = b.skn := rfl
@[simp] theorem Blk.setFld_crcCount (a hi lo v : Nat) : (b.setFld a hi lo v).crcCount = b.crcCount := rfl
@[simp] theorem Blk.setFld_crcSet (a hi lo v : Nat) : (b.setFld a hi lo v).crcSet = b.crcSet := rfl
@[simp] theorem Blk.setFld_crcEnded (a hi lo v : Nat) : (b.setFld a hi lo v).crcEnded = b.crcEnded := rfl
@[simp] theorem Blk.setFld_cycAt (a hi lo v : Nat) : (b.setFld a hi lo v).cycAt = b.cycAt := rfl
@[simp] theorem Blk.setFld_otp (a hi lo v : Nat) : (b.setFld a hi lo v).otp = b.otp := rfl
@[simp] theorem Blk.setFld_pwr (a hi lo v : Nat) : (b.setFld a hi lo v).pwr = b.pwr := rfl
@[simp] theorem Blk.setFld_life (a hi lo v : Nat) : (b.setFld a hi lo v).life = b.life := rfl
@[simp] theorem Blk.setFld_fwu (a hi lo v : Nat) : (b.setFld a hi lo v).fwu = b.fwu := rfl
@[simp] theorem Blk.setFld_log (a hi lo v : Nat) : (b.setFld a hi lo v).log = b.log := rfl
@[simp] theorem Blk.setFld_lifeNow (a hi lo v : Nat) : (b.setFld a hi lo v).lifeNow = b.lifeNow := rfl
@[simp] theorem Blk.setFld_cal (a hi lo v : Nat) : (b.setFld a hi lo v).cal = b.cal := rfl

/-! `setFlag` -/

@[simp] theorem Blk.setFlag_latches (a i : Nat) (v : Bool) : (b.setFlag a i v).latches = b.latches := rfl
@[simp] theorem Blk.setFlag_now (a i : Nat) (v : Bool) : (b.setFlag a i v).now = b.now := rfl
@[simp] theorem Blk.setFlag_raised (a i : Nat) (v : Bool) : (b.setFlag a i v).raised = b.raised := rfl
@[simp] theorem Blk.setFlag_raisedAt (a i : Nat) (v : Bool) : (b.setFlag a i v).raisedAt = b.raisedAt := rfl
@[simp] theorem Blk.setFlag_freeCount (a i : Nat) (v : Bool) : (b.setFlag a i v).freeCount = b.freeCount := rfl
@[simp] theorem Blk.setFlag_out (a i : Nat) (v : Bool) : (b.setFlag a i v).out = b.out := rfl
@[simp] theorem Blk.setFlag_wiping (a i : Nat) (v : Bool) : (b.setFlag a i v).wiping = b.wiping := rfl
@[simp] theorem Blk.setFlag_regionBlock (a i : Nat) (v : Bool) : (b.setFlag a i v).regionBlock = b.regionBlock := rfl
@[simp] theorem Blk.setFlag_spareBlocks (a i : Nat) (v : Bool) : (b.setFlag a i v).spareBlocks = b.spareBlocks := rfl
@[simp] theorem Blk.setFlag_regionStage (a i : Nat) (v : Bool) : (b.setFlag a i v).regionStage = b.regionStage := rfl
@[simp] theorem Blk.setFlag_atlasWaiting (a i : Nat) (v : Bool) : (b.setFlag a i v).atlasWaiting = b.atlasWaiting := rfl
@[simp] theorem Blk.setFlag_atlasCommit (a i : Nat) (v : Bool) : (b.setFlag a i v).atlasCommit = b.atlasCommit := rfl
@[simp] theorem Blk.setFlag_tbs (a i : Nat) (v : Bool) : (b.setFlag a i v).tbs = b.tbs := rfl
@[simp] theorem Blk.setFlag_tsq (a i : Nat) (v : Bool) : (b.setFlag a i v).tsq = b.tsq := rfl
@[simp] theorem Blk.setFlag_tsqLost (a i : Nat) (v : Bool) : (b.setFlag a i v).tsqLost = b.tsqLost := rfl
@[simp] theorem Blk.setFlag_synceOnSec (a i : Nat) (v : Bool) : (b.setFlag a i v).synceOnSec = b.synceOnSec := rfl
@[simp] theorem Blk.setFlag_syncePriLost (a i : Nat) (v : Bool) : (b.setFlag a i v).syncePriLost = b.syncePriLost := rfl
@[simp] theorem Blk.setFlag_synceSecLost (a i : Nat) (v : Bool) : (b.setFlag a i v).synceSecLost = b.synceSecLost := rfl
@[simp] theorem Blk.setFlag_synceHist (a i : Nat) (v : Bool) : (b.setFlag a i v).synceHist = b.synceHist := rfl
@[simp] theorem Blk.setFlag_staged (a i : Nat) (v : Bool) : (b.setFlag a i v).staged = b.staged := rfl
@[simp] theorem Blk.setFlag_mers (a i : Nat) (v : Bool) : (b.setFlag a i v).mers = b.mers := rfl
@[simp] theorem Blk.setFlag_wpts (a i : Nat) (v : Bool) : (b.setFlag a i v).wpts = b.wpts := rfl
@[simp] theorem Blk.setFlag_wptDue (a i : Nat) (v : Bool) : (b.setFlag a i v).wptDue = b.wptDue := rfl
@[simp] theorem Blk.setFlag_wptBusy (a i : Nat) (v : Bool) : (b.setFlag a i v).wptBusy = b.wptBusy := rfl
@[simp] theorem Blk.setFlag_wptGone (a i : Nat) (v : Bool) : (b.setFlag a i v).wptGone = b.wptGone := rfl
@[simp] theorem Blk.setFlag_wptFired (a i : Nat) (v : Bool) : (b.setFlag a i v).wptFired = b.wptFired := rfl
@[simp] theorem Blk.setFlag_evtQueue (a i : Nat) (v : Bool) : (b.setFlag a i v).evtQueue = b.evtQueue := rfl
@[simp] theorem Blk.setFlag_evtLevel (a i : Nat) (v : Bool) : (b.setFlag a i v).evtLevel = b.evtLevel := rfl
@[simp] theorem Blk.setFlag_evtPin (a i : Nat) (v : Bool) : (b.setFlag a i v).evtPin = b.evtPin := rfl
@[simp] theorem Blk.setFlag_evtPulse (a i : Nat) (v : Bool) : (b.setFlag a i v).evtPulse = b.evtPulse := rfl
@[simp] theorem Blk.setFlag_evtIn0 (a i : Nat) (v : Bool) : (b.setFlag a i v).evtIn0 = b.evtIn0 := rfl
@[simp] theorem Blk.setFlag_ppsEnd (a i : Nat) (v : Bool) : (b.setFlag a i v).ppsEnd = b.ppsEnd := rfl
@[simp] theorem Blk.setFlag_ppsLevel (a i : Nat) (v : Bool) : (b.setFlag a i v).ppsLevel = b.ppsLevel := rfl
@[simp] theorem Blk.setFlag_evtIn (a i : Nat) (v : Bool) : (b.setFlag a i v).evtIn = b.evtIn := rfl
@[simp] theorem Blk.setFlag_evtLost (a i : Nat) (v : Bool) : (b.setFlag a i v).evtLost = b.evtLost := rfl
@[simp] theorem Blk.setFlag_keys (a i : Nat) (v : Bool) : (b.setFlag a i v).keys = b.keys := rfl
@[simp] theorem Blk.setFlag_nonces (a i : Nat) (v : Bool) : (b.setFlag a i v).nonces = b.nonces := rfl
@[simp] theorem Blk.setFlag_noncesSaved (a i : Nat) (v : Bool) : (b.setFlag a i v).noncesSaved = b.noncesSaved := rfl
@[simp] theorem Blk.setFlag_bearingSeq (a i : Nat) (v : Bool) : (b.setFlag a i v).bearingSeq = b.bearingSeq := rfl
@[simp] theorem Blk.setFlag_cnv (a i : Nat) (v : Bool) : (b.setFlag a i v).cnv = b.cnv := rfl
@[simp] theorem Blk.setFlag_stc (a i : Nat) (v : Bool) : (b.setFlag a i v).stc = b.stc := rfl
@[simp] theorem Blk.setFlag_e131Bank (a i : Nat) (v : Bool) : (b.setFlag a i v).e131Bank = b.e131Bank := rfl
@[simp] theorem Blk.setFlag_drvGot (a i : Nat) (v : Bool) : (b.setFlag a i v).drvGot = b.drvGot := rfl
@[simp] theorem Blk.setFlag_strs (a i : Nat) (v : Bool) : (b.setFlag a i v).strs = b.strs := rfl
@[simp] theorem Blk.setFlag_pairG (a i : Nat) (v : Bool) : (b.setFlag a i v).pairG = b.pairG := rfl
@[simp] theorem Blk.setFlag_nodes (a i : Nat) (v : Bool) : (b.setFlag a i v).nodes = b.nodes := rfl
@[simp] theorem Blk.setFlag_alts (a i : Nat) (v : Bool) : (b.setFlag a i v).alts = b.alts := rfl
@[simp] theorem Blk.setFlag_e131Rx (a i : Nat) (v : Bool) : (b.setFlag a i v).e131Rx = b.e131Rx := rfl
@[simp] theorem Blk.setFlag_e131Syncs (a i : Nat) (v : Bool) : (b.setFlag a i v).e131Syncs = b.e131Syncs := rfl
@[simp] theorem Blk.setFlag_e131TxSeq (a i : Nat) (v : Bool) : (b.setFlag a i v).e131TxSeq = b.e131TxSeq := rfl
@[simp] theorem Blk.setFlag_e131SyncSeq (a i : Nat) (v : Bool) : (b.setFlag a i v).e131SyncSeq = b.e131SyncSeq := rfl
@[simp] theorem Blk.setFlag_e131Term (a i : Nat) (v : Bool) : (b.setFlag a i v).e131Term = b.e131Term := rfl
@[simp] theorem Blk.setFlag_drv (a i : Nat) (v : Bool) : (b.setFlag a i v).drv = b.drv := rfl
@[simp] theorem Blk.setFlag_trk (a i : Nat) (v : Bool) : (b.setFlag a i v).trk = b.trk := rfl
@[simp] theorem Blk.setFlag_pair (a i : Nat) (v : Bool) : (b.setFlag a i v).pair = b.pair := rfl
@[simp] theorem Blk.setFlag_deviceId (a i : Nat) (v : Bool) : (b.setFlag a i v).deviceId = b.deviceId := rfl
@[simp] theorem Blk.setFlag_host (a i : Nat) (v : Bool) : (b.setFlag a i v).host = b.host := rfl
@[simp] theorem Blk.setFlag_mbxLate (a i : Nat) (v : Bool) : (b.setFlag a i v).mbxLate = b.mbxLate := rfl
@[simp] theorem Blk.setFlag_lockWon (a i : Nat) (v : Bool) : (b.setFlag a i v).lockWon = b.lockWon := rfl
@[simp] theorem Blk.setFlag_firm (a i : Nat) (v : Bool) : (b.setFlag a i v).firm = b.firm := rfl
@[simp] theorem Blk.setFlag_dma (a i : Nat) (v : Bool) : (b.setFlag a i v).dma = b.dma := rfl
@[simp] theorem Blk.setFlag_skn (a i : Nat) (v : Bool) : (b.setFlag a i v).skn = b.skn := rfl
@[simp] theorem Blk.setFlag_crcCount (a i : Nat) (v : Bool) : (b.setFlag a i v).crcCount = b.crcCount := rfl
@[simp] theorem Blk.setFlag_crcSet (a i : Nat) (v : Bool) : (b.setFlag a i v).crcSet = b.crcSet := rfl
@[simp] theorem Blk.setFlag_crcEnded (a i : Nat) (v : Bool) : (b.setFlag a i v).crcEnded = b.crcEnded := rfl
@[simp] theorem Blk.setFlag_cycAt (a i : Nat) (v : Bool) : (b.setFlag a i v).cycAt = b.cycAt := rfl
@[simp] theorem Blk.setFlag_otp (a i : Nat) (v : Bool) : (b.setFlag a i v).otp = b.otp := rfl
@[simp] theorem Blk.setFlag_pwr (a i : Nat) (v : Bool) : (b.setFlag a i v).pwr = b.pwr := rfl
@[simp] theorem Blk.setFlag_life (a i : Nat) (v : Bool) : (b.setFlag a i v).life = b.life := rfl
@[simp] theorem Blk.setFlag_fwu (a i : Nat) (v : Bool) : (b.setFlag a i v).fwu = b.fwu := rfl
@[simp] theorem Blk.setFlag_log (a i : Nat) (v : Bool) : (b.setFlag a i v).log = b.log := rfl
@[simp] theorem Blk.setFlag_lifeNow (a i : Nat) (v : Bool) : (b.setFlag a i v).lifeNow = b.lifeNow := rfl
@[simp] theorem Blk.setFlag_cal (a i : Nat) (v : Bool) : (b.setFlag a i v).cal = b.cal := rfl

/-! `noteRaised` -/

@[simp] theorem Blk.noteRaised_regs (a m : Nat) : (b.noteRaised a m).regs = b.regs := rfl
@[simp] theorem Blk.noteRaised_latches (a m : Nat) : (b.noteRaised a m).latches = b.latches := rfl
@[simp] theorem Blk.noteRaised_now (a m : Nat) : (b.noteRaised a m).now = b.now := rfl
@[simp] theorem Blk.noteRaised_freeCount (a m : Nat) : (b.noteRaised a m).freeCount = b.freeCount := rfl
@[simp] theorem Blk.noteRaised_out (a m : Nat) : (b.noteRaised a m).out = b.out := rfl
@[simp] theorem Blk.noteRaised_wiping (a m : Nat) : (b.noteRaised a m).wiping = b.wiping := rfl
@[simp] theorem Blk.noteRaised_regionBlock (a m : Nat) : (b.noteRaised a m).regionBlock = b.regionBlock := rfl
@[simp] theorem Blk.noteRaised_spareBlocks (a m : Nat) : (b.noteRaised a m).spareBlocks = b.spareBlocks := rfl
@[simp] theorem Blk.noteRaised_regionStage (a m : Nat) : (b.noteRaised a m).regionStage = b.regionStage := rfl
@[simp] theorem Blk.noteRaised_atlasWaiting (a m : Nat) : (b.noteRaised a m).atlasWaiting = b.atlasWaiting := rfl
@[simp] theorem Blk.noteRaised_atlasCommit (a m : Nat) : (b.noteRaised a m).atlasCommit = b.atlasCommit := rfl
@[simp] theorem Blk.noteRaised_tbs (a m : Nat) : (b.noteRaised a m).tbs = b.tbs := rfl
@[simp] theorem Blk.noteRaised_tsq (a m : Nat) : (b.noteRaised a m).tsq = b.tsq := rfl
@[simp] theorem Blk.noteRaised_tsqLost (a m : Nat) : (b.noteRaised a m).tsqLost = b.tsqLost := rfl
@[simp] theorem Blk.noteRaised_synceOnSec (a m : Nat) : (b.noteRaised a m).synceOnSec = b.synceOnSec := rfl
@[simp] theorem Blk.noteRaised_syncePriLost (a m : Nat) : (b.noteRaised a m).syncePriLost = b.syncePriLost := rfl
@[simp] theorem Blk.noteRaised_synceSecLost (a m : Nat) : (b.noteRaised a m).synceSecLost = b.synceSecLost := rfl
@[simp] theorem Blk.noteRaised_synceHist (a m : Nat) : (b.noteRaised a m).synceHist = b.synceHist := rfl
@[simp] theorem Blk.noteRaised_staged (a m : Nat) : (b.noteRaised a m).staged = b.staged := rfl
@[simp] theorem Blk.noteRaised_mers (a m : Nat) : (b.noteRaised a m).mers = b.mers := rfl
@[simp] theorem Blk.noteRaised_wpts (a m : Nat) : (b.noteRaised a m).wpts = b.wpts := rfl
@[simp] theorem Blk.noteRaised_wptDue (a m : Nat) : (b.noteRaised a m).wptDue = b.wptDue := rfl
@[simp] theorem Blk.noteRaised_wptBusy (a m : Nat) : (b.noteRaised a m).wptBusy = b.wptBusy := rfl
@[simp] theorem Blk.noteRaised_wptGone (a m : Nat) : (b.noteRaised a m).wptGone = b.wptGone := rfl
@[simp] theorem Blk.noteRaised_wptFired (a m : Nat) : (b.noteRaised a m).wptFired = b.wptFired := rfl
@[simp] theorem Blk.noteRaised_evtQueue (a m : Nat) : (b.noteRaised a m).evtQueue = b.evtQueue := rfl
@[simp] theorem Blk.noteRaised_evtLevel (a m : Nat) : (b.noteRaised a m).evtLevel = b.evtLevel := rfl
@[simp] theorem Blk.noteRaised_evtPin (a m : Nat) : (b.noteRaised a m).evtPin = b.evtPin := rfl
@[simp] theorem Blk.noteRaised_evtPulse (a m : Nat) : (b.noteRaised a m).evtPulse = b.evtPulse := rfl
@[simp] theorem Blk.noteRaised_evtIn0 (a m : Nat) : (b.noteRaised a m).evtIn0 = b.evtIn0 := rfl
@[simp] theorem Blk.noteRaised_ppsEnd (a m : Nat) : (b.noteRaised a m).ppsEnd = b.ppsEnd := rfl
@[simp] theorem Blk.noteRaised_ppsLevel (a m : Nat) : (b.noteRaised a m).ppsLevel = b.ppsLevel := rfl
@[simp] theorem Blk.noteRaised_evtIn (a m : Nat) : (b.noteRaised a m).evtIn = b.evtIn := rfl
@[simp] theorem Blk.noteRaised_evtLost (a m : Nat) : (b.noteRaised a m).evtLost = b.evtLost := rfl
@[simp] theorem Blk.noteRaised_keys (a m : Nat) : (b.noteRaised a m).keys = b.keys := rfl
@[simp] theorem Blk.noteRaised_nonces (a m : Nat) : (b.noteRaised a m).nonces = b.nonces := rfl
@[simp] theorem Blk.noteRaised_noncesSaved (a m : Nat) : (b.noteRaised a m).noncesSaved = b.noncesSaved := rfl
@[simp] theorem Blk.noteRaised_bearingSeq (a m : Nat) : (b.noteRaised a m).bearingSeq = b.bearingSeq := rfl
@[simp] theorem Blk.noteRaised_cnv (a m : Nat) : (b.noteRaised a m).cnv = b.cnv := rfl
@[simp] theorem Blk.noteRaised_stc (a m : Nat) : (b.noteRaised a m).stc = b.stc := rfl
@[simp] theorem Blk.noteRaised_e131Bank (a m : Nat) : (b.noteRaised a m).e131Bank = b.e131Bank := rfl
@[simp] theorem Blk.noteRaised_drvGot (a m : Nat) : (b.noteRaised a m).drvGot = b.drvGot := rfl
@[simp] theorem Blk.noteRaised_strs (a m : Nat) : (b.noteRaised a m).strs = b.strs := rfl
@[simp] theorem Blk.noteRaised_pairG (a m : Nat) : (b.noteRaised a m).pairG = b.pairG := rfl
@[simp] theorem Blk.noteRaised_nodes (a m : Nat) : (b.noteRaised a m).nodes = b.nodes := rfl
@[simp] theorem Blk.noteRaised_alts (a m : Nat) : (b.noteRaised a m).alts = b.alts := rfl
@[simp] theorem Blk.noteRaised_e131Rx (a m : Nat) : (b.noteRaised a m).e131Rx = b.e131Rx := rfl
@[simp] theorem Blk.noteRaised_e131Syncs (a m : Nat) : (b.noteRaised a m).e131Syncs = b.e131Syncs := rfl
@[simp] theorem Blk.noteRaised_e131TxSeq (a m : Nat) : (b.noteRaised a m).e131TxSeq = b.e131TxSeq := rfl
@[simp] theorem Blk.noteRaised_e131SyncSeq (a m : Nat) : (b.noteRaised a m).e131SyncSeq = b.e131SyncSeq := rfl
@[simp] theorem Blk.noteRaised_e131Term (a m : Nat) : (b.noteRaised a m).e131Term = b.e131Term := rfl
@[simp] theorem Blk.noteRaised_drv (a m : Nat) : (b.noteRaised a m).drv = b.drv := rfl
@[simp] theorem Blk.noteRaised_trk (a m : Nat) : (b.noteRaised a m).trk = b.trk := rfl
@[simp] theorem Blk.noteRaised_pair (a m : Nat) : (b.noteRaised a m).pair = b.pair := rfl
@[simp] theorem Blk.noteRaised_deviceId (a m : Nat) : (b.noteRaised a m).deviceId = b.deviceId := rfl
@[simp] theorem Blk.noteRaised_host (a m : Nat) : (b.noteRaised a m).host = b.host := rfl
@[simp] theorem Blk.noteRaised_mbxLate (a m : Nat) : (b.noteRaised a m).mbxLate = b.mbxLate := rfl
@[simp] theorem Blk.noteRaised_lockWon (a m : Nat) : (b.noteRaised a m).lockWon = b.lockWon := rfl
@[simp] theorem Blk.noteRaised_firm (a m : Nat) : (b.noteRaised a m).firm = b.firm := rfl
@[simp] theorem Blk.noteRaised_dma (a m : Nat) : (b.noteRaised a m).dma = b.dma := rfl
@[simp] theorem Blk.noteRaised_skn (a m : Nat) : (b.noteRaised a m).skn = b.skn := rfl
@[simp] theorem Blk.noteRaised_crcCount (a m : Nat) : (b.noteRaised a m).crcCount = b.crcCount := rfl
@[simp] theorem Blk.noteRaised_crcSet (a m : Nat) : (b.noteRaised a m).crcSet = b.crcSet := rfl
@[simp] theorem Blk.noteRaised_crcEnded (a m : Nat) : (b.noteRaised a m).crcEnded = b.crcEnded := rfl
@[simp] theorem Blk.noteRaised_cycAt (a m : Nat) : (b.noteRaised a m).cycAt = b.cycAt := rfl
@[simp] theorem Blk.noteRaised_otp (a m : Nat) : (b.noteRaised a m).otp = b.otp := rfl
@[simp] theorem Blk.noteRaised_pwr (a m : Nat) : (b.noteRaised a m).pwr = b.pwr := rfl
@[simp] theorem Blk.noteRaised_life (a m : Nat) : (b.noteRaised a m).life = b.life := rfl
@[simp] theorem Blk.noteRaised_fwu (a m : Nat) : (b.noteRaised a m).fwu = b.fwu := rfl
@[simp] theorem Blk.noteRaised_log (a m : Nat) : (b.noteRaised a m).log = b.log := rfl
@[simp] theorem Blk.noteRaised_lifeNow (a m : Nat) : (b.noteRaised a m).lifeNow = b.lifeNow := rfl
@[simp] theorem Blk.noteRaised_cal (a m : Nat) : (b.noteRaised a m).cal = b.cal := rfl

/-! `irq` -/

@[simp] theorem Blk.irq_latches (a i : Nat) : (b.irq a i).latches = b.latches := rfl
@[simp] theorem Blk.irq_now (a i : Nat) : (b.irq a i).now = b.now := rfl
@[simp] theorem Blk.irq_freeCount (a i : Nat) : (b.irq a i).freeCount = b.freeCount := rfl
@[simp] theorem Blk.irq_out (a i : Nat) : (b.irq a i).out = b.out := rfl
@[simp] theorem Blk.irq_wiping (a i : Nat) : (b.irq a i).wiping = b.wiping := rfl
@[simp] theorem Blk.irq_regionBlock (a i : Nat) : (b.irq a i).regionBlock = b.regionBlock := rfl
@[simp] theorem Blk.irq_spareBlocks (a i : Nat) : (b.irq a i).spareBlocks = b.spareBlocks := rfl
@[simp] theorem Blk.irq_regionStage (a i : Nat) : (b.irq a i).regionStage = b.regionStage := rfl
@[simp] theorem Blk.irq_atlasWaiting (a i : Nat) : (b.irq a i).atlasWaiting = b.atlasWaiting := rfl
@[simp] theorem Blk.irq_atlasCommit (a i : Nat) : (b.irq a i).atlasCommit = b.atlasCommit := rfl
@[simp] theorem Blk.irq_tbs (a i : Nat) : (b.irq a i).tbs = b.tbs := rfl
@[simp] theorem Blk.irq_tsq (a i : Nat) : (b.irq a i).tsq = b.tsq := rfl
@[simp] theorem Blk.irq_tsqLost (a i : Nat) : (b.irq a i).tsqLost = b.tsqLost := rfl
@[simp] theorem Blk.irq_synceOnSec (a i : Nat) : (b.irq a i).synceOnSec = b.synceOnSec := rfl
@[simp] theorem Blk.irq_syncePriLost (a i : Nat) : (b.irq a i).syncePriLost = b.syncePriLost := rfl
@[simp] theorem Blk.irq_synceSecLost (a i : Nat) : (b.irq a i).synceSecLost = b.synceSecLost := rfl
@[simp] theorem Blk.irq_synceHist (a i : Nat) : (b.irq a i).synceHist = b.synceHist := rfl
@[simp] theorem Blk.irq_staged (a i : Nat) : (b.irq a i).staged = b.staged := rfl
@[simp] theorem Blk.irq_mers (a i : Nat) : (b.irq a i).mers = b.mers := rfl
@[simp] theorem Blk.irq_wpts (a i : Nat) : (b.irq a i).wpts = b.wpts := rfl
@[simp] theorem Blk.irq_wptDue (a i : Nat) : (b.irq a i).wptDue = b.wptDue := rfl
@[simp] theorem Blk.irq_wptBusy (a i : Nat) : (b.irq a i).wptBusy = b.wptBusy := rfl
@[simp] theorem Blk.irq_wptGone (a i : Nat) : (b.irq a i).wptGone = b.wptGone := rfl
@[simp] theorem Blk.irq_wptFired (a i : Nat) : (b.irq a i).wptFired = b.wptFired := rfl
@[simp] theorem Blk.irq_evtQueue (a i : Nat) : (b.irq a i).evtQueue = b.evtQueue := rfl
@[simp] theorem Blk.irq_evtLevel (a i : Nat) : (b.irq a i).evtLevel = b.evtLevel := rfl
@[simp] theorem Blk.irq_evtPin (a i : Nat) : (b.irq a i).evtPin = b.evtPin := rfl
@[simp] theorem Blk.irq_evtPulse (a i : Nat) : (b.irq a i).evtPulse = b.evtPulse := rfl
@[simp] theorem Blk.irq_evtIn0 (a i : Nat) : (b.irq a i).evtIn0 = b.evtIn0 := rfl
@[simp] theorem Blk.irq_ppsEnd (a i : Nat) : (b.irq a i).ppsEnd = b.ppsEnd := rfl
@[simp] theorem Blk.irq_ppsLevel (a i : Nat) : (b.irq a i).ppsLevel = b.ppsLevel := rfl
@[simp] theorem Blk.irq_evtIn (a i : Nat) : (b.irq a i).evtIn = b.evtIn := rfl
@[simp] theorem Blk.irq_evtLost (a i : Nat) : (b.irq a i).evtLost = b.evtLost := rfl
@[simp] theorem Blk.irq_keys (a i : Nat) : (b.irq a i).keys = b.keys := rfl
@[simp] theorem Blk.irq_nonces (a i : Nat) : (b.irq a i).nonces = b.nonces := rfl
@[simp] theorem Blk.irq_noncesSaved (a i : Nat) : (b.irq a i).noncesSaved = b.noncesSaved := rfl
@[simp] theorem Blk.irq_bearingSeq (a i : Nat) : (b.irq a i).bearingSeq = b.bearingSeq := rfl
@[simp] theorem Blk.irq_cnv (a i : Nat) : (b.irq a i).cnv = b.cnv := rfl
@[simp] theorem Blk.irq_stc (a i : Nat) : (b.irq a i).stc = b.stc := rfl
@[simp] theorem Blk.irq_e131Bank (a i : Nat) : (b.irq a i).e131Bank = b.e131Bank := rfl
@[simp] theorem Blk.irq_drvGot (a i : Nat) : (b.irq a i).drvGot = b.drvGot := rfl
@[simp] theorem Blk.irq_strs (a i : Nat) : (b.irq a i).strs = b.strs := rfl
@[simp] theorem Blk.irq_pairG (a i : Nat) : (b.irq a i).pairG = b.pairG := rfl
@[simp] theorem Blk.irq_nodes (a i : Nat) : (b.irq a i).nodes = b.nodes := rfl
@[simp] theorem Blk.irq_alts (a i : Nat) : (b.irq a i).alts = b.alts := rfl
@[simp] theorem Blk.irq_e131Rx (a i : Nat) : (b.irq a i).e131Rx = b.e131Rx := rfl
@[simp] theorem Blk.irq_e131Syncs (a i : Nat) : (b.irq a i).e131Syncs = b.e131Syncs := rfl
@[simp] theorem Blk.irq_e131TxSeq (a i : Nat) : (b.irq a i).e131TxSeq = b.e131TxSeq := rfl
@[simp] theorem Blk.irq_e131SyncSeq (a i : Nat) : (b.irq a i).e131SyncSeq = b.e131SyncSeq := rfl
@[simp] theorem Blk.irq_e131Term (a i : Nat) : (b.irq a i).e131Term = b.e131Term := rfl
@[simp] theorem Blk.irq_drv (a i : Nat) : (b.irq a i).drv = b.drv := rfl
@[simp] theorem Blk.irq_trk (a i : Nat) : (b.irq a i).trk = b.trk := rfl
@[simp] theorem Blk.irq_pair (a i : Nat) : (b.irq a i).pair = b.pair := rfl
@[simp] theorem Blk.irq_deviceId (a i : Nat) : (b.irq a i).deviceId = b.deviceId := rfl
@[simp] theorem Blk.irq_host (a i : Nat) : (b.irq a i).host = b.host := rfl
@[simp] theorem Blk.irq_mbxLate (a i : Nat) : (b.irq a i).mbxLate = b.mbxLate := rfl
@[simp] theorem Blk.irq_lockWon (a i : Nat) : (b.irq a i).lockWon = b.lockWon := rfl
@[simp] theorem Blk.irq_firm (a i : Nat) : (b.irq a i).firm = b.firm := rfl
@[simp] theorem Blk.irq_dma (a i : Nat) : (b.irq a i).dma = b.dma := rfl
@[simp] theorem Blk.irq_skn (a i : Nat) : (b.irq a i).skn = b.skn := rfl
@[simp] theorem Blk.irq_crcCount (a i : Nat) : (b.irq a i).crcCount = b.crcCount := rfl
@[simp] theorem Blk.irq_crcSet (a i : Nat) : (b.irq a i).crcSet = b.crcSet := rfl
@[simp] theorem Blk.irq_crcEnded (a i : Nat) : (b.irq a i).crcEnded = b.crcEnded := rfl
@[simp] theorem Blk.irq_cycAt (a i : Nat) : (b.irq a i).cycAt = b.cycAt := rfl
@[simp] theorem Blk.irq_otp (a i : Nat) : (b.irq a i).otp = b.otp := rfl
@[simp] theorem Blk.irq_pwr (a i : Nat) : (b.irq a i).pwr = b.pwr := rfl
@[simp] theorem Blk.irq_life (a i : Nat) : (b.irq a i).life = b.life := rfl
@[simp] theorem Blk.irq_fwu (a i : Nat) : (b.irq a i).fwu = b.fwu := rfl
@[simp] theorem Blk.irq_log (a i : Nat) : (b.irq a i).log = b.log := rfl
@[simp] theorem Blk.irq_lifeNow (a i : Nat) : (b.irq a i).lifeNow = b.lifeNow := rfl
@[simp] theorem Blk.irq_cal (a i : Nat) : (b.irq a i).cal = b.cal := rfl

/-! `raise` -/

@[simp] theorem Blk.raise_latches (a : Nat) (v : Word) : (b.raise a v).latches = b.latches := rfl
@[simp] theorem Blk.raise_now (a : Nat) (v : Word) : (b.raise a v).now = b.now := rfl
@[simp] theorem Blk.raise_freeCount (a : Nat) (v : Word) : (b.raise a v).freeCount = b.freeCount := rfl
@[simp] theorem Blk.raise_out (a : Nat) (v : Word) : (b.raise a v).out = b.out := rfl
@[simp] theorem Blk.raise_wiping (a : Nat) (v : Word) : (b.raise a v).wiping = b.wiping := rfl
@[simp] theorem Blk.raise_regionBlock (a : Nat) (v : Word) : (b.raise a v).regionBlock = b.regionBlock := rfl
@[simp] theorem Blk.raise_spareBlocks (a : Nat) (v : Word) : (b.raise a v).spareBlocks = b.spareBlocks := rfl
@[simp] theorem Blk.raise_regionStage (a : Nat) (v : Word) : (b.raise a v).regionStage = b.regionStage := rfl
@[simp] theorem Blk.raise_atlasWaiting (a : Nat) (v : Word) : (b.raise a v).atlasWaiting = b.atlasWaiting := rfl
@[simp] theorem Blk.raise_atlasCommit (a : Nat) (v : Word) : (b.raise a v).atlasCommit = b.atlasCommit := rfl
@[simp] theorem Blk.raise_tbs (a : Nat) (v : Word) : (b.raise a v).tbs = b.tbs := rfl
@[simp] theorem Blk.raise_tsq (a : Nat) (v : Word) : (b.raise a v).tsq = b.tsq := rfl
@[simp] theorem Blk.raise_tsqLost (a : Nat) (v : Word) : (b.raise a v).tsqLost = b.tsqLost := rfl
@[simp] theorem Blk.raise_synceOnSec (a : Nat) (v : Word) : (b.raise a v).synceOnSec = b.synceOnSec := rfl
@[simp] theorem Blk.raise_syncePriLost (a : Nat) (v : Word) : (b.raise a v).syncePriLost = b.syncePriLost := rfl
@[simp] theorem Blk.raise_synceSecLost (a : Nat) (v : Word) : (b.raise a v).synceSecLost = b.synceSecLost := rfl
@[simp] theorem Blk.raise_synceHist (a : Nat) (v : Word) : (b.raise a v).synceHist = b.synceHist := rfl
@[simp] theorem Blk.raise_staged (a : Nat) (v : Word) : (b.raise a v).staged = b.staged := rfl
@[simp] theorem Blk.raise_mers (a : Nat) (v : Word) : (b.raise a v).mers = b.mers := rfl
@[simp] theorem Blk.raise_wpts (a : Nat) (v : Word) : (b.raise a v).wpts = b.wpts := rfl
@[simp] theorem Blk.raise_wptDue (a : Nat) (v : Word) : (b.raise a v).wptDue = b.wptDue := rfl
@[simp] theorem Blk.raise_wptBusy (a : Nat) (v : Word) : (b.raise a v).wptBusy = b.wptBusy := rfl
@[simp] theorem Blk.raise_wptGone (a : Nat) (v : Word) : (b.raise a v).wptGone = b.wptGone := rfl
@[simp] theorem Blk.raise_wptFired (a : Nat) (v : Word) : (b.raise a v).wptFired = b.wptFired := rfl
@[simp] theorem Blk.raise_evtQueue (a : Nat) (v : Word) : (b.raise a v).evtQueue = b.evtQueue := rfl
@[simp] theorem Blk.raise_evtLevel (a : Nat) (v : Word) : (b.raise a v).evtLevel = b.evtLevel := rfl
@[simp] theorem Blk.raise_evtPin (a : Nat) (v : Word) : (b.raise a v).evtPin = b.evtPin := rfl
@[simp] theorem Blk.raise_evtPulse (a : Nat) (v : Word) : (b.raise a v).evtPulse = b.evtPulse := rfl
@[simp] theorem Blk.raise_evtIn0 (a : Nat) (v : Word) : (b.raise a v).evtIn0 = b.evtIn0 := rfl
@[simp] theorem Blk.raise_ppsEnd (a : Nat) (v : Word) : (b.raise a v).ppsEnd = b.ppsEnd := rfl
@[simp] theorem Blk.raise_ppsLevel (a : Nat) (v : Word) : (b.raise a v).ppsLevel = b.ppsLevel := rfl
@[simp] theorem Blk.raise_evtIn (a : Nat) (v : Word) : (b.raise a v).evtIn = b.evtIn := rfl
@[simp] theorem Blk.raise_evtLost (a : Nat) (v : Word) : (b.raise a v).evtLost = b.evtLost := rfl
@[simp] theorem Blk.raise_keys (a : Nat) (v : Word) : (b.raise a v).keys = b.keys := rfl
@[simp] theorem Blk.raise_nonces (a : Nat) (v : Word) : (b.raise a v).nonces = b.nonces := rfl
@[simp] theorem Blk.raise_noncesSaved (a : Nat) (v : Word) : (b.raise a v).noncesSaved = b.noncesSaved := rfl
@[simp] theorem Blk.raise_bearingSeq (a : Nat) (v : Word) : (b.raise a v).bearingSeq = b.bearingSeq := rfl
@[simp] theorem Blk.raise_cnv (a : Nat) (v : Word) : (b.raise a v).cnv = b.cnv := rfl
@[simp] theorem Blk.raise_stc (a : Nat) (v : Word) : (b.raise a v).stc = b.stc := rfl
@[simp] theorem Blk.raise_e131Bank (a : Nat) (v : Word) : (b.raise a v).e131Bank = b.e131Bank := rfl
@[simp] theorem Blk.raise_drvGot (a : Nat) (v : Word) : (b.raise a v).drvGot = b.drvGot := rfl
@[simp] theorem Blk.raise_strs (a : Nat) (v : Word) : (b.raise a v).strs = b.strs := rfl
@[simp] theorem Blk.raise_pairG (a : Nat) (v : Word) : (b.raise a v).pairG = b.pairG := rfl
@[simp] theorem Blk.raise_nodes (a : Nat) (v : Word) : (b.raise a v).nodes = b.nodes := rfl
@[simp] theorem Blk.raise_alts (a : Nat) (v : Word) : (b.raise a v).alts = b.alts := rfl
@[simp] theorem Blk.raise_e131Rx (a : Nat) (v : Word) : (b.raise a v).e131Rx = b.e131Rx := rfl
@[simp] theorem Blk.raise_e131Syncs (a : Nat) (v : Word) : (b.raise a v).e131Syncs = b.e131Syncs := rfl
@[simp] theorem Blk.raise_e131TxSeq (a : Nat) (v : Word) : (b.raise a v).e131TxSeq = b.e131TxSeq := rfl
@[simp] theorem Blk.raise_e131SyncSeq (a : Nat) (v : Word) : (b.raise a v).e131SyncSeq = b.e131SyncSeq := rfl
@[simp] theorem Blk.raise_e131Term (a : Nat) (v : Word) : (b.raise a v).e131Term = b.e131Term := rfl
@[simp] theorem Blk.raise_drv (a : Nat) (v : Word) : (b.raise a v).drv = b.drv := rfl
@[simp] theorem Blk.raise_trk (a : Nat) (v : Word) : (b.raise a v).trk = b.trk := rfl
@[simp] theorem Blk.raise_pair (a : Nat) (v : Word) : (b.raise a v).pair = b.pair := rfl
@[simp] theorem Blk.raise_deviceId (a : Nat) (v : Word) : (b.raise a v).deviceId = b.deviceId := rfl
@[simp] theorem Blk.raise_host (a : Nat) (v : Word) : (b.raise a v).host = b.host := rfl
@[simp] theorem Blk.raise_mbxLate (a : Nat) (v : Word) : (b.raise a v).mbxLate = b.mbxLate := rfl
@[simp] theorem Blk.raise_lockWon (a : Nat) (v : Word) : (b.raise a v).lockWon = b.lockWon := rfl
@[simp] theorem Blk.raise_firm (a : Nat) (v : Word) : (b.raise a v).firm = b.firm := rfl
@[simp] theorem Blk.raise_dma (a : Nat) (v : Word) : (b.raise a v).dma = b.dma := rfl
@[simp] theorem Blk.raise_skn (a : Nat) (v : Word) : (b.raise a v).skn = b.skn := rfl
@[simp] theorem Blk.raise_crcCount (a : Nat) (v : Word) : (b.raise a v).crcCount = b.crcCount := rfl
@[simp] theorem Blk.raise_crcSet (a : Nat) (v : Word) : (b.raise a v).crcSet = b.crcSet := rfl
@[simp] theorem Blk.raise_crcEnded (a : Nat) (v : Word) : (b.raise a v).crcEnded = b.crcEnded := rfl
@[simp] theorem Blk.raise_cycAt (a : Nat) (v : Word) : (b.raise a v).cycAt = b.cycAt := rfl
@[simp] theorem Blk.raise_otp (a : Nat) (v : Word) : (b.raise a v).otp = b.otp := rfl
@[simp] theorem Blk.raise_pwr (a : Nat) (v : Word) : (b.raise a v).pwr = b.pwr := rfl
@[simp] theorem Blk.raise_life (a : Nat) (v : Word) : (b.raise a v).life = b.life := rfl
@[simp] theorem Blk.raise_fwu (a : Nat) (v : Word) : (b.raise a v).fwu = b.fwu := rfl
@[simp] theorem Blk.raise_log (a : Nat) (v : Word) : (b.raise a v).log = b.log := rfl
@[simp] theorem Blk.raise_lifeNow (a : Nat) (v : Word) : (b.raise a v).lifeNow = b.lifeNow := rfl
@[simp] theorem Blk.raise_cal (a : Nat) (v : Word) : (b.raise a v).cal = b.cal := rfl

/-! `count` -/

@[simp] theorem Blk.count_latches (a n : Nat) : (b.count a n).latches = b.latches := rfl
@[simp] theorem Blk.count_now (a n : Nat) : (b.count a n).now = b.now := rfl
@[simp] theorem Blk.count_raised (a n : Nat) : (b.count a n).raised = b.raised := rfl
@[simp] theorem Blk.count_raisedAt (a n : Nat) : (b.count a n).raisedAt = b.raisedAt := rfl
@[simp] theorem Blk.count_freeCount (a n : Nat) : (b.count a n).freeCount = b.freeCount := rfl
@[simp] theorem Blk.count_out (a n : Nat) : (b.count a n).out = b.out := rfl
@[simp] theorem Blk.count_wiping (a n : Nat) : (b.count a n).wiping = b.wiping := rfl
@[simp] theorem Blk.count_regionBlock (a n : Nat) : (b.count a n).regionBlock = b.regionBlock := rfl
@[simp] theorem Blk.count_spareBlocks (a n : Nat) : (b.count a n).spareBlocks = b.spareBlocks := rfl
@[simp] theorem Blk.count_regionStage (a n : Nat) : (b.count a n).regionStage = b.regionStage := rfl
@[simp] theorem Blk.count_atlasWaiting (a n : Nat) : (b.count a n).atlasWaiting = b.atlasWaiting := rfl
@[simp] theorem Blk.count_atlasCommit (a n : Nat) : (b.count a n).atlasCommit = b.atlasCommit := rfl
@[simp] theorem Blk.count_tbs (a n : Nat) : (b.count a n).tbs = b.tbs := rfl
@[simp] theorem Blk.count_tsq (a n : Nat) : (b.count a n).tsq = b.tsq := rfl
@[simp] theorem Blk.count_tsqLost (a n : Nat) : (b.count a n).tsqLost = b.tsqLost := rfl
@[simp] theorem Blk.count_synceOnSec (a n : Nat) : (b.count a n).synceOnSec = b.synceOnSec := rfl
@[simp] theorem Blk.count_syncePriLost (a n : Nat) : (b.count a n).syncePriLost = b.syncePriLost := rfl
@[simp] theorem Blk.count_synceSecLost (a n : Nat) : (b.count a n).synceSecLost = b.synceSecLost := rfl
@[simp] theorem Blk.count_synceHist (a n : Nat) : (b.count a n).synceHist = b.synceHist := rfl
@[simp] theorem Blk.count_staged (a n : Nat) : (b.count a n).staged = b.staged := rfl
@[simp] theorem Blk.count_mers (a n : Nat) : (b.count a n).mers = b.mers := rfl
@[simp] theorem Blk.count_wpts (a n : Nat) : (b.count a n).wpts = b.wpts := rfl
@[simp] theorem Blk.count_wptDue (a n : Nat) : (b.count a n).wptDue = b.wptDue := rfl
@[simp] theorem Blk.count_wptBusy (a n : Nat) : (b.count a n).wptBusy = b.wptBusy := rfl
@[simp] theorem Blk.count_wptGone (a n : Nat) : (b.count a n).wptGone = b.wptGone := rfl
@[simp] theorem Blk.count_wptFired (a n : Nat) : (b.count a n).wptFired = b.wptFired := rfl
@[simp] theorem Blk.count_evtQueue (a n : Nat) : (b.count a n).evtQueue = b.evtQueue := rfl
@[simp] theorem Blk.count_evtLevel (a n : Nat) : (b.count a n).evtLevel = b.evtLevel := rfl
@[simp] theorem Blk.count_evtPin (a n : Nat) : (b.count a n).evtPin = b.evtPin := rfl
@[simp] theorem Blk.count_evtPulse (a n : Nat) : (b.count a n).evtPulse = b.evtPulse := rfl
@[simp] theorem Blk.count_evtIn0 (a n : Nat) : (b.count a n).evtIn0 = b.evtIn0 := rfl
@[simp] theorem Blk.count_ppsEnd (a n : Nat) : (b.count a n).ppsEnd = b.ppsEnd := rfl
@[simp] theorem Blk.count_ppsLevel (a n : Nat) : (b.count a n).ppsLevel = b.ppsLevel := rfl
@[simp] theorem Blk.count_evtIn (a n : Nat) : (b.count a n).evtIn = b.evtIn := rfl
@[simp] theorem Blk.count_evtLost (a n : Nat) : (b.count a n).evtLost = b.evtLost := rfl
@[simp] theorem Blk.count_keys (a n : Nat) : (b.count a n).keys = b.keys := rfl
@[simp] theorem Blk.count_nonces (a n : Nat) : (b.count a n).nonces = b.nonces := rfl
@[simp] theorem Blk.count_noncesSaved (a n : Nat) : (b.count a n).noncesSaved = b.noncesSaved := rfl
@[simp] theorem Blk.count_bearingSeq (a n : Nat) : (b.count a n).bearingSeq = b.bearingSeq := rfl
@[simp] theorem Blk.count_cnv (a n : Nat) : (b.count a n).cnv = b.cnv := rfl
@[simp] theorem Blk.count_stc (a n : Nat) : (b.count a n).stc = b.stc := rfl
@[simp] theorem Blk.count_e131Bank (a n : Nat) : (b.count a n).e131Bank = b.e131Bank := rfl
@[simp] theorem Blk.count_drvGot (a n : Nat) : (b.count a n).drvGot = b.drvGot := rfl
@[simp] theorem Blk.count_strs (a n : Nat) : (b.count a n).strs = b.strs := rfl
@[simp] theorem Blk.count_pairG (a n : Nat) : (b.count a n).pairG = b.pairG := rfl
@[simp] theorem Blk.count_nodes (a n : Nat) : (b.count a n).nodes = b.nodes := rfl
@[simp] theorem Blk.count_alts (a n : Nat) : (b.count a n).alts = b.alts := rfl
@[simp] theorem Blk.count_e131Rx (a n : Nat) : (b.count a n).e131Rx = b.e131Rx := rfl
@[simp] theorem Blk.count_e131Syncs (a n : Nat) : (b.count a n).e131Syncs = b.e131Syncs := rfl
@[simp] theorem Blk.count_e131TxSeq (a n : Nat) : (b.count a n).e131TxSeq = b.e131TxSeq := rfl
@[simp] theorem Blk.count_e131SyncSeq (a n : Nat) : (b.count a n).e131SyncSeq = b.e131SyncSeq := rfl
@[simp] theorem Blk.count_e131Term (a n : Nat) : (b.count a n).e131Term = b.e131Term := rfl
@[simp] theorem Blk.count_drv (a n : Nat) : (b.count a n).drv = b.drv := rfl
@[simp] theorem Blk.count_trk (a n : Nat) : (b.count a n).trk = b.trk := rfl
@[simp] theorem Blk.count_pair (a n : Nat) : (b.count a n).pair = b.pair := rfl
@[simp] theorem Blk.count_deviceId (a n : Nat) : (b.count a n).deviceId = b.deviceId := rfl
@[simp] theorem Blk.count_host (a n : Nat) : (b.count a n).host = b.host := rfl
@[simp] theorem Blk.count_mbxLate (a n : Nat) : (b.count a n).mbxLate = b.mbxLate := rfl
@[simp] theorem Blk.count_lockWon (a n : Nat) : (b.count a n).lockWon = b.lockWon := rfl
@[simp] theorem Blk.count_firm (a n : Nat) : (b.count a n).firm = b.firm := rfl
@[simp] theorem Blk.count_dma (a n : Nat) : (b.count a n).dma = b.dma := rfl
@[simp] theorem Blk.count_skn (a n : Nat) : (b.count a n).skn = b.skn := rfl
@[simp] theorem Blk.count_crcCount (a n : Nat) : (b.count a n).crcCount = b.crcCount := rfl
@[simp] theorem Blk.count_crcSet (a n : Nat) : (b.count a n).crcSet = b.crcSet := rfl
@[simp] theorem Blk.count_crcEnded (a n : Nat) : (b.count a n).crcEnded = b.crcEnded := rfl
@[simp] theorem Blk.count_cycAt (a n : Nat) : (b.count a n).cycAt = b.cycAt := rfl
@[simp] theorem Blk.count_otp (a n : Nat) : (b.count a n).otp = b.otp := rfl
@[simp] theorem Blk.count_pwr (a n : Nat) : (b.count a n).pwr = b.pwr := rfl
@[simp] theorem Blk.count_life (a n : Nat) : (b.count a n).life = b.life := rfl
@[simp] theorem Blk.count_fwu (a n : Nat) : (b.count a n).fwu = b.fwu := rfl
@[simp] theorem Blk.count_log (a n : Nat) : (b.count a n).log = b.log := rfl
@[simp] theorem Blk.count_lifeNow (a n : Nat) : (b.count a n).lifeNow = b.lifeNow := rfl
@[simp] theorem Blk.count_cal (a n : Nat) : (b.count a n).cal = b.cal := rfl

/-! `wr64` -/

@[simp] theorem Blk.wr64_latches (lo hi n : Nat) : (b.wr64 lo hi n).latches = b.latches := rfl
@[simp] theorem Blk.wr64_now (lo hi n : Nat) : (b.wr64 lo hi n).now = b.now := rfl
@[simp] theorem Blk.wr64_raised (lo hi n : Nat) : (b.wr64 lo hi n).raised = b.raised := rfl
@[simp] theorem Blk.wr64_raisedAt (lo hi n : Nat) : (b.wr64 lo hi n).raisedAt = b.raisedAt := rfl
@[simp] theorem Blk.wr64_freeCount (lo hi n : Nat) : (b.wr64 lo hi n).freeCount = b.freeCount := rfl
@[simp] theorem Blk.wr64_out (lo hi n : Nat) : (b.wr64 lo hi n).out = b.out := rfl
@[simp] theorem Blk.wr64_wiping (lo hi n : Nat) : (b.wr64 lo hi n).wiping = b.wiping := rfl
@[simp] theorem Blk.wr64_regionBlock (lo hi n : Nat) : (b.wr64 lo hi n).regionBlock = b.regionBlock := rfl
@[simp] theorem Blk.wr64_spareBlocks (lo hi n : Nat) : (b.wr64 lo hi n).spareBlocks = b.spareBlocks := rfl
@[simp] theorem Blk.wr64_regionStage (lo hi n : Nat) : (b.wr64 lo hi n).regionStage = b.regionStage := rfl
@[simp] theorem Blk.wr64_atlasWaiting (lo hi n : Nat) : (b.wr64 lo hi n).atlasWaiting = b.atlasWaiting := rfl
@[simp] theorem Blk.wr64_atlasCommit (lo hi n : Nat) : (b.wr64 lo hi n).atlasCommit = b.atlasCommit := rfl
@[simp] theorem Blk.wr64_tbs (lo hi n : Nat) : (b.wr64 lo hi n).tbs = b.tbs := rfl
@[simp] theorem Blk.wr64_tsq (lo hi n : Nat) : (b.wr64 lo hi n).tsq = b.tsq := rfl
@[simp] theorem Blk.wr64_tsqLost (lo hi n : Nat) : (b.wr64 lo hi n).tsqLost = b.tsqLost := rfl
@[simp] theorem Blk.wr64_synceOnSec (lo hi n : Nat) : (b.wr64 lo hi n).synceOnSec = b.synceOnSec := rfl
@[simp] theorem Blk.wr64_syncePriLost (lo hi n : Nat) : (b.wr64 lo hi n).syncePriLost = b.syncePriLost := rfl
@[simp] theorem Blk.wr64_synceSecLost (lo hi n : Nat) : (b.wr64 lo hi n).synceSecLost = b.synceSecLost := rfl
@[simp] theorem Blk.wr64_synceHist (lo hi n : Nat) : (b.wr64 lo hi n).synceHist = b.synceHist := rfl
@[simp] theorem Blk.wr64_staged (lo hi n : Nat) : (b.wr64 lo hi n).staged = b.staged := rfl
@[simp] theorem Blk.wr64_mers (lo hi n : Nat) : (b.wr64 lo hi n).mers = b.mers := rfl
@[simp] theorem Blk.wr64_wpts (lo hi n : Nat) : (b.wr64 lo hi n).wpts = b.wpts := rfl
@[simp] theorem Blk.wr64_wptDue (lo hi n : Nat) : (b.wr64 lo hi n).wptDue = b.wptDue := rfl
@[simp] theorem Blk.wr64_wptBusy (lo hi n : Nat) : (b.wr64 lo hi n).wptBusy = b.wptBusy := rfl
@[simp] theorem Blk.wr64_wptGone (lo hi n : Nat) : (b.wr64 lo hi n).wptGone = b.wptGone := rfl
@[simp] theorem Blk.wr64_wptFired (lo hi n : Nat) : (b.wr64 lo hi n).wptFired = b.wptFired := rfl
@[simp] theorem Blk.wr64_evtQueue (lo hi n : Nat) : (b.wr64 lo hi n).evtQueue = b.evtQueue := rfl
@[simp] theorem Blk.wr64_evtLevel (lo hi n : Nat) : (b.wr64 lo hi n).evtLevel = b.evtLevel := rfl
@[simp] theorem Blk.wr64_evtPin (lo hi n : Nat) : (b.wr64 lo hi n).evtPin = b.evtPin := rfl
@[simp] theorem Blk.wr64_evtPulse (lo hi n : Nat) : (b.wr64 lo hi n).evtPulse = b.evtPulse := rfl
@[simp] theorem Blk.wr64_evtIn0 (lo hi n : Nat) : (b.wr64 lo hi n).evtIn0 = b.evtIn0 := rfl
@[simp] theorem Blk.wr64_ppsEnd (lo hi n : Nat) : (b.wr64 lo hi n).ppsEnd = b.ppsEnd := rfl
@[simp] theorem Blk.wr64_ppsLevel (lo hi n : Nat) : (b.wr64 lo hi n).ppsLevel = b.ppsLevel := rfl
@[simp] theorem Blk.wr64_evtIn (lo hi n : Nat) : (b.wr64 lo hi n).evtIn = b.evtIn := rfl
@[simp] theorem Blk.wr64_evtLost (lo hi n : Nat) : (b.wr64 lo hi n).evtLost = b.evtLost := rfl
@[simp] theorem Blk.wr64_keys (lo hi n : Nat) : (b.wr64 lo hi n).keys = b.keys := rfl
@[simp] theorem Blk.wr64_nonces (lo hi n : Nat) : (b.wr64 lo hi n).nonces = b.nonces := rfl
@[simp] theorem Blk.wr64_noncesSaved (lo hi n : Nat) : (b.wr64 lo hi n).noncesSaved = b.noncesSaved := rfl
@[simp] theorem Blk.wr64_bearingSeq (lo hi n : Nat) : (b.wr64 lo hi n).bearingSeq = b.bearingSeq := rfl
@[simp] theorem Blk.wr64_cnv (lo hi n : Nat) : (b.wr64 lo hi n).cnv = b.cnv := rfl
@[simp] theorem Blk.wr64_stc (lo hi n : Nat) : (b.wr64 lo hi n).stc = b.stc := rfl
@[simp] theorem Blk.wr64_e131Bank (lo hi n : Nat) : (b.wr64 lo hi n).e131Bank = b.e131Bank := rfl
@[simp] theorem Blk.wr64_drvGot (lo hi n : Nat) : (b.wr64 lo hi n).drvGot = b.drvGot := rfl
@[simp] theorem Blk.wr64_strs (lo hi n : Nat) : (b.wr64 lo hi n).strs = b.strs := rfl
@[simp] theorem Blk.wr64_pairG (lo hi n : Nat) : (b.wr64 lo hi n).pairG = b.pairG := rfl
@[simp] theorem Blk.wr64_nodes (lo hi n : Nat) : (b.wr64 lo hi n).nodes = b.nodes := rfl
@[simp] theorem Blk.wr64_alts (lo hi n : Nat) : (b.wr64 lo hi n).alts = b.alts := rfl
@[simp] theorem Blk.wr64_e131Rx (lo hi n : Nat) : (b.wr64 lo hi n).e131Rx = b.e131Rx := rfl
@[simp] theorem Blk.wr64_e131Syncs (lo hi n : Nat) : (b.wr64 lo hi n).e131Syncs = b.e131Syncs := rfl
@[simp] theorem Blk.wr64_e131TxSeq (lo hi n : Nat) : (b.wr64 lo hi n).e131TxSeq = b.e131TxSeq := rfl
@[simp] theorem Blk.wr64_e131SyncSeq (lo hi n : Nat) : (b.wr64 lo hi n).e131SyncSeq = b.e131SyncSeq := rfl
@[simp] theorem Blk.wr64_e131Term (lo hi n : Nat) : (b.wr64 lo hi n).e131Term = b.e131Term := rfl
@[simp] theorem Blk.wr64_drv (lo hi n : Nat) : (b.wr64 lo hi n).drv = b.drv := rfl
@[simp] theorem Blk.wr64_trk (lo hi n : Nat) : (b.wr64 lo hi n).trk = b.trk := rfl
@[simp] theorem Blk.wr64_pair (lo hi n : Nat) : (b.wr64 lo hi n).pair = b.pair := rfl
@[simp] theorem Blk.wr64_deviceId (lo hi n : Nat) : (b.wr64 lo hi n).deviceId = b.deviceId := rfl
@[simp] theorem Blk.wr64_host (lo hi n : Nat) : (b.wr64 lo hi n).host = b.host := rfl
@[simp] theorem Blk.wr64_mbxLate (lo hi n : Nat) : (b.wr64 lo hi n).mbxLate = b.mbxLate := rfl
@[simp] theorem Blk.wr64_lockWon (lo hi n : Nat) : (b.wr64 lo hi n).lockWon = b.lockWon := rfl
@[simp] theorem Blk.wr64_firm (lo hi n : Nat) : (b.wr64 lo hi n).firm = b.firm := rfl
@[simp] theorem Blk.wr64_dma (lo hi n : Nat) : (b.wr64 lo hi n).dma = b.dma := rfl
@[simp] theorem Blk.wr64_skn (lo hi n : Nat) : (b.wr64 lo hi n).skn = b.skn := rfl
@[simp] theorem Blk.wr64_crcCount (lo hi n : Nat) : (b.wr64 lo hi n).crcCount = b.crcCount := rfl
@[simp] theorem Blk.wr64_crcSet (lo hi n : Nat) : (b.wr64 lo hi n).crcSet = b.crcSet := rfl
@[simp] theorem Blk.wr64_crcEnded (lo hi n : Nat) : (b.wr64 lo hi n).crcEnded = b.crcEnded := rfl
@[simp] theorem Blk.wr64_cycAt (lo hi n : Nat) : (b.wr64 lo hi n).cycAt = b.cycAt := rfl
@[simp] theorem Blk.wr64_otp (lo hi n : Nat) : (b.wr64 lo hi n).otp = b.otp := rfl
@[simp] theorem Blk.wr64_pwr (lo hi n : Nat) : (b.wr64 lo hi n).pwr = b.pwr := rfl
@[simp] theorem Blk.wr64_life (lo hi n : Nat) : (b.wr64 lo hi n).life = b.life := rfl
@[simp] theorem Blk.wr64_fwu (lo hi n : Nat) : (b.wr64 lo hi n).fwu = b.fwu := rfl
@[simp] theorem Blk.wr64_log (lo hi n : Nat) : (b.wr64 lo hi n).log = b.log := rfl
@[simp] theorem Blk.wr64_lifeNow (lo hi n : Nat) : (b.wr64 lo hi n).lifeNow = b.lifeNow := rfl
@[simp] theorem Blk.wr64_cal (lo hi n : Nat) : (b.wr64 lo hi n).cal = b.cal := rfl

/-! `emit` -/

@[simp] theorem Blk.emit_regs (o : Output) : (b.emit o).regs = b.regs := rfl
@[simp] theorem Blk.emit_latches (o : Output) : (b.emit o).latches = b.latches := rfl
@[simp] theorem Blk.emit_now (o : Output) : (b.emit o).now = b.now := rfl
@[simp] theorem Blk.emit_raised (o : Output) : (b.emit o).raised = b.raised := rfl
@[simp] theorem Blk.emit_raisedAt (o : Output) : (b.emit o).raisedAt = b.raisedAt := rfl
@[simp] theorem Blk.emit_freeCount (o : Output) : (b.emit o).freeCount = b.freeCount := rfl
@[simp] theorem Blk.emit_wiping (o : Output) : (b.emit o).wiping = b.wiping := rfl
@[simp] theorem Blk.emit_regionBlock (o : Output) : (b.emit o).regionBlock = b.regionBlock := rfl
@[simp] theorem Blk.emit_spareBlocks (o : Output) : (b.emit o).spareBlocks = b.spareBlocks := rfl
@[simp] theorem Blk.emit_regionStage (o : Output) : (b.emit o).regionStage = b.regionStage := rfl
@[simp] theorem Blk.emit_atlasWaiting (o : Output) : (b.emit o).atlasWaiting = b.atlasWaiting := rfl
@[simp] theorem Blk.emit_atlasCommit (o : Output) : (b.emit o).atlasCommit = b.atlasCommit := rfl
@[simp] theorem Blk.emit_tbs (o : Output) : (b.emit o).tbs = b.tbs := rfl
@[simp] theorem Blk.emit_tsq (o : Output) : (b.emit o).tsq = b.tsq := rfl
@[simp] theorem Blk.emit_tsqLost (o : Output) : (b.emit o).tsqLost = b.tsqLost := rfl
@[simp] theorem Blk.emit_synceOnSec (o : Output) : (b.emit o).synceOnSec = b.synceOnSec := rfl
@[simp] theorem Blk.emit_syncePriLost (o : Output) : (b.emit o).syncePriLost = b.syncePriLost := rfl
@[simp] theorem Blk.emit_synceSecLost (o : Output) : (b.emit o).synceSecLost = b.synceSecLost := rfl
@[simp] theorem Blk.emit_synceHist (o : Output) : (b.emit o).synceHist = b.synceHist := rfl
@[simp] theorem Blk.emit_staged (o : Output) : (b.emit o).staged = b.staged := rfl
@[simp] theorem Blk.emit_mers (o : Output) : (b.emit o).mers = b.mers := rfl
@[simp] theorem Blk.emit_wpts (o : Output) : (b.emit o).wpts = b.wpts := rfl
@[simp] theorem Blk.emit_wptDue (o : Output) : (b.emit o).wptDue = b.wptDue := rfl
@[simp] theorem Blk.emit_wptBusy (o : Output) : (b.emit o).wptBusy = b.wptBusy := rfl
@[simp] theorem Blk.emit_wptGone (o : Output) : (b.emit o).wptGone = b.wptGone := rfl
@[simp] theorem Blk.emit_wptFired (o : Output) : (b.emit o).wptFired = b.wptFired := rfl
@[simp] theorem Blk.emit_evtQueue (o : Output) : (b.emit o).evtQueue = b.evtQueue := rfl
@[simp] theorem Blk.emit_evtLevel (o : Output) : (b.emit o).evtLevel = b.evtLevel := rfl
@[simp] theorem Blk.emit_evtPin (o : Output) : (b.emit o).evtPin = b.evtPin := rfl
@[simp] theorem Blk.emit_evtPulse (o : Output) : (b.emit o).evtPulse = b.evtPulse := rfl
@[simp] theorem Blk.emit_evtIn0 (o : Output) : (b.emit o).evtIn0 = b.evtIn0 := rfl
@[simp] theorem Blk.emit_ppsEnd (o : Output) : (b.emit o).ppsEnd = b.ppsEnd := rfl
@[simp] theorem Blk.emit_ppsLevel (o : Output) : (b.emit o).ppsLevel = b.ppsLevel := rfl
@[simp] theorem Blk.emit_evtIn (o : Output) : (b.emit o).evtIn = b.evtIn := rfl
@[simp] theorem Blk.emit_evtLost (o : Output) : (b.emit o).evtLost = b.evtLost := rfl
@[simp] theorem Blk.emit_keys (o : Output) : (b.emit o).keys = b.keys := rfl
@[simp] theorem Blk.emit_nonces (o : Output) : (b.emit o).nonces = b.nonces := rfl
@[simp] theorem Blk.emit_noncesSaved (o : Output) : (b.emit o).noncesSaved = b.noncesSaved := rfl
@[simp] theorem Blk.emit_bearingSeq (o : Output) : (b.emit o).bearingSeq = b.bearingSeq := rfl
@[simp] theorem Blk.emit_cnv (o : Output) : (b.emit o).cnv = b.cnv := rfl
@[simp] theorem Blk.emit_stc (o : Output) : (b.emit o).stc = b.stc := rfl
@[simp] theorem Blk.emit_e131Bank (o : Output) : (b.emit o).e131Bank = b.e131Bank := rfl
@[simp] theorem Blk.emit_drvGot (o : Output) : (b.emit o).drvGot = b.drvGot := rfl
@[simp] theorem Blk.emit_strs (o : Output) : (b.emit o).strs = b.strs := rfl
@[simp] theorem Blk.emit_pairG (o : Output) : (b.emit o).pairG = b.pairG := rfl
@[simp] theorem Blk.emit_nodes (o : Output) : (b.emit o).nodes = b.nodes := rfl
@[simp] theorem Blk.emit_alts (o : Output) : (b.emit o).alts = b.alts := rfl
@[simp] theorem Blk.emit_e131Rx (o : Output) : (b.emit o).e131Rx = b.e131Rx := rfl
@[simp] theorem Blk.emit_e131Syncs (o : Output) : (b.emit o).e131Syncs = b.e131Syncs := rfl
@[simp] theorem Blk.emit_e131TxSeq (o : Output) : (b.emit o).e131TxSeq = b.e131TxSeq := rfl
@[simp] theorem Blk.emit_e131SyncSeq (o : Output) : (b.emit o).e131SyncSeq = b.e131SyncSeq := rfl
@[simp] theorem Blk.emit_e131Term (o : Output) : (b.emit o).e131Term = b.e131Term := rfl
@[simp] theorem Blk.emit_drv (o : Output) : (b.emit o).drv = b.drv := rfl
@[simp] theorem Blk.emit_trk (o : Output) : (b.emit o).trk = b.trk := rfl
@[simp] theorem Blk.emit_pair (o : Output) : (b.emit o).pair = b.pair := rfl
@[simp] theorem Blk.emit_deviceId (o : Output) : (b.emit o).deviceId = b.deviceId := rfl
@[simp] theorem Blk.emit_host (o : Output) : (b.emit o).host = b.host := rfl
@[simp] theorem Blk.emit_mbxLate (o : Output) : (b.emit o).mbxLate = b.mbxLate := rfl
@[simp] theorem Blk.emit_lockWon (o : Output) : (b.emit o).lockWon = b.lockWon := rfl
@[simp] theorem Blk.emit_firm (o : Output) : (b.emit o).firm = b.firm := rfl
@[simp] theorem Blk.emit_dma (o : Output) : (b.emit o).dma = b.dma := rfl
@[simp] theorem Blk.emit_skn (o : Output) : (b.emit o).skn = b.skn := rfl
@[simp] theorem Blk.emit_crcCount (o : Output) : (b.emit o).crcCount = b.crcCount := rfl
@[simp] theorem Blk.emit_crcSet (o : Output) : (b.emit o).crcSet = b.crcSet := rfl
@[simp] theorem Blk.emit_crcEnded (o : Output) : (b.emit o).crcEnded = b.crcEnded := rfl
@[simp] theorem Blk.emit_cycAt (o : Output) : (b.emit o).cycAt = b.cycAt := rfl
@[simp] theorem Blk.emit_otp (o : Output) : (b.emit o).otp = b.otp := rfl
@[simp] theorem Blk.emit_pwr (o : Output) : (b.emit o).pwr = b.pwr := rfl
@[simp] theorem Blk.emit_life (o : Output) : (b.emit o).life = b.life := rfl
@[simp] theorem Blk.emit_fwu (o : Output) : (b.emit o).fwu = b.fwu := rfl
@[simp] theorem Blk.emit_log (o : Output) : (b.emit o).log = b.log := rfl
@[simp] theorem Blk.emit_lifeNow (o : Output) : (b.emit o).lifeNow = b.lifeNow := rfl
@[simp] theorem Blk.emit_cal (o : Output) : (b.emit o).cal = b.cal := rfl

/-! `drawn` -/

@[simp] theorem Blk.drawn_regs : (b.drawn).regs = b.regs := rfl
@[simp] theorem Blk.drawn_latches : (b.drawn).latches = b.latches := rfl
@[simp] theorem Blk.drawn_now : (b.drawn).now = b.now := rfl
@[simp] theorem Blk.drawn_raised : (b.drawn).raised = b.raised := rfl
@[simp] theorem Blk.drawn_raisedAt : (b.drawn).raisedAt = b.raisedAt := rfl
@[simp] theorem Blk.drawn_out : (b.drawn).out = b.out := rfl
@[simp] theorem Blk.drawn_wiping : (b.drawn).wiping = b.wiping := rfl
@[simp] theorem Blk.drawn_regionBlock : (b.drawn).regionBlock = b.regionBlock := rfl
@[simp] theorem Blk.drawn_spareBlocks : (b.drawn).spareBlocks = b.spareBlocks := rfl
@[simp] theorem Blk.drawn_regionStage : (b.drawn).regionStage = b.regionStage := rfl
@[simp] theorem Blk.drawn_atlasWaiting : (b.drawn).atlasWaiting = b.atlasWaiting := rfl
@[simp] theorem Blk.drawn_atlasCommit : (b.drawn).atlasCommit = b.atlasCommit := rfl
@[simp] theorem Blk.drawn_tbs : (b.drawn).tbs = b.tbs := rfl
@[simp] theorem Blk.drawn_tsq : (b.drawn).tsq = b.tsq := rfl
@[simp] theorem Blk.drawn_tsqLost : (b.drawn).tsqLost = b.tsqLost := rfl
@[simp] theorem Blk.drawn_synceOnSec : (b.drawn).synceOnSec = b.synceOnSec := rfl
@[simp] theorem Blk.drawn_syncePriLost : (b.drawn).syncePriLost = b.syncePriLost := rfl
@[simp] theorem Blk.drawn_synceSecLost : (b.drawn).synceSecLost = b.synceSecLost := rfl
@[simp] theorem Blk.drawn_synceHist : (b.drawn).synceHist = b.synceHist := rfl
@[simp] theorem Blk.drawn_staged : (b.drawn).staged = b.staged := rfl
@[simp] theorem Blk.drawn_mers : (b.drawn).mers = b.mers := rfl
@[simp] theorem Blk.drawn_wpts : (b.drawn).wpts = b.wpts := rfl
@[simp] theorem Blk.drawn_wptDue : (b.drawn).wptDue = b.wptDue := rfl
@[simp] theorem Blk.drawn_wptBusy : (b.drawn).wptBusy = b.wptBusy := rfl
@[simp] theorem Blk.drawn_wptGone : (b.drawn).wptGone = b.wptGone := rfl
@[simp] theorem Blk.drawn_wptFired : (b.drawn).wptFired = b.wptFired := rfl
@[simp] theorem Blk.drawn_evtQueue : (b.drawn).evtQueue = b.evtQueue := rfl
@[simp] theorem Blk.drawn_evtLevel : (b.drawn).evtLevel = b.evtLevel := rfl
@[simp] theorem Blk.drawn_evtPin : (b.drawn).evtPin = b.evtPin := rfl
@[simp] theorem Blk.drawn_evtPulse : (b.drawn).evtPulse = b.evtPulse := rfl
@[simp] theorem Blk.drawn_evtIn0 : (b.drawn).evtIn0 = b.evtIn0 := rfl
@[simp] theorem Blk.drawn_ppsEnd : (b.drawn).ppsEnd = b.ppsEnd := rfl
@[simp] theorem Blk.drawn_ppsLevel : (b.drawn).ppsLevel = b.ppsLevel := rfl
@[simp] theorem Blk.drawn_evtIn : (b.drawn).evtIn = b.evtIn := rfl
@[simp] theorem Blk.drawn_evtLost : (b.drawn).evtLost = b.evtLost := rfl
@[simp] theorem Blk.drawn_keys : (b.drawn).keys = b.keys := rfl
@[simp] theorem Blk.drawn_nonces : (b.drawn).nonces = b.nonces := rfl
@[simp] theorem Blk.drawn_noncesSaved : (b.drawn).noncesSaved = b.noncesSaved := rfl
@[simp] theorem Blk.drawn_bearingSeq : (b.drawn).bearingSeq = b.bearingSeq := rfl
@[simp] theorem Blk.drawn_cnv : (b.drawn).cnv = b.cnv := rfl
@[simp] theorem Blk.drawn_stc : (b.drawn).stc = b.stc := rfl
@[simp] theorem Blk.drawn_e131Bank : (b.drawn).e131Bank = b.e131Bank := rfl
@[simp] theorem Blk.drawn_drvGot : (b.drawn).drvGot = b.drvGot := rfl
@[simp] theorem Blk.drawn_strs : (b.drawn).strs = b.strs := rfl
@[simp] theorem Blk.drawn_pairG : (b.drawn).pairG = b.pairG := rfl
@[simp] theorem Blk.drawn_nodes : (b.drawn).nodes = b.nodes := rfl
@[simp] theorem Blk.drawn_alts : (b.drawn).alts = b.alts := rfl
@[simp] theorem Blk.drawn_e131Rx : (b.drawn).e131Rx = b.e131Rx := rfl
@[simp] theorem Blk.drawn_e131Syncs : (b.drawn).e131Syncs = b.e131Syncs := rfl
@[simp] theorem Blk.drawn_e131TxSeq : (b.drawn).e131TxSeq = b.e131TxSeq := rfl
@[simp] theorem Blk.drawn_e131SyncSeq : (b.drawn).e131SyncSeq = b.e131SyncSeq := rfl
@[simp] theorem Blk.drawn_e131Term : (b.drawn).e131Term = b.e131Term := rfl
@[simp] theorem Blk.drawn_drv : (b.drawn).drv = b.drv := rfl
@[simp] theorem Blk.drawn_trk : (b.drawn).trk = b.trk := rfl
@[simp] theorem Blk.drawn_pair : (b.drawn).pair = b.pair := rfl
@[simp] theorem Blk.drawn_deviceId : (b.drawn).deviceId = b.deviceId := rfl
@[simp] theorem Blk.drawn_host : (b.drawn).host = b.host := rfl
@[simp] theorem Blk.drawn_mbxLate : (b.drawn).mbxLate = b.mbxLate := rfl
@[simp] theorem Blk.drawn_lockWon : (b.drawn).lockWon = b.lockWon := rfl
@[simp] theorem Blk.drawn_firm : (b.drawn).firm = b.firm := rfl
@[simp] theorem Blk.drawn_dma : (b.drawn).dma = b.dma := rfl
@[simp] theorem Blk.drawn_skn : (b.drawn).skn = b.skn := rfl
@[simp] theorem Blk.drawn_crcCount : (b.drawn).crcCount = b.crcCount := rfl
@[simp] theorem Blk.drawn_crcSet : (b.drawn).crcSet = b.crcSet := rfl
@[simp] theorem Blk.drawn_crcEnded : (b.drawn).crcEnded = b.crcEnded := rfl
@[simp] theorem Blk.drawn_cycAt : (b.drawn).cycAt = b.cycAt := rfl
@[simp] theorem Blk.drawn_otp : (b.drawn).otp = b.otp := rfl
@[simp] theorem Blk.drawn_pwr : (b.drawn).pwr = b.pwr := rfl
@[simp] theorem Blk.drawn_life : (b.drawn).life = b.life := rfl
@[simp] theorem Blk.drawn_fwu : (b.drawn).fwu = b.fwu := rfl
@[simp] theorem Blk.drawn_log : (b.drawn).log = b.log := rfl
@[simp] theorem Blk.drawn_lifeNow : (b.drawn).lifeNow = b.lifeNow := rfl
@[simp] theorem Blk.drawn_cal : (b.drawn).cal = b.cal := rfl

/-! `setFirm` -/

@[simp] theorem Blk.setFirm_regs (x : Firm) : (b.setFirm x).regs = b.regs := rfl
@[simp] theorem Blk.setFirm_latches (x : Firm) : (b.setFirm x).latches = b.latches := rfl
@[simp] theorem Blk.setFirm_now (x : Firm) : (b.setFirm x).now = b.now := rfl
@[simp] theorem Blk.setFirm_raised (x : Firm) : (b.setFirm x).raised = b.raised := rfl
@[simp] theorem Blk.setFirm_raisedAt (x : Firm) : (b.setFirm x).raisedAt = b.raisedAt := rfl
@[simp] theorem Blk.setFirm_freeCount (x : Firm) : (b.setFirm x).freeCount = b.freeCount := rfl
@[simp] theorem Blk.setFirm_out (x : Firm) : (b.setFirm x).out = b.out := rfl
@[simp] theorem Blk.setFirm_wiping (x : Firm) : (b.setFirm x).wiping = b.wiping := rfl
@[simp] theorem Blk.setFirm_regionBlock (x : Firm) : (b.setFirm x).regionBlock = b.regionBlock := rfl
@[simp] theorem Blk.setFirm_spareBlocks (x : Firm) : (b.setFirm x).spareBlocks = b.spareBlocks := rfl
@[simp] theorem Blk.setFirm_regionStage (x : Firm) : (b.setFirm x).regionStage = b.regionStage := rfl
@[simp] theorem Blk.setFirm_atlasWaiting (x : Firm) : (b.setFirm x).atlasWaiting = b.atlasWaiting := rfl
@[simp] theorem Blk.setFirm_atlasCommit (x : Firm) : (b.setFirm x).atlasCommit = b.atlasCommit := rfl
@[simp] theorem Blk.setFirm_tbs (x : Firm) : (b.setFirm x).tbs = b.tbs := rfl
@[simp] theorem Blk.setFirm_tsq (x : Firm) : (b.setFirm x).tsq = b.tsq := rfl
@[simp] theorem Blk.setFirm_tsqLost (x : Firm) : (b.setFirm x).tsqLost = b.tsqLost := rfl
@[simp] theorem Blk.setFirm_synceOnSec (x : Firm) : (b.setFirm x).synceOnSec = b.synceOnSec := rfl
@[simp] theorem Blk.setFirm_syncePriLost (x : Firm) : (b.setFirm x).syncePriLost = b.syncePriLost := rfl
@[simp] theorem Blk.setFirm_synceSecLost (x : Firm) : (b.setFirm x).synceSecLost = b.synceSecLost := rfl
@[simp] theorem Blk.setFirm_synceHist (x : Firm) : (b.setFirm x).synceHist = b.synceHist := rfl
@[simp] theorem Blk.setFirm_staged (x : Firm) : (b.setFirm x).staged = b.staged := rfl
@[simp] theorem Blk.setFirm_mers (x : Firm) : (b.setFirm x).mers = b.mers := rfl
@[simp] theorem Blk.setFirm_wpts (x : Firm) : (b.setFirm x).wpts = b.wpts := rfl
@[simp] theorem Blk.setFirm_wptDue (x : Firm) : (b.setFirm x).wptDue = b.wptDue := rfl
@[simp] theorem Blk.setFirm_wptBusy (x : Firm) : (b.setFirm x).wptBusy = b.wptBusy := rfl
@[simp] theorem Blk.setFirm_wptGone (x : Firm) : (b.setFirm x).wptGone = b.wptGone := rfl
@[simp] theorem Blk.setFirm_wptFired (x : Firm) : (b.setFirm x).wptFired = b.wptFired := rfl
@[simp] theorem Blk.setFirm_evtQueue (x : Firm) : (b.setFirm x).evtQueue = b.evtQueue := rfl
@[simp] theorem Blk.setFirm_evtLevel (x : Firm) : (b.setFirm x).evtLevel = b.evtLevel := rfl
@[simp] theorem Blk.setFirm_evtPin (x : Firm) : (b.setFirm x).evtPin = b.evtPin := rfl
@[simp] theorem Blk.setFirm_evtPulse (x : Firm) : (b.setFirm x).evtPulse = b.evtPulse := rfl
@[simp] theorem Blk.setFirm_evtIn0 (x : Firm) : (b.setFirm x).evtIn0 = b.evtIn0 := rfl
@[simp] theorem Blk.setFirm_ppsEnd (x : Firm) : (b.setFirm x).ppsEnd = b.ppsEnd := rfl
@[simp] theorem Blk.setFirm_ppsLevel (x : Firm) : (b.setFirm x).ppsLevel = b.ppsLevel := rfl
@[simp] theorem Blk.setFirm_evtIn (x : Firm) : (b.setFirm x).evtIn = b.evtIn := rfl
@[simp] theorem Blk.setFirm_evtLost (x : Firm) : (b.setFirm x).evtLost = b.evtLost := rfl
@[simp] theorem Blk.setFirm_keys (x : Firm) : (b.setFirm x).keys = b.keys := rfl
@[simp] theorem Blk.setFirm_nonces (x : Firm) : (b.setFirm x).nonces = b.nonces := rfl
@[simp] theorem Blk.setFirm_noncesSaved (x : Firm) : (b.setFirm x).noncesSaved = b.noncesSaved := rfl
@[simp] theorem Blk.setFirm_bearingSeq (x : Firm) : (b.setFirm x).bearingSeq = b.bearingSeq := rfl
@[simp] theorem Blk.setFirm_cnv (x : Firm) : (b.setFirm x).cnv = b.cnv := rfl
@[simp] theorem Blk.setFirm_stc (x : Firm) : (b.setFirm x).stc = b.stc := rfl
@[simp] theorem Blk.setFirm_e131Bank (x : Firm) : (b.setFirm x).e131Bank = b.e131Bank := rfl
@[simp] theorem Blk.setFirm_drvGot (x : Firm) : (b.setFirm x).drvGot = b.drvGot := rfl
@[simp] theorem Blk.setFirm_strs (x : Firm) : (b.setFirm x).strs = b.strs := rfl
@[simp] theorem Blk.setFirm_pairG (x : Firm) : (b.setFirm x).pairG = b.pairG := rfl
@[simp] theorem Blk.setFirm_nodes (x : Firm) : (b.setFirm x).nodes = b.nodes := rfl
@[simp] theorem Blk.setFirm_alts (x : Firm) : (b.setFirm x).alts = b.alts := rfl
@[simp] theorem Blk.setFirm_e131Rx (x : Firm) : (b.setFirm x).e131Rx = b.e131Rx := rfl
@[simp] theorem Blk.setFirm_e131Syncs (x : Firm) : (b.setFirm x).e131Syncs = b.e131Syncs := rfl
@[simp] theorem Blk.setFirm_e131TxSeq (x : Firm) : (b.setFirm x).e131TxSeq = b.e131TxSeq := rfl
@[simp] theorem Blk.setFirm_e131SyncSeq (x : Firm) : (b.setFirm x).e131SyncSeq = b.e131SyncSeq := rfl
@[simp] theorem Blk.setFirm_e131Term (x : Firm) : (b.setFirm x).e131Term = b.e131Term := rfl
@[simp] theorem Blk.setFirm_drv (x : Firm) : (b.setFirm x).drv = b.drv := rfl
@[simp] theorem Blk.setFirm_trk (x : Firm) : (b.setFirm x).trk = b.trk := rfl
@[simp] theorem Blk.setFirm_pair (x : Firm) : (b.setFirm x).pair = b.pair := rfl
@[simp] theorem Blk.setFirm_deviceId (x : Firm) : (b.setFirm x).deviceId = b.deviceId := rfl
@[simp] theorem Blk.setFirm_host (x : Firm) : (b.setFirm x).host = b.host := rfl
@[simp] theorem Blk.setFirm_mbxLate (x : Firm) : (b.setFirm x).mbxLate = b.mbxLate := rfl
@[simp] theorem Blk.setFirm_lockWon (x : Firm) : (b.setFirm x).lockWon = b.lockWon := rfl
@[simp] theorem Blk.setFirm_dma (x : Firm) : (b.setFirm x).dma = b.dma := rfl
@[simp] theorem Blk.setFirm_skn (x : Firm) : (b.setFirm x).skn = b.skn := rfl
@[simp] theorem Blk.setFirm_crcCount (x : Firm) : (b.setFirm x).crcCount = b.crcCount := rfl
@[simp] theorem Blk.setFirm_crcSet (x : Firm) : (b.setFirm x).crcSet = b.crcSet := rfl
@[simp] theorem Blk.setFirm_crcEnded (x : Firm) : (b.setFirm x).crcEnded = b.crcEnded := rfl
@[simp] theorem Blk.setFirm_cycAt (x : Firm) : (b.setFirm x).cycAt = b.cycAt := rfl
@[simp] theorem Blk.setFirm_otp (x : Firm) : (b.setFirm x).otp = b.otp := rfl
@[simp] theorem Blk.setFirm_pwr (x : Firm) : (b.setFirm x).pwr = b.pwr := rfl
@[simp] theorem Blk.setFirm_life (x : Firm) : (b.setFirm x).life = b.life := rfl
@[simp] theorem Blk.setFirm_fwu (x : Firm) : (b.setFirm x).fwu = b.fwu := rfl
@[simp] theorem Blk.setFirm_log (x : Firm) : (b.setFirm x).log = b.log := rfl
@[simp] theorem Blk.setFirm_lifeNow (x : Firm) : (b.setFirm x).lifeNow = b.lifeNow := rfl
@[simp] theorem Blk.setFirm_cal (x : Firm) : (b.setFirm x).cal = b.cal := rfl

/-! `setPwr` -/

@[simp] theorem Blk.setPwr_regs (x : Power) : (b.setPwr x).regs = b.regs := rfl
@[simp] theorem Blk.setPwr_latches (x : Power) : (b.setPwr x).latches = b.latches := rfl
@[simp] theorem Blk.setPwr_now (x : Power) : (b.setPwr x).now = b.now := rfl
@[simp] theorem Blk.setPwr_raised (x : Power) : (b.setPwr x).raised = b.raised := rfl
@[simp] theorem Blk.setPwr_raisedAt (x : Power) : (b.setPwr x).raisedAt = b.raisedAt := rfl
@[simp] theorem Blk.setPwr_freeCount (x : Power) : (b.setPwr x).freeCount = b.freeCount := rfl
@[simp] theorem Blk.setPwr_out (x : Power) : (b.setPwr x).out = b.out := rfl
@[simp] theorem Blk.setPwr_wiping (x : Power) : (b.setPwr x).wiping = b.wiping := rfl
@[simp] theorem Blk.setPwr_regionBlock (x : Power) : (b.setPwr x).regionBlock = b.regionBlock := rfl
@[simp] theorem Blk.setPwr_spareBlocks (x : Power) : (b.setPwr x).spareBlocks = b.spareBlocks := rfl
@[simp] theorem Blk.setPwr_regionStage (x : Power) : (b.setPwr x).regionStage = b.regionStage := rfl
@[simp] theorem Blk.setPwr_atlasWaiting (x : Power) : (b.setPwr x).atlasWaiting = b.atlasWaiting := rfl
@[simp] theorem Blk.setPwr_atlasCommit (x : Power) : (b.setPwr x).atlasCommit = b.atlasCommit := rfl
@[simp] theorem Blk.setPwr_tbs (x : Power) : (b.setPwr x).tbs = b.tbs := rfl
@[simp] theorem Blk.setPwr_tsq (x : Power) : (b.setPwr x).tsq = b.tsq := rfl
@[simp] theorem Blk.setPwr_tsqLost (x : Power) : (b.setPwr x).tsqLost = b.tsqLost := rfl
@[simp] theorem Blk.setPwr_synceOnSec (x : Power) : (b.setPwr x).synceOnSec = b.synceOnSec := rfl
@[simp] theorem Blk.setPwr_syncePriLost (x : Power) : (b.setPwr x).syncePriLost = b.syncePriLost := rfl
@[simp] theorem Blk.setPwr_synceSecLost (x : Power) : (b.setPwr x).synceSecLost = b.synceSecLost := rfl
@[simp] theorem Blk.setPwr_synceHist (x : Power) : (b.setPwr x).synceHist = b.synceHist := rfl
@[simp] theorem Blk.setPwr_staged (x : Power) : (b.setPwr x).staged = b.staged := rfl
@[simp] theorem Blk.setPwr_mers (x : Power) : (b.setPwr x).mers = b.mers := rfl
@[simp] theorem Blk.setPwr_wpts (x : Power) : (b.setPwr x).wpts = b.wpts := rfl
@[simp] theorem Blk.setPwr_wptDue (x : Power) : (b.setPwr x).wptDue = b.wptDue := rfl
@[simp] theorem Blk.setPwr_wptBusy (x : Power) : (b.setPwr x).wptBusy = b.wptBusy := rfl
@[simp] theorem Blk.setPwr_wptGone (x : Power) : (b.setPwr x).wptGone = b.wptGone := rfl
@[simp] theorem Blk.setPwr_wptFired (x : Power) : (b.setPwr x).wptFired = b.wptFired := rfl
@[simp] theorem Blk.setPwr_evtQueue (x : Power) : (b.setPwr x).evtQueue = b.evtQueue := rfl
@[simp] theorem Blk.setPwr_evtLevel (x : Power) : (b.setPwr x).evtLevel = b.evtLevel := rfl
@[simp] theorem Blk.setPwr_evtPin (x : Power) : (b.setPwr x).evtPin = b.evtPin := rfl
@[simp] theorem Blk.setPwr_evtPulse (x : Power) : (b.setPwr x).evtPulse = b.evtPulse := rfl
@[simp] theorem Blk.setPwr_evtIn0 (x : Power) : (b.setPwr x).evtIn0 = b.evtIn0 := rfl
@[simp] theorem Blk.setPwr_ppsEnd (x : Power) : (b.setPwr x).ppsEnd = b.ppsEnd := rfl
@[simp] theorem Blk.setPwr_ppsLevel (x : Power) : (b.setPwr x).ppsLevel = b.ppsLevel := rfl
@[simp] theorem Blk.setPwr_evtIn (x : Power) : (b.setPwr x).evtIn = b.evtIn := rfl
@[simp] theorem Blk.setPwr_evtLost (x : Power) : (b.setPwr x).evtLost = b.evtLost := rfl
@[simp] theorem Blk.setPwr_keys (x : Power) : (b.setPwr x).keys = b.keys := rfl
@[simp] theorem Blk.setPwr_nonces (x : Power) : (b.setPwr x).nonces = b.nonces := rfl
@[simp] theorem Blk.setPwr_noncesSaved (x : Power) : (b.setPwr x).noncesSaved = b.noncesSaved := rfl
@[simp] theorem Blk.setPwr_bearingSeq (x : Power) : (b.setPwr x).bearingSeq = b.bearingSeq := rfl
@[simp] theorem Blk.setPwr_cnv (x : Power) : (b.setPwr x).cnv = b.cnv := rfl
@[simp] theorem Blk.setPwr_stc (x : Power) : (b.setPwr x).stc = b.stc := rfl
@[simp] theorem Blk.setPwr_e131Bank (x : Power) : (b.setPwr x).e131Bank = b.e131Bank := rfl
@[simp] theorem Blk.setPwr_drvGot (x : Power) : (b.setPwr x).drvGot = b.drvGot := rfl
@[simp] theorem Blk.setPwr_strs (x : Power) : (b.setPwr x).strs = b.strs := rfl
@[simp] theorem Blk.setPwr_pairG (x : Power) : (b.setPwr x).pairG = b.pairG := rfl
@[simp] theorem Blk.setPwr_nodes (x : Power) : (b.setPwr x).nodes = b.nodes := rfl
@[simp] theorem Blk.setPwr_alts (x : Power) : (b.setPwr x).alts = b.alts := rfl
@[simp] theorem Blk.setPwr_e131Rx (x : Power) : (b.setPwr x).e131Rx = b.e131Rx := rfl
@[simp] theorem Blk.setPwr_e131Syncs (x : Power) : (b.setPwr x).e131Syncs = b.e131Syncs := rfl
@[simp] theorem Blk.setPwr_e131TxSeq (x : Power) : (b.setPwr x).e131TxSeq = b.e131TxSeq := rfl
@[simp] theorem Blk.setPwr_e131SyncSeq (x : Power) : (b.setPwr x).e131SyncSeq = b.e131SyncSeq := rfl
@[simp] theorem Blk.setPwr_e131Term (x : Power) : (b.setPwr x).e131Term = b.e131Term := rfl
@[simp] theorem Blk.setPwr_drv (x : Power) : (b.setPwr x).drv = b.drv := rfl
@[simp] theorem Blk.setPwr_trk (x : Power) : (b.setPwr x).trk = b.trk := rfl
@[simp] theorem Blk.setPwr_pair (x : Power) : (b.setPwr x).pair = b.pair := rfl
@[simp] theorem Blk.setPwr_deviceId (x : Power) : (b.setPwr x).deviceId = b.deviceId := rfl
@[simp] theorem Blk.setPwr_host (x : Power) : (b.setPwr x).host = b.host := rfl
@[simp] theorem Blk.setPwr_mbxLate (x : Power) : (b.setPwr x).mbxLate = b.mbxLate := rfl
@[simp] theorem Blk.setPwr_lockWon (x : Power) : (b.setPwr x).lockWon = b.lockWon := rfl
@[simp] theorem Blk.setPwr_firm (x : Power) : (b.setPwr x).firm = b.firm := rfl
@[simp] theorem Blk.setPwr_dma (x : Power) : (b.setPwr x).dma = b.dma := rfl
@[simp] theorem Blk.setPwr_skn (x : Power) : (b.setPwr x).skn = b.skn := rfl
@[simp] theorem Blk.setPwr_crcCount (x : Power) : (b.setPwr x).crcCount = b.crcCount := rfl
@[simp] theorem Blk.setPwr_crcSet (x : Power) : (b.setPwr x).crcSet = b.crcSet := rfl
@[simp] theorem Blk.setPwr_crcEnded (x : Power) : (b.setPwr x).crcEnded = b.crcEnded := rfl
@[simp] theorem Blk.setPwr_cycAt (x : Power) : (b.setPwr x).cycAt = b.cycAt := rfl
@[simp] theorem Blk.setPwr_otp (x : Power) : (b.setPwr x).otp = b.otp := rfl
@[simp] theorem Blk.setPwr_life (x : Power) : (b.setPwr x).life = b.life := rfl
@[simp] theorem Blk.setPwr_fwu (x : Power) : (b.setPwr x).fwu = b.fwu := rfl
@[simp] theorem Blk.setPwr_log (x : Power) : (b.setPwr x).log = b.log := rfl
@[simp] theorem Blk.setPwr_lifeNow (x : Power) : (b.setPwr x).lifeNow = b.lifeNow := rfl
@[simp] theorem Blk.setPwr_cal (x : Power) : (b.setPwr x).cal = b.cal := rfl

/-! `setFwu` -/

@[simp] theorem Blk.setFwu_regs (x : Fwu) : (b.setFwu x).regs = b.regs := rfl
@[simp] theorem Blk.setFwu_latches (x : Fwu) : (b.setFwu x).latches = b.latches := rfl
@[simp] theorem Blk.setFwu_now (x : Fwu) : (b.setFwu x).now = b.now := rfl
@[simp] theorem Blk.setFwu_raised (x : Fwu) : (b.setFwu x).raised = b.raised := rfl
@[simp] theorem Blk.setFwu_raisedAt (x : Fwu) : (b.setFwu x).raisedAt = b.raisedAt := rfl
@[simp] theorem Blk.setFwu_freeCount (x : Fwu) : (b.setFwu x).freeCount = b.freeCount := rfl
@[simp] theorem Blk.setFwu_out (x : Fwu) : (b.setFwu x).out = b.out := rfl
@[simp] theorem Blk.setFwu_wiping (x : Fwu) : (b.setFwu x).wiping = b.wiping := rfl
@[simp] theorem Blk.setFwu_regionBlock (x : Fwu) : (b.setFwu x).regionBlock = b.regionBlock := rfl
@[simp] theorem Blk.setFwu_spareBlocks (x : Fwu) : (b.setFwu x).spareBlocks = b.spareBlocks := rfl
@[simp] theorem Blk.setFwu_regionStage (x : Fwu) : (b.setFwu x).regionStage = b.regionStage := rfl
@[simp] theorem Blk.setFwu_atlasWaiting (x : Fwu) : (b.setFwu x).atlasWaiting = b.atlasWaiting := rfl
@[simp] theorem Blk.setFwu_atlasCommit (x : Fwu) : (b.setFwu x).atlasCommit = b.atlasCommit := rfl
@[simp] theorem Blk.setFwu_tbs (x : Fwu) : (b.setFwu x).tbs = b.tbs := rfl
@[simp] theorem Blk.setFwu_tsq (x : Fwu) : (b.setFwu x).tsq = b.tsq := rfl
@[simp] theorem Blk.setFwu_tsqLost (x : Fwu) : (b.setFwu x).tsqLost = b.tsqLost := rfl
@[simp] theorem Blk.setFwu_synceOnSec (x : Fwu) : (b.setFwu x).synceOnSec = b.synceOnSec := rfl
@[simp] theorem Blk.setFwu_syncePriLost (x : Fwu) : (b.setFwu x).syncePriLost = b.syncePriLost := rfl
@[simp] theorem Blk.setFwu_synceSecLost (x : Fwu) : (b.setFwu x).synceSecLost = b.synceSecLost := rfl
@[simp] theorem Blk.setFwu_synceHist (x : Fwu) : (b.setFwu x).synceHist = b.synceHist := rfl
@[simp] theorem Blk.setFwu_staged (x : Fwu) : (b.setFwu x).staged = b.staged := rfl
@[simp] theorem Blk.setFwu_mers (x : Fwu) : (b.setFwu x).mers = b.mers := rfl
@[simp] theorem Blk.setFwu_wpts (x : Fwu) : (b.setFwu x).wpts = b.wpts := rfl
@[simp] theorem Blk.setFwu_wptDue (x : Fwu) : (b.setFwu x).wptDue = b.wptDue := rfl
@[simp] theorem Blk.setFwu_wptBusy (x : Fwu) : (b.setFwu x).wptBusy = b.wptBusy := rfl
@[simp] theorem Blk.setFwu_wptGone (x : Fwu) : (b.setFwu x).wptGone = b.wptGone := rfl
@[simp] theorem Blk.setFwu_wptFired (x : Fwu) : (b.setFwu x).wptFired = b.wptFired := rfl
@[simp] theorem Blk.setFwu_evtQueue (x : Fwu) : (b.setFwu x).evtQueue = b.evtQueue := rfl
@[simp] theorem Blk.setFwu_evtLevel (x : Fwu) : (b.setFwu x).evtLevel = b.evtLevel := rfl
@[simp] theorem Blk.setFwu_evtPin (x : Fwu) : (b.setFwu x).evtPin = b.evtPin := rfl
@[simp] theorem Blk.setFwu_evtPulse (x : Fwu) : (b.setFwu x).evtPulse = b.evtPulse := rfl
@[simp] theorem Blk.setFwu_evtIn0 (x : Fwu) : (b.setFwu x).evtIn0 = b.evtIn0 := rfl
@[simp] theorem Blk.setFwu_ppsEnd (x : Fwu) : (b.setFwu x).ppsEnd = b.ppsEnd := rfl
@[simp] theorem Blk.setFwu_ppsLevel (x : Fwu) : (b.setFwu x).ppsLevel = b.ppsLevel := rfl
@[simp] theorem Blk.setFwu_evtIn (x : Fwu) : (b.setFwu x).evtIn = b.evtIn := rfl
@[simp] theorem Blk.setFwu_evtLost (x : Fwu) : (b.setFwu x).evtLost = b.evtLost := rfl
@[simp] theorem Blk.setFwu_keys (x : Fwu) : (b.setFwu x).keys = b.keys := rfl
@[simp] theorem Blk.setFwu_nonces (x : Fwu) : (b.setFwu x).nonces = b.nonces := rfl
@[simp] theorem Blk.setFwu_noncesSaved (x : Fwu) : (b.setFwu x).noncesSaved = b.noncesSaved := rfl
@[simp] theorem Blk.setFwu_bearingSeq (x : Fwu) : (b.setFwu x).bearingSeq = b.bearingSeq := rfl
@[simp] theorem Blk.setFwu_cnv (x : Fwu) : (b.setFwu x).cnv = b.cnv := rfl
@[simp] theorem Blk.setFwu_stc (x : Fwu) : (b.setFwu x).stc = b.stc := rfl
@[simp] theorem Blk.setFwu_e131Bank (x : Fwu) : (b.setFwu x).e131Bank = b.e131Bank := rfl
@[simp] theorem Blk.setFwu_drvGot (x : Fwu) : (b.setFwu x).drvGot = b.drvGot := rfl
@[simp] theorem Blk.setFwu_strs (x : Fwu) : (b.setFwu x).strs = b.strs := rfl
@[simp] theorem Blk.setFwu_pairG (x : Fwu) : (b.setFwu x).pairG = b.pairG := rfl
@[simp] theorem Blk.setFwu_nodes (x : Fwu) : (b.setFwu x).nodes = b.nodes := rfl
@[simp] theorem Blk.setFwu_alts (x : Fwu) : (b.setFwu x).alts = b.alts := rfl
@[simp] theorem Blk.setFwu_e131Rx (x : Fwu) : (b.setFwu x).e131Rx = b.e131Rx := rfl
@[simp] theorem Blk.setFwu_e131Syncs (x : Fwu) : (b.setFwu x).e131Syncs = b.e131Syncs := rfl
@[simp] theorem Blk.setFwu_e131TxSeq (x : Fwu) : (b.setFwu x).e131TxSeq = b.e131TxSeq := rfl
@[simp] theorem Blk.setFwu_e131SyncSeq (x : Fwu) : (b.setFwu x).e131SyncSeq = b.e131SyncSeq := rfl
@[simp] theorem Blk.setFwu_e131Term (x : Fwu) : (b.setFwu x).e131Term = b.e131Term := rfl
@[simp] theorem Blk.setFwu_drv (x : Fwu) : (b.setFwu x).drv = b.drv := rfl
@[simp] theorem Blk.setFwu_trk (x : Fwu) : (b.setFwu x).trk = b.trk := rfl
@[simp] theorem Blk.setFwu_pair (x : Fwu) : (b.setFwu x).pair = b.pair := rfl
@[simp] theorem Blk.setFwu_deviceId (x : Fwu) : (b.setFwu x).deviceId = b.deviceId := rfl
@[simp] theorem Blk.setFwu_host (x : Fwu) : (b.setFwu x).host = b.host := rfl
@[simp] theorem Blk.setFwu_mbxLate (x : Fwu) : (b.setFwu x).mbxLate = b.mbxLate := rfl
@[simp] theorem Blk.setFwu_lockWon (x : Fwu) : (b.setFwu x).lockWon = b.lockWon := rfl
@[simp] theorem Blk.setFwu_firm (x : Fwu) : (b.setFwu x).firm = b.firm := rfl
@[simp] theorem Blk.setFwu_dma (x : Fwu) : (b.setFwu x).dma = b.dma := rfl
@[simp] theorem Blk.setFwu_skn (x : Fwu) : (b.setFwu x).skn = b.skn := rfl
@[simp] theorem Blk.setFwu_crcCount (x : Fwu) : (b.setFwu x).crcCount = b.crcCount := rfl
@[simp] theorem Blk.setFwu_crcSet (x : Fwu) : (b.setFwu x).crcSet = b.crcSet := rfl
@[simp] theorem Blk.setFwu_crcEnded (x : Fwu) : (b.setFwu x).crcEnded = b.crcEnded := rfl
@[simp] theorem Blk.setFwu_cycAt (x : Fwu) : (b.setFwu x).cycAt = b.cycAt := rfl
@[simp] theorem Blk.setFwu_otp (x : Fwu) : (b.setFwu x).otp = b.otp := rfl
@[simp] theorem Blk.setFwu_pwr (x : Fwu) : (b.setFwu x).pwr = b.pwr := rfl
@[simp] theorem Blk.setFwu_life (x : Fwu) : (b.setFwu x).life = b.life := rfl
@[simp] theorem Blk.setFwu_log (x : Fwu) : (b.setFwu x).log = b.log := rfl
@[simp] theorem Blk.setFwu_lifeNow (x : Fwu) : (b.setFwu x).lifeNow = b.lifeNow := rfl
@[simp] theorem Blk.setFwu_cal (x : Fwu) : (b.setFwu x).cal = b.cal := rfl

/-! `setTb` -/

@[simp] theorem Blk.setTb_regs (n : Nat) (x : TimeBase) : (b.setTb n x).regs = b.regs := rfl
@[simp] theorem Blk.setTb_latches (n : Nat) (x : TimeBase) : (b.setTb n x).latches = b.latches := rfl
@[simp] theorem Blk.setTb_now (n : Nat) (x : TimeBase) : (b.setTb n x).now = b.now := rfl
@[simp] theorem Blk.setTb_raised (n : Nat) (x : TimeBase) : (b.setTb n x).raised = b.raised := rfl
@[simp] theorem Blk.setTb_raisedAt (n : Nat) (x : TimeBase) : (b.setTb n x).raisedAt = b.raisedAt := rfl
@[simp] theorem Blk.setTb_freeCount (n : Nat) (x : TimeBase) : (b.setTb n x).freeCount = b.freeCount := rfl
@[simp] theorem Blk.setTb_out (n : Nat) (x : TimeBase) : (b.setTb n x).out = b.out := rfl
@[simp] theorem Blk.setTb_wiping (n : Nat) (x : TimeBase) : (b.setTb n x).wiping = b.wiping := rfl
@[simp] theorem Blk.setTb_regionBlock (n : Nat) (x : TimeBase) : (b.setTb n x).regionBlock = b.regionBlock := rfl
@[simp] theorem Blk.setTb_spareBlocks (n : Nat) (x : TimeBase) : (b.setTb n x).spareBlocks = b.spareBlocks := rfl
@[simp] theorem Blk.setTb_regionStage (n : Nat) (x : TimeBase) : (b.setTb n x).regionStage = b.regionStage := rfl
@[simp] theorem Blk.setTb_atlasWaiting (n : Nat) (x : TimeBase) : (b.setTb n x).atlasWaiting = b.atlasWaiting := rfl
@[simp] theorem Blk.setTb_atlasCommit (n : Nat) (x : TimeBase) : (b.setTb n x).atlasCommit = b.atlasCommit := rfl
@[simp] theorem Blk.setTb_tsq (n : Nat) (x : TimeBase) : (b.setTb n x).tsq = b.tsq := rfl
@[simp] theorem Blk.setTb_tsqLost (n : Nat) (x : TimeBase) : (b.setTb n x).tsqLost = b.tsqLost := rfl
@[simp] theorem Blk.setTb_synceOnSec (n : Nat) (x : TimeBase) : (b.setTb n x).synceOnSec = b.synceOnSec := rfl
@[simp] theorem Blk.setTb_syncePriLost (n : Nat) (x : TimeBase) : (b.setTb n x).syncePriLost = b.syncePriLost := rfl
@[simp] theorem Blk.setTb_synceSecLost (n : Nat) (x : TimeBase) : (b.setTb n x).synceSecLost = b.synceSecLost := rfl
@[simp] theorem Blk.setTb_synceHist (n : Nat) (x : TimeBase) : (b.setTb n x).synceHist = b.synceHist := rfl
@[simp] theorem Blk.setTb_staged (n : Nat) (x : TimeBase) : (b.setTb n x).staged = b.staged := rfl
@[simp] theorem Blk.setTb_mers (n : Nat) (x : TimeBase) : (b.setTb n x).mers = b.mers := rfl
@[simp] theorem Blk.setTb_wpts (n : Nat) (x : TimeBase) : (b.setTb n x).wpts = b.wpts := rfl
@[simp] theorem Blk.setTb_wptDue (n : Nat) (x : TimeBase) : (b.setTb n x).wptDue = b.wptDue := rfl
@[simp] theorem Blk.setTb_wptBusy (n : Nat) (x : TimeBase) : (b.setTb n x).wptBusy = b.wptBusy := rfl
@[simp] theorem Blk.setTb_wptGone (n : Nat) (x : TimeBase) : (b.setTb n x).wptGone = b.wptGone := rfl
@[simp] theorem Blk.setTb_wptFired (n : Nat) (x : TimeBase) : (b.setTb n x).wptFired = b.wptFired := rfl
@[simp] theorem Blk.setTb_evtQueue (n : Nat) (x : TimeBase) : (b.setTb n x).evtQueue = b.evtQueue := rfl
@[simp] theorem Blk.setTb_evtLevel (n : Nat) (x : TimeBase) : (b.setTb n x).evtLevel = b.evtLevel := rfl
@[simp] theorem Blk.setTb_evtPin (n : Nat) (x : TimeBase) : (b.setTb n x).evtPin = b.evtPin := rfl
@[simp] theorem Blk.setTb_evtPulse (n : Nat) (x : TimeBase) : (b.setTb n x).evtPulse = b.evtPulse := rfl
@[simp] theorem Blk.setTb_evtIn0 (n : Nat) (x : TimeBase) : (b.setTb n x).evtIn0 = b.evtIn0 := rfl
@[simp] theorem Blk.setTb_ppsEnd (n : Nat) (x : TimeBase) : (b.setTb n x).ppsEnd = b.ppsEnd := rfl
@[simp] theorem Blk.setTb_ppsLevel (n : Nat) (x : TimeBase) : (b.setTb n x).ppsLevel = b.ppsLevel := rfl
@[simp] theorem Blk.setTb_evtIn (n : Nat) (x : TimeBase) : (b.setTb n x).evtIn = b.evtIn := rfl
@[simp] theorem Blk.setTb_evtLost (n : Nat) (x : TimeBase) : (b.setTb n x).evtLost = b.evtLost := rfl
@[simp] theorem Blk.setTb_keys (n : Nat) (x : TimeBase) : (b.setTb n x).keys = b.keys := rfl
@[simp] theorem Blk.setTb_nonces (n : Nat) (x : TimeBase) : (b.setTb n x).nonces = b.nonces := rfl
@[simp] theorem Blk.setTb_noncesSaved (n : Nat) (x : TimeBase) : (b.setTb n x).noncesSaved = b.noncesSaved := rfl
@[simp] theorem Blk.setTb_bearingSeq (n : Nat) (x : TimeBase) : (b.setTb n x).bearingSeq = b.bearingSeq := rfl
@[simp] theorem Blk.setTb_cnv (n : Nat) (x : TimeBase) : (b.setTb n x).cnv = b.cnv := rfl
@[simp] theorem Blk.setTb_stc (n : Nat) (x : TimeBase) : (b.setTb n x).stc = b.stc := rfl
@[simp] theorem Blk.setTb_e131Bank (n : Nat) (x : TimeBase) : (b.setTb n x).e131Bank = b.e131Bank := rfl
@[simp] theorem Blk.setTb_drvGot (n : Nat) (x : TimeBase) : (b.setTb n x).drvGot = b.drvGot := rfl
@[simp] theorem Blk.setTb_strs (n : Nat) (x : TimeBase) : (b.setTb n x).strs = b.strs := rfl
@[simp] theorem Blk.setTb_pairG (n : Nat) (x : TimeBase) : (b.setTb n x).pairG = b.pairG := rfl
@[simp] theorem Blk.setTb_nodes (n : Nat) (x : TimeBase) : (b.setTb n x).nodes = b.nodes := rfl
@[simp] theorem Blk.setTb_alts (n : Nat) (x : TimeBase) : (b.setTb n x).alts = b.alts := rfl
@[simp] theorem Blk.setTb_e131Rx (n : Nat) (x : TimeBase) : (b.setTb n x).e131Rx = b.e131Rx := rfl
@[simp] theorem Blk.setTb_e131Syncs (n : Nat) (x : TimeBase) : (b.setTb n x).e131Syncs = b.e131Syncs := rfl
@[simp] theorem Blk.setTb_e131TxSeq (n : Nat) (x : TimeBase) : (b.setTb n x).e131TxSeq = b.e131TxSeq := rfl
@[simp] theorem Blk.setTb_e131SyncSeq (n : Nat) (x : TimeBase) : (b.setTb n x).e131SyncSeq = b.e131SyncSeq := rfl
@[simp] theorem Blk.setTb_e131Term (n : Nat) (x : TimeBase) : (b.setTb n x).e131Term = b.e131Term := rfl
@[simp] theorem Blk.setTb_drv (n : Nat) (x : TimeBase) : (b.setTb n x).drv = b.drv := rfl
@[simp] theorem Blk.setTb_trk (n : Nat) (x : TimeBase) : (b.setTb n x).trk = b.trk := rfl
@[simp] theorem Blk.setTb_pair (n : Nat) (x : TimeBase) : (b.setTb n x).pair = b.pair := rfl
@[simp] theorem Blk.setTb_deviceId (n : Nat) (x : TimeBase) : (b.setTb n x).deviceId = b.deviceId := rfl
@[simp] theorem Blk.setTb_host (n : Nat) (x : TimeBase) : (b.setTb n x).host = b.host := rfl
@[simp] theorem Blk.setTb_mbxLate (n : Nat) (x : TimeBase) : (b.setTb n x).mbxLate = b.mbxLate := rfl
@[simp] theorem Blk.setTb_lockWon (n : Nat) (x : TimeBase) : (b.setTb n x).lockWon = b.lockWon := rfl
@[simp] theorem Blk.setTb_firm (n : Nat) (x : TimeBase) : (b.setTb n x).firm = b.firm := rfl
@[simp] theorem Blk.setTb_dma (n : Nat) (x : TimeBase) : (b.setTb n x).dma = b.dma := rfl
@[simp] theorem Blk.setTb_skn (n : Nat) (x : TimeBase) : (b.setTb n x).skn = b.skn := rfl
@[simp] theorem Blk.setTb_crcCount (n : Nat) (x : TimeBase) : (b.setTb n x).crcCount = b.crcCount := rfl
@[simp] theorem Blk.setTb_crcSet (n : Nat) (x : TimeBase) : (b.setTb n x).crcSet = b.crcSet := rfl
@[simp] theorem Blk.setTb_crcEnded (n : Nat) (x : TimeBase) : (b.setTb n x).crcEnded = b.crcEnded := rfl
@[simp] theorem Blk.setTb_cycAt (n : Nat) (x : TimeBase) : (b.setTb n x).cycAt = b.cycAt := rfl
@[simp] theorem Blk.setTb_otp (n : Nat) (x : TimeBase) : (b.setTb n x).otp = b.otp := rfl
@[simp] theorem Blk.setTb_pwr (n : Nat) (x : TimeBase) : (b.setTb n x).pwr = b.pwr := rfl
@[simp] theorem Blk.setTb_life (n : Nat) (x : TimeBase) : (b.setTb n x).life = b.life := rfl
@[simp] theorem Blk.setTb_fwu (n : Nat) (x : TimeBase) : (b.setTb n x).fwu = b.fwu := rfl
@[simp] theorem Blk.setTb_log (n : Nat) (x : TimeBase) : (b.setTb n x).log = b.log := rfl
@[simp] theorem Blk.setTb_lifeNow (n : Nat) (x : TimeBase) : (b.setTb n x).lifeNow = b.lifeNow := rfl
@[simp] theorem Blk.setTb_cal (n : Nat) (x : TimeBase) : (b.setTb n x).cal = b.cal := rfl

/-! `setMer` -/

@[simp] theorem Blk.setMer_regs (n : Nat) (x : Meridian) : (b.setMer n x).regs = b.regs := rfl
@[simp] theorem Blk.setMer_latches (n : Nat) (x : Meridian) : (b.setMer n x).latches = b.latches := rfl
@[simp] theorem Blk.setMer_now (n : Nat) (x : Meridian) : (b.setMer n x).now = b.now := rfl
@[simp] theorem Blk.setMer_raised (n : Nat) (x : Meridian) : (b.setMer n x).raised = b.raised := rfl
@[simp] theorem Blk.setMer_raisedAt (n : Nat) (x : Meridian) : (b.setMer n x).raisedAt = b.raisedAt := rfl
@[simp] theorem Blk.setMer_freeCount (n : Nat) (x : Meridian) : (b.setMer n x).freeCount = b.freeCount := rfl
@[simp] theorem Blk.setMer_out (n : Nat) (x : Meridian) : (b.setMer n x).out = b.out := rfl
@[simp] theorem Blk.setMer_wiping (n : Nat) (x : Meridian) : (b.setMer n x).wiping = b.wiping := rfl
@[simp] theorem Blk.setMer_regionBlock (n : Nat) (x : Meridian) : (b.setMer n x).regionBlock = b.regionBlock := rfl
@[simp] theorem Blk.setMer_spareBlocks (n : Nat) (x : Meridian) : (b.setMer n x).spareBlocks = b.spareBlocks := rfl
@[simp] theorem Blk.setMer_regionStage (n : Nat) (x : Meridian) : (b.setMer n x).regionStage = b.regionStage := rfl
@[simp] theorem Blk.setMer_atlasWaiting (n : Nat) (x : Meridian) : (b.setMer n x).atlasWaiting = b.atlasWaiting := rfl
@[simp] theorem Blk.setMer_atlasCommit (n : Nat) (x : Meridian) : (b.setMer n x).atlasCommit = b.atlasCommit := rfl
@[simp] theorem Blk.setMer_tbs (n : Nat) (x : Meridian) : (b.setMer n x).tbs = b.tbs := rfl
@[simp] theorem Blk.setMer_tsq (n : Nat) (x : Meridian) : (b.setMer n x).tsq = b.tsq := rfl
@[simp] theorem Blk.setMer_tsqLost (n : Nat) (x : Meridian) : (b.setMer n x).tsqLost = b.tsqLost := rfl
@[simp] theorem Blk.setMer_synceOnSec (n : Nat) (x : Meridian) : (b.setMer n x).synceOnSec = b.synceOnSec := rfl
@[simp] theorem Blk.setMer_syncePriLost (n : Nat) (x : Meridian) : (b.setMer n x).syncePriLost = b.syncePriLost := rfl
@[simp] theorem Blk.setMer_synceSecLost (n : Nat) (x : Meridian) : (b.setMer n x).synceSecLost = b.synceSecLost := rfl
@[simp] theorem Blk.setMer_synceHist (n : Nat) (x : Meridian) : (b.setMer n x).synceHist = b.synceHist := rfl
@[simp] theorem Blk.setMer_staged (n : Nat) (x : Meridian) : (b.setMer n x).staged = b.staged := rfl
@[simp] theorem Blk.setMer_wpts (n : Nat) (x : Meridian) : (b.setMer n x).wpts = b.wpts := rfl
@[simp] theorem Blk.setMer_wptDue (n : Nat) (x : Meridian) : (b.setMer n x).wptDue = b.wptDue := rfl
@[simp] theorem Blk.setMer_wptBusy (n : Nat) (x : Meridian) : (b.setMer n x).wptBusy = b.wptBusy := rfl
@[simp] theorem Blk.setMer_wptGone (n : Nat) (x : Meridian) : (b.setMer n x).wptGone = b.wptGone := rfl
@[simp] theorem Blk.setMer_wptFired (n : Nat) (x : Meridian) : (b.setMer n x).wptFired = b.wptFired := rfl
@[simp] theorem Blk.setMer_evtQueue (n : Nat) (x : Meridian) : (b.setMer n x).evtQueue = b.evtQueue := rfl
@[simp] theorem Blk.setMer_evtLevel (n : Nat) (x : Meridian) : (b.setMer n x).evtLevel = b.evtLevel := rfl
@[simp] theorem Blk.setMer_evtPin (n : Nat) (x : Meridian) : (b.setMer n x).evtPin = b.evtPin := rfl
@[simp] theorem Blk.setMer_evtPulse (n : Nat) (x : Meridian) : (b.setMer n x).evtPulse = b.evtPulse := rfl
@[simp] theorem Blk.setMer_evtIn0 (n : Nat) (x : Meridian) : (b.setMer n x).evtIn0 = b.evtIn0 := rfl
@[simp] theorem Blk.setMer_ppsEnd (n : Nat) (x : Meridian) : (b.setMer n x).ppsEnd = b.ppsEnd := rfl
@[simp] theorem Blk.setMer_ppsLevel (n : Nat) (x : Meridian) : (b.setMer n x).ppsLevel = b.ppsLevel := rfl
@[simp] theorem Blk.setMer_evtIn (n : Nat) (x : Meridian) : (b.setMer n x).evtIn = b.evtIn := rfl
@[simp] theorem Blk.setMer_evtLost (n : Nat) (x : Meridian) : (b.setMer n x).evtLost = b.evtLost := rfl
@[simp] theorem Blk.setMer_keys (n : Nat) (x : Meridian) : (b.setMer n x).keys = b.keys := rfl
@[simp] theorem Blk.setMer_nonces (n : Nat) (x : Meridian) : (b.setMer n x).nonces = b.nonces := rfl
@[simp] theorem Blk.setMer_noncesSaved (n : Nat) (x : Meridian) : (b.setMer n x).noncesSaved = b.noncesSaved := rfl
@[simp] theorem Blk.setMer_bearingSeq (n : Nat) (x : Meridian) : (b.setMer n x).bearingSeq = b.bearingSeq := rfl
@[simp] theorem Blk.setMer_cnv (n : Nat) (x : Meridian) : (b.setMer n x).cnv = b.cnv := rfl
@[simp] theorem Blk.setMer_stc (n : Nat) (x : Meridian) : (b.setMer n x).stc = b.stc := rfl
@[simp] theorem Blk.setMer_e131Bank (n : Nat) (x : Meridian) : (b.setMer n x).e131Bank = b.e131Bank := rfl
@[simp] theorem Blk.setMer_drvGot (n : Nat) (x : Meridian) : (b.setMer n x).drvGot = b.drvGot := rfl
@[simp] theorem Blk.setMer_strs (n : Nat) (x : Meridian) : (b.setMer n x).strs = b.strs := rfl
@[simp] theorem Blk.setMer_pairG (n : Nat) (x : Meridian) : (b.setMer n x).pairG = b.pairG := rfl
@[simp] theorem Blk.setMer_nodes (n : Nat) (x : Meridian) : (b.setMer n x).nodes = b.nodes := rfl
@[simp] theorem Blk.setMer_alts (n : Nat) (x : Meridian) : (b.setMer n x).alts = b.alts := rfl
@[simp] theorem Blk.setMer_e131Rx (n : Nat) (x : Meridian) : (b.setMer n x).e131Rx = b.e131Rx := rfl
@[simp] theorem Blk.setMer_e131Syncs (n : Nat) (x : Meridian) : (b.setMer n x).e131Syncs = b.e131Syncs := rfl
@[simp] theorem Blk.setMer_e131TxSeq (n : Nat) (x : Meridian) : (b.setMer n x).e131TxSeq = b.e131TxSeq := rfl
@[simp] theorem Blk.setMer_e131SyncSeq (n : Nat) (x : Meridian) : (b.setMer n x).e131SyncSeq = b.e131SyncSeq := rfl
@[simp] theorem Blk.setMer_e131Term (n : Nat) (x : Meridian) : (b.setMer n x).e131Term = b.e131Term := rfl
@[simp] theorem Blk.setMer_drv (n : Nat) (x : Meridian) : (b.setMer n x).drv = b.drv := rfl
@[simp] theorem Blk.setMer_trk (n : Nat) (x : Meridian) : (b.setMer n x).trk = b.trk := rfl
@[simp] theorem Blk.setMer_pair (n : Nat) (x : Meridian) : (b.setMer n x).pair = b.pair := rfl
@[simp] theorem Blk.setMer_deviceId (n : Nat) (x : Meridian) : (b.setMer n x).deviceId = b.deviceId := rfl
@[simp] theorem Blk.setMer_host (n : Nat) (x : Meridian) : (b.setMer n x).host = b.host := rfl
@[simp] theorem Blk.setMer_mbxLate (n : Nat) (x : Meridian) : (b.setMer n x).mbxLate = b.mbxLate := rfl
@[simp] theorem Blk.setMer_lockWon (n : Nat) (x : Meridian) : (b.setMer n x).lockWon = b.lockWon := rfl
@[simp] theorem Blk.setMer_firm (n : Nat) (x : Meridian) : (b.setMer n x).firm = b.firm := rfl
@[simp] theorem Blk.setMer_dma (n : Nat) (x : Meridian) : (b.setMer n x).dma = b.dma := rfl
@[simp] theorem Blk.setMer_skn (n : Nat) (x : Meridian) : (b.setMer n x).skn = b.skn := rfl
@[simp] theorem Blk.setMer_crcCount (n : Nat) (x : Meridian) : (b.setMer n x).crcCount = b.crcCount := rfl
@[simp] theorem Blk.setMer_crcSet (n : Nat) (x : Meridian) : (b.setMer n x).crcSet = b.crcSet := rfl
@[simp] theorem Blk.setMer_crcEnded (n : Nat) (x : Meridian) : (b.setMer n x).crcEnded = b.crcEnded := rfl
@[simp] theorem Blk.setMer_cycAt (n : Nat) (x : Meridian) : (b.setMer n x).cycAt = b.cycAt := rfl
@[simp] theorem Blk.setMer_otp (n : Nat) (x : Meridian) : (b.setMer n x).otp = b.otp := rfl
@[simp] theorem Blk.setMer_pwr (n : Nat) (x : Meridian) : (b.setMer n x).pwr = b.pwr := rfl
@[simp] theorem Blk.setMer_life (n : Nat) (x : Meridian) : (b.setMer n x).life = b.life := rfl
@[simp] theorem Blk.setMer_fwu (n : Nat) (x : Meridian) : (b.setMer n x).fwu = b.fwu := rfl
@[simp] theorem Blk.setMer_log (n : Nat) (x : Meridian) : (b.setMer n x).log = b.log := rfl
@[simp] theorem Blk.setMer_lifeNow (n : Nat) (x : Meridian) : (b.setMer n x).lifeNow = b.lifeNow := rfl
@[simp] theorem Blk.setMer_cal (n : Nat) (x : Meridian) : (b.setMer n x).cal = b.cal := rfl

/-! `setStr` -/

@[simp] theorem Blk.setStr_regs (n : Nat) (x : StrPort) : (b.setStr n x).regs = b.regs := rfl
@[simp] theorem Blk.setStr_latches (n : Nat) (x : StrPort) : (b.setStr n x).latches = b.latches := rfl
@[simp] theorem Blk.setStr_now (n : Nat) (x : StrPort) : (b.setStr n x).now = b.now := rfl
@[simp] theorem Blk.setStr_raised (n : Nat) (x : StrPort) : (b.setStr n x).raised = b.raised := rfl
@[simp] theorem Blk.setStr_raisedAt (n : Nat) (x : StrPort) : (b.setStr n x).raisedAt = b.raisedAt := rfl
@[simp] theorem Blk.setStr_freeCount (n : Nat) (x : StrPort) : (b.setStr n x).freeCount = b.freeCount := rfl
@[simp] theorem Blk.setStr_out (n : Nat) (x : StrPort) : (b.setStr n x).out = b.out := rfl
@[simp] theorem Blk.setStr_wiping (n : Nat) (x : StrPort) : (b.setStr n x).wiping = b.wiping := rfl
@[simp] theorem Blk.setStr_regionBlock (n : Nat) (x : StrPort) : (b.setStr n x).regionBlock = b.regionBlock := rfl
@[simp] theorem Blk.setStr_spareBlocks (n : Nat) (x : StrPort) : (b.setStr n x).spareBlocks = b.spareBlocks := rfl
@[simp] theorem Blk.setStr_regionStage (n : Nat) (x : StrPort) : (b.setStr n x).regionStage = b.regionStage := rfl
@[simp] theorem Blk.setStr_atlasWaiting (n : Nat) (x : StrPort) : (b.setStr n x).atlasWaiting = b.atlasWaiting := rfl
@[simp] theorem Blk.setStr_atlasCommit (n : Nat) (x : StrPort) : (b.setStr n x).atlasCommit = b.atlasCommit := rfl
@[simp] theorem Blk.setStr_tbs (n : Nat) (x : StrPort) : (b.setStr n x).tbs = b.tbs := rfl
@[simp] theorem Blk.setStr_tsq (n : Nat) (x : StrPort) : (b.setStr n x).tsq = b.tsq := rfl
@[simp] theorem Blk.setStr_tsqLost (n : Nat) (x : StrPort) : (b.setStr n x).tsqLost = b.tsqLost := rfl
@[simp] theorem Blk.setStr_synceOnSec (n : Nat) (x : StrPort) : (b.setStr n x).synceOnSec = b.synceOnSec := rfl
@[simp] theorem Blk.setStr_syncePriLost (n : Nat) (x : StrPort) : (b.setStr n x).syncePriLost = b.syncePriLost := rfl
@[simp] theorem Blk.setStr_synceSecLost (n : Nat) (x : StrPort) : (b.setStr n x).synceSecLost = b.synceSecLost := rfl
@[simp] theorem Blk.setStr_synceHist (n : Nat) (x : StrPort) : (b.setStr n x).synceHist = b.synceHist := rfl
@[simp] theorem Blk.setStr_staged (n : Nat) (x : StrPort) : (b.setStr n x).staged = b.staged := rfl
@[simp] theorem Blk.setStr_mers (n : Nat) (x : StrPort) : (b.setStr n x).mers = b.mers := rfl
@[simp] theorem Blk.setStr_wpts (n : Nat) (x : StrPort) : (b.setStr n x).wpts = b.wpts := rfl
@[simp] theorem Blk.setStr_wptDue (n : Nat) (x : StrPort) : (b.setStr n x).wptDue = b.wptDue := rfl
@[simp] theorem Blk.setStr_wptBusy (n : Nat) (x : StrPort) : (b.setStr n x).wptBusy = b.wptBusy := rfl
@[simp] theorem Blk.setStr_wptGone (n : Nat) (x : StrPort) : (b.setStr n x).wptGone = b.wptGone := rfl
@[simp] theorem Blk.setStr_wptFired (n : Nat) (x : StrPort) : (b.setStr n x).wptFired = b.wptFired := rfl
@[simp] theorem Blk.setStr_evtQueue (n : Nat) (x : StrPort) : (b.setStr n x).evtQueue = b.evtQueue := rfl
@[simp] theorem Blk.setStr_evtLevel (n : Nat) (x : StrPort) : (b.setStr n x).evtLevel = b.evtLevel := rfl
@[simp] theorem Blk.setStr_evtPin (n : Nat) (x : StrPort) : (b.setStr n x).evtPin = b.evtPin := rfl
@[simp] theorem Blk.setStr_evtPulse (n : Nat) (x : StrPort) : (b.setStr n x).evtPulse = b.evtPulse := rfl
@[simp] theorem Blk.setStr_evtIn0 (n : Nat) (x : StrPort) : (b.setStr n x).evtIn0 = b.evtIn0 := rfl
@[simp] theorem Blk.setStr_ppsEnd (n : Nat) (x : StrPort) : (b.setStr n x).ppsEnd = b.ppsEnd := rfl
@[simp] theorem Blk.setStr_ppsLevel (n : Nat) (x : StrPort) : (b.setStr n x).ppsLevel = b.ppsLevel := rfl
@[simp] theorem Blk.setStr_evtIn (n : Nat) (x : StrPort) : (b.setStr n x).evtIn = b.evtIn := rfl
@[simp] theorem Blk.setStr_evtLost (n : Nat) (x : StrPort) : (b.setStr n x).evtLost = b.evtLost := rfl
@[simp] theorem Blk.setStr_keys (n : Nat) (x : StrPort) : (b.setStr n x).keys = b.keys := rfl
@[simp] theorem Blk.setStr_nonces (n : Nat) (x : StrPort) : (b.setStr n x).nonces = b.nonces := rfl
@[simp] theorem Blk.setStr_noncesSaved (n : Nat) (x : StrPort) : (b.setStr n x).noncesSaved = b.noncesSaved := rfl
@[simp] theorem Blk.setStr_bearingSeq (n : Nat) (x : StrPort) : (b.setStr n x).bearingSeq = b.bearingSeq := rfl
@[simp] theorem Blk.setStr_cnv (n : Nat) (x : StrPort) : (b.setStr n x).cnv = b.cnv := rfl
@[simp] theorem Blk.setStr_stc (n : Nat) (x : StrPort) : (b.setStr n x).stc = b.stc := rfl
@[simp] theorem Blk.setStr_e131Bank (n : Nat) (x : StrPort) : (b.setStr n x).e131Bank = b.e131Bank := rfl
@[simp] theorem Blk.setStr_drvGot (n : Nat) (x : StrPort) : (b.setStr n x).drvGot = b.drvGot := rfl
@[simp] theorem Blk.setStr_pairG (n : Nat) (x : StrPort) : (b.setStr n x).pairG = b.pairG := rfl
@[simp] theorem Blk.setStr_nodes (n : Nat) (x : StrPort) : (b.setStr n x).nodes = b.nodes := rfl
@[simp] theorem Blk.setStr_alts (n : Nat) (x : StrPort) : (b.setStr n x).alts = b.alts := rfl
@[simp] theorem Blk.setStr_e131Rx (n : Nat) (x : StrPort) : (b.setStr n x).e131Rx = b.e131Rx := rfl
@[simp] theorem Blk.setStr_e131Syncs (n : Nat) (x : StrPort) : (b.setStr n x).e131Syncs = b.e131Syncs := rfl
@[simp] theorem Blk.setStr_e131TxSeq (n : Nat) (x : StrPort) : (b.setStr n x).e131TxSeq = b.e131TxSeq := rfl
@[simp] theorem Blk.setStr_e131SyncSeq (n : Nat) (x : StrPort) : (b.setStr n x).e131SyncSeq = b.e131SyncSeq := rfl
@[simp] theorem Blk.setStr_e131Term (n : Nat) (x : StrPort) : (b.setStr n x).e131Term = b.e131Term := rfl
@[simp] theorem Blk.setStr_drv (n : Nat) (x : StrPort) : (b.setStr n x).drv = b.drv := rfl
@[simp] theorem Blk.setStr_trk (n : Nat) (x : StrPort) : (b.setStr n x).trk = b.trk := rfl
@[simp] theorem Blk.setStr_pair (n : Nat) (x : StrPort) : (b.setStr n x).pair = b.pair := rfl
@[simp] theorem Blk.setStr_deviceId (n : Nat) (x : StrPort) : (b.setStr n x).deviceId = b.deviceId := rfl
@[simp] theorem Blk.setStr_host (n : Nat) (x : StrPort) : (b.setStr n x).host = b.host := rfl
@[simp] theorem Blk.setStr_mbxLate (n : Nat) (x : StrPort) : (b.setStr n x).mbxLate = b.mbxLate := rfl
@[simp] theorem Blk.setStr_lockWon (n : Nat) (x : StrPort) : (b.setStr n x).lockWon = b.lockWon := rfl
@[simp] theorem Blk.setStr_firm (n : Nat) (x : StrPort) : (b.setStr n x).firm = b.firm := rfl
@[simp] theorem Blk.setStr_dma (n : Nat) (x : StrPort) : (b.setStr n x).dma = b.dma := rfl
@[simp] theorem Blk.setStr_skn (n : Nat) (x : StrPort) : (b.setStr n x).skn = b.skn := rfl
@[simp] theorem Blk.setStr_crcCount (n : Nat) (x : StrPort) : (b.setStr n x).crcCount = b.crcCount := rfl
@[simp] theorem Blk.setStr_crcSet (n : Nat) (x : StrPort) : (b.setStr n x).crcSet = b.crcSet := rfl
@[simp] theorem Blk.setStr_crcEnded (n : Nat) (x : StrPort) : (b.setStr n x).crcEnded = b.crcEnded := rfl
@[simp] theorem Blk.setStr_cycAt (n : Nat) (x : StrPort) : (b.setStr n x).cycAt = b.cycAt := rfl
@[simp] theorem Blk.setStr_otp (n : Nat) (x : StrPort) : (b.setStr n x).otp = b.otp := rfl
@[simp] theorem Blk.setStr_pwr (n : Nat) (x : StrPort) : (b.setStr n x).pwr = b.pwr := rfl
@[simp] theorem Blk.setStr_life (n : Nat) (x : StrPort) : (b.setStr n x).life = b.life := rfl
@[simp] theorem Blk.setStr_fwu (n : Nat) (x : StrPort) : (b.setStr n x).fwu = b.fwu := rfl
@[simp] theorem Blk.setStr_log (n : Nat) (x : StrPort) : (b.setStr n x).log = b.log := rfl
@[simp] theorem Blk.setStr_lifeNow (n : Nat) (x : StrPort) : (b.setStr n x).lifeNow = b.lifeNow := rfl
@[simp] theorem Blk.setStr_cal (n : Nat) (x : StrPort) : (b.setStr n x).cal = b.cal := rfl

/-! `setTrk` -/

@[simp] theorem Blk.setTrk_regs (x : Trunk) : (b.setTrk x).regs = b.regs := rfl
@[simp] theorem Blk.setTrk_latches (x : Trunk) : (b.setTrk x).latches = b.latches := rfl
@[simp] theorem Blk.setTrk_now (x : Trunk) : (b.setTrk x).now = b.now := rfl
@[simp] theorem Blk.setTrk_raised (x : Trunk) : (b.setTrk x).raised = b.raised := rfl
@[simp] theorem Blk.setTrk_raisedAt (x : Trunk) : (b.setTrk x).raisedAt = b.raisedAt := rfl
@[simp] theorem Blk.setTrk_freeCount (x : Trunk) : (b.setTrk x).freeCount = b.freeCount := rfl
@[simp] theorem Blk.setTrk_out (x : Trunk) : (b.setTrk x).out = b.out := rfl
@[simp] theorem Blk.setTrk_wiping (x : Trunk) : (b.setTrk x).wiping = b.wiping := rfl
@[simp] theorem Blk.setTrk_regionBlock (x : Trunk) : (b.setTrk x).regionBlock = b.regionBlock := rfl
@[simp] theorem Blk.setTrk_spareBlocks (x : Trunk) : (b.setTrk x).spareBlocks = b.spareBlocks := rfl
@[simp] theorem Blk.setTrk_regionStage (x : Trunk) : (b.setTrk x).regionStage = b.regionStage := rfl
@[simp] theorem Blk.setTrk_atlasWaiting (x : Trunk) : (b.setTrk x).atlasWaiting = b.atlasWaiting := rfl
@[simp] theorem Blk.setTrk_atlasCommit (x : Trunk) : (b.setTrk x).atlasCommit = b.atlasCommit := rfl
@[simp] theorem Blk.setTrk_tbs (x : Trunk) : (b.setTrk x).tbs = b.tbs := rfl
@[simp] theorem Blk.setTrk_tsq (x : Trunk) : (b.setTrk x).tsq = b.tsq := rfl
@[simp] theorem Blk.setTrk_tsqLost (x : Trunk) : (b.setTrk x).tsqLost = b.tsqLost := rfl
@[simp] theorem Blk.setTrk_synceOnSec (x : Trunk) : (b.setTrk x).synceOnSec = b.synceOnSec := rfl
@[simp] theorem Blk.setTrk_syncePriLost (x : Trunk) : (b.setTrk x).syncePriLost = b.syncePriLost := rfl
@[simp] theorem Blk.setTrk_synceSecLost (x : Trunk) : (b.setTrk x).synceSecLost = b.synceSecLost := rfl
@[simp] theorem Blk.setTrk_synceHist (x : Trunk) : (b.setTrk x).synceHist = b.synceHist := rfl
@[simp] theorem Blk.setTrk_staged (x : Trunk) : (b.setTrk x).staged = b.staged := rfl
@[simp] theorem Blk.setTrk_mers (x : Trunk) : (b.setTrk x).mers = b.mers := rfl
@[simp] theorem Blk.setTrk_wpts (x : Trunk) : (b.setTrk x).wpts = b.wpts := rfl
@[simp] theorem Blk.setTrk_wptDue (x : Trunk) : (b.setTrk x).wptDue = b.wptDue := rfl
@[simp] theorem Blk.setTrk_wptBusy (x : Trunk) : (b.setTrk x).wptBusy = b.wptBusy := rfl
@[simp] theorem Blk.setTrk_wptGone (x : Trunk) : (b.setTrk x).wptGone = b.wptGone := rfl
@[simp] theorem Blk.setTrk_wptFired (x : Trunk) : (b.setTrk x).wptFired = b.wptFired := rfl
@[simp] theorem Blk.setTrk_evtQueue (x : Trunk) : (b.setTrk x).evtQueue = b.evtQueue := rfl
@[simp] theorem Blk.setTrk_evtLevel (x : Trunk) : (b.setTrk x).evtLevel = b.evtLevel := rfl
@[simp] theorem Blk.setTrk_evtPin (x : Trunk) : (b.setTrk x).evtPin = b.evtPin := rfl
@[simp] theorem Blk.setTrk_evtPulse (x : Trunk) : (b.setTrk x).evtPulse = b.evtPulse := rfl
@[simp] theorem Blk.setTrk_evtIn0 (x : Trunk) : (b.setTrk x).evtIn0 = b.evtIn0 := rfl
@[simp] theorem Blk.setTrk_ppsEnd (x : Trunk) : (b.setTrk x).ppsEnd = b.ppsEnd := rfl
@[simp] theorem Blk.setTrk_ppsLevel (x : Trunk) : (b.setTrk x).ppsLevel = b.ppsLevel := rfl
@[simp] theorem Blk.setTrk_evtIn (x : Trunk) : (b.setTrk x).evtIn = b.evtIn := rfl
@[simp] theorem Blk.setTrk_evtLost (x : Trunk) : (b.setTrk x).evtLost = b.evtLost := rfl
@[simp] theorem Blk.setTrk_keys (x : Trunk) : (b.setTrk x).keys = b.keys := rfl
@[simp] theorem Blk.setTrk_nonces (x : Trunk) : (b.setTrk x).nonces = b.nonces := rfl
@[simp] theorem Blk.setTrk_noncesSaved (x : Trunk) : (b.setTrk x).noncesSaved = b.noncesSaved := rfl
@[simp] theorem Blk.setTrk_bearingSeq (x : Trunk) : (b.setTrk x).bearingSeq = b.bearingSeq := rfl
@[simp] theorem Blk.setTrk_cnv (x : Trunk) : (b.setTrk x).cnv = b.cnv := rfl
@[simp] theorem Blk.setTrk_stc (x : Trunk) : (b.setTrk x).stc = b.stc := rfl
@[simp] theorem Blk.setTrk_e131Bank (x : Trunk) : (b.setTrk x).e131Bank = b.e131Bank := rfl
@[simp] theorem Blk.setTrk_drvGot (x : Trunk) : (b.setTrk x).drvGot = b.drvGot := rfl
@[simp] theorem Blk.setTrk_strs (x : Trunk) : (b.setTrk x).strs = b.strs := rfl
@[simp] theorem Blk.setTrk_pairG (x : Trunk) : (b.setTrk x).pairG = b.pairG := rfl
@[simp] theorem Blk.setTrk_nodes (x : Trunk) : (b.setTrk x).nodes = b.nodes := rfl
@[simp] theorem Blk.setTrk_alts (x : Trunk) : (b.setTrk x).alts = b.alts := rfl
@[simp] theorem Blk.setTrk_e131Rx (x : Trunk) : (b.setTrk x).e131Rx = b.e131Rx := rfl
@[simp] theorem Blk.setTrk_e131Syncs (x : Trunk) : (b.setTrk x).e131Syncs = b.e131Syncs := rfl
@[simp] theorem Blk.setTrk_e131TxSeq (x : Trunk) : (b.setTrk x).e131TxSeq = b.e131TxSeq := rfl
@[simp] theorem Blk.setTrk_e131SyncSeq (x : Trunk) : (b.setTrk x).e131SyncSeq = b.e131SyncSeq := rfl
@[simp] theorem Blk.setTrk_e131Term (x : Trunk) : (b.setTrk x).e131Term = b.e131Term := rfl
@[simp] theorem Blk.setTrk_drv (x : Trunk) : (b.setTrk x).drv = b.drv := rfl
@[simp] theorem Blk.setTrk_pair (x : Trunk) : (b.setTrk x).pair = b.pair := rfl
@[simp] theorem Blk.setTrk_deviceId (x : Trunk) : (b.setTrk x).deviceId = b.deviceId := rfl
@[simp] theorem Blk.setTrk_host (x : Trunk) : (b.setTrk x).host = b.host := rfl
@[simp] theorem Blk.setTrk_mbxLate (x : Trunk) : (b.setTrk x).mbxLate = b.mbxLate := rfl
@[simp] theorem Blk.setTrk_lockWon (x : Trunk) : (b.setTrk x).lockWon = b.lockWon := rfl
@[simp] theorem Blk.setTrk_firm (x : Trunk) : (b.setTrk x).firm = b.firm := rfl
@[simp] theorem Blk.setTrk_dma (x : Trunk) : (b.setTrk x).dma = b.dma := rfl
@[simp] theorem Blk.setTrk_skn (x : Trunk) : (b.setTrk x).skn = b.skn := rfl
@[simp] theorem Blk.setTrk_crcCount (x : Trunk) : (b.setTrk x).crcCount = b.crcCount := rfl
@[simp] theorem Blk.setTrk_crcSet (x : Trunk) : (b.setTrk x).crcSet = b.crcSet := rfl
@[simp] theorem Blk.setTrk_crcEnded (x : Trunk) : (b.setTrk x).crcEnded = b.crcEnded := rfl
@[simp] theorem Blk.setTrk_cycAt (x : Trunk) : (b.setTrk x).cycAt = b.cycAt := rfl
@[simp] theorem Blk.setTrk_otp (x : Trunk) : (b.setTrk x).otp = b.otp := rfl
@[simp] theorem Blk.setTrk_pwr (x : Trunk) : (b.setTrk x).pwr = b.pwr := rfl
@[simp] theorem Blk.setTrk_life (x : Trunk) : (b.setTrk x).life = b.life := rfl
@[simp] theorem Blk.setTrk_fwu (x : Trunk) : (b.setTrk x).fwu = b.fwu := rfl
@[simp] theorem Blk.setTrk_log (x : Trunk) : (b.setTrk x).log = b.log := rfl
@[simp] theorem Blk.setTrk_lifeNow (x : Trunk) : (b.setTrk x).lifeNow = b.lifeNow := rfl
@[simp] theorem Blk.setTrk_cal (x : Trunk) : (b.setTrk x).cal = b.cal := rfl

@[simp] theorem Blk.emit_out (o : Output) : (b.emit o).out = b.out ++ [o] := rfl
@[simp] theorem Blk.drawn_freeCount : (b.drawn).freeCount = b.freeCount + 1 := rfl
@[simp] theorem Blk.irq_regs (a i : Nat) : (b.irq a i).regs = (b.setFlag a i true).regs := rfl
@[simp] theorem Blk.irq_raisedAt (a i : Nat) : (b.irq a i).raisedAt = b.now := rfl
@[simp] theorem Blk.raise_regs (a : Nat) (v : Word) : (b.raise a v).regs = (b.wr a (b.rd a ||| v)).regs := rfl
@[simp] theorem Blk.raise_raisedAt (a : Nat) (v : Word) : (b.raise a v).raisedAt = b.now := rfl
@[simp] theorem Blk.setFirm_firm (x : Firm) : (b.setFirm x).firm = x := rfl
@[simp] theorem Blk.setPwr_pwr (x : Power) : (b.setPwr x).pwr = x := rfl
@[simp] theorem Blk.setFwu_fwu (x : Fwu) : (b.setFwu x).fwu = x := rfl
@[simp] theorem Blk.setTrk_trk (x : Trunk) : (b.setTrk x).trk = x := rfl

end Sys2Proof.Machine
end

