-- ==== Sys2Proof/Laws/Mem.lean ====
section
/-!
SUPPORT. The addressed memory: a read after a write, and that every operation over memory keeps the canonical form.
-/
namespace Sys2Proof.Machine

theorem Mem.byte_set_self (m : Mem) {a : Nat} (v : Byte) (h : memHas a = true) : (m.set a v).byte a = v := by
  simp [Mem.set, Mem.byte, h]

theorem Mem.byte_set_ne (m : Mem) {a c : Nat} (v : Byte) (h : c ≠ a) : (m.set a v).byte c = m.byte c := by
  unfold Mem.set Mem.byte
  split
  · exact Tab.get_set_ne _ _ _ h
  · rfl

/-- A write where there is no memory has no effect (R14). -/
theorem Mem.set_outside (m : Mem) {a : Nat} (v : Byte) (h : memHas a = false) : m.set a v = m := by simp [Mem.set, h]

theorem Mem.wf_set (m : Mem) (a : Nat) (v : Byte) (h : m.wf = true) : (m.set a v).wf = true := by
  unfold Mem.set
  split
  · exact Tab.wf_set m a v h
  · exact h

@[simp] theorem Mem.write_nil (m : Mem) : m.write [] = m := rfl

theorem Mem.write_cons (m : Mem) (c : Host.Cell) (ws : List Host.Cell) : m.write (c :: ws) = (m.set c.1 c.2).write ws := rfl

theorem Mem.write_append (m : Mem) (ws vs : List Host.Cell) : m.write (ws ++ vs) = (m.write ws).write vs := by
  simp [Mem.write, List.foldl_append]

/-- A write of cells keeps the canonical form. -/
theorem Mem.wf_write (ws : List Host.Cell) (m : Mem) (h : m.wf = true) : (m.write ws).wf = true := by
  induction ws generalizing m with
  | nil => exact h
  | cons c ws ih => exact ih _ (Mem.wf_set m c.1 c.2 h)

/-- A write of cells leaves every byte alone that none of them names. -/
theorem Mem.byte_write_ne (ws : List Host.Cell) (m : Mem) {a : Nat} (h : ∀ c ∈ ws, c.1 ≠ a) : (m.write ws).byte a = m.byte a := by
  induction ws generalizing m with
  | nil => rfl
  | cons c ws ih =>
    rw [Mem.write_cons, ih _ (fun e he => h e (List.mem_cons_of_mem _ he)),
      Mem.byte_set_ne _ _ (Ne.symm (h c List.mem_cons_self))]

/-- A wipe keeps the canonical form. -/
theorem Mem.wf_wipe (m : Mem) (lo hi : Nat) (h : m.wf = true) : (m.wipe lo hi).wf = true := Tab.wfFrom_filter m _ none h

theorem Mem.wf_wipes (rs : List (Nat × Nat)) (m : Mem) (h : m.wf = true) :
    (rs.foldl (fun m r => Mem.wipe m r.1 r.2) m).wf = true := by
  induction rs generalizing m with
  | nil => exact h
  | cons r rs ih => exact ih _ (Mem.wf_wipe m r.1 r.2 h)

end Sys2Proof.Machine
end

