-- ==== Sys2Proof/Laws/Step.lean ====
section
/-!
SUPPORT. What the shapes of a command's effect can do: each answers one next state, in which the queue is as it was and the memory keeps
its canonical form.
-/
namespace Sys2Proof.Machine

@[simp] theorem onBlk_eq (f : Blk → Blk) (s : State) : onBlk f s = .next { s with blk := f s.blk } := rfl
@[simp] theorem onView_eq (f : Mem → Blk → Blk) (s : State) : onView f s = .next { s with blk := f s.mem s.blk } := rfl
@[simp] theorem onMem_eq (f : Mem → Blk → Blk × List Host.Cell) (s : State) :
    onMem f s = .next { s with blk := (f s.mem s.blk).1, mem := Mem.write s.mem (f s.mem s.blk).2 } := rfl
theorem onWipe_eq (f : Mem → Blk → Blk × List (Nat × Nat)) (s : State) :
    onWipe f s = .next { s with blk := (f s.mem s.blk).1,
                                mem := (f s.mem s.blk).2.foldl (fun m r => Mem.wipe m r.1 r.2) s.mem } := rfl

theorem inDom_on {d : Nat} {act : State → Result} {s : State} (h : domOn s.blk d = true) : inDom d act s = act s := by simp [inDom, h]
theorem inDom_off {d : Nat} {act : State → Result} {s : State} (h : domOn s.blk d = false) : inDom d act s = .next s := by
  simp [inDom, h]
theorem inDomBy_on {d : Nat} {who : Requester} {act : State → Result} {s : State} (h : domFor s.blk d who = true) :
    inDomBy d who act s = act s := by simp [inDomBy, h]
theorem inDomRead_on {d : Nat} {who : Requester} {a : Nat} {act : State → Result} {s : State} (h : domFor s.blk d who = true) :
    inDomRead d who a act s = act s := by simp [inDomRead, h]
theorem inDomWrite_on {d : Nat} {who : Requester} {a : Nat} {act : State → Result} {s : State} (h : domFor s.blk d who = true) :
    inDomWrite d who a act s = act s := by simp [inDomWrite, h]
theorem inFw_on {act : State → Result} {s : State} (h : fwTasks s.blk = true) : inFw act s = act s := by simp [inFw, h]
theorem inFw_off {act : State → Result} {s : State} (h : fwTasks s.blk = false) : inFw act s = .next s := by simp [inFw, h]

/-- An answer keeps the queue and the canonical form of the memory of `s`, and stops in no other way than by an ill-formed command. -/
structure Keeps (o : Result) (s : State) : Prop where
  queue : ∀ t, o = .next t → t.pending = s.pending
  mem : s.wf = true → ∀ t, o = .next t → t.wf = true
  refuses : ∀ r, o ≠ .refused r

theorem keeps_next {s t : State} (hq : t.pending = s.pending) (hm : s.wf = true → t.wf = true) : Keeps (.next t) s where
  queue u h := by cases h; exact hq
  mem hw u h := by cases h; exact hm hw
  refuses r h := by cases h

theorem keeps_fault (f : Fault) (s : State) : Keeps (.fault f) s where
  queue u h := by cases h
  mem hw u h := by cases h
  refuses r h := by cases h

theorem keeps_onBlk (f : Blk → Blk) (s : State) : Keeps (onBlk f s) s := keeps_next rfl (fun h => h)
theorem keeps_onView (f : Mem → Blk → Blk) (s : State) : Keeps (onView f s) s := keeps_next rfl (fun h => h)
theorem keeps_onMem (f : Mem → Blk → Blk × List Host.Cell) (s : State) : Keeps (onMem f s) s := keeps_next rfl (Mem.wf_write _ _)
theorem keeps_onWipe (f : Mem → Blk → Blk × List (Nat × Nat)) (s : State) : Keeps (onWipe f s) s := keeps_next rfl (Mem.wf_wipes _ _)

theorem keeps_inDom (d : Nat) {act : State → Result} {s : State} (h : Keeps (act s) s) : Keeps (inDom d act s) s := by
  unfold inDom; split
  · exact h
  · exact keeps_next rfl (fun h => h)
theorem keeps_inDomBy (d : Nat) (who : Requester) {act : State → Result} {s : State} (h : Keeps (act s) s) : Keeps (inDomBy d who act s) s := by
  unfold inDomBy; split
  · exact h
  · exact keeps_next rfl (fun h => h)
theorem keeps_inFw {act : State → Result} {s : State} (h : Keeps (act s) s) : Keeps (inFw act s) s := by
  unfold inFw; split
  · exact h
  · exact keeps_next rfl (fun h => h)
theorem keeps_inDomRead (d : Nat) (who : Requester) (a : Nat) {act : State → Result} {s : State} (h : Keeps (act s) s) :
    Keeps (inDomRead d who a act s) s := by
  unfold inDomRead; split
  · exact h
  · exact keeps_next rfl (fun h => h)
theorem keeps_inDomWrite (d : Nat) (who : Requester) (a : Nat) {act : State → Result} {s : State} (h : Keeps (act s) s) :
    Keeps (inDomWrite d who a act s) s := by
  unfold inDomWrite; split
  · exact h
  · exact keeps_next rfl (fun h => h)

theorem keeps_packetOf (c : Cmd) (via : Via) (s : State) : Keeps (packetOf c via s) s := keeps_inFw (keeps_onMem _ _)

end Sys2Proof.Machine
end

