-- ==== Sys2Proof/Laws/Frames.lean ====
section
/-!
SUPPORT. Frames: what the shared effects change and that they change nothing else, in the terms the claims use.
-/
namespace Sys2Proof.Machine

/-- A command of a domain that runs, whose effect is `f` on the block, answers the state after `f`. -/
theorem answers_onBlk {d : Nat} {f : Blk → Blk} {s : State} {P : State → Prop} {i : Instr} (h : domOn s.blk d = true)
    (he : exec i s = inDom d (onBlk f) s) (hp : P { s with blk := f s.blk }) : Answers i s P :=
  ⟨_, by rw [he, inDom_on h]; rfl, hp⟩

/-- A requester reaches what lies in a domain where the domain runs, but for a locked debug port (R405). -/
theorem domFor_on {b : Blk} {d : Nat} {who : Requester} (h : domOn b d = true) (hw : shutOut b who = false) : domFor b d who = true := by
  simp [domFor, h, hw]
theorem domFor_off {b : Blk} {d : Nat} {who : Requester} (h : domOn b d = false) : domFor b d who = false := by simp [domFor, h]
theorem inDomBy_off {d : Nat} {who : Requester} {act : State → Result} {s : State} (h : domFor s.blk d who = false) :
    inDomBy d who act s = .next s := by simp [inDomBy, h]
theorem inDomRead_off {d : Nat} {who : Requester} {a : Nat} {act : State → Result} {s : State} (h : domFor s.blk d who = false) :
    inDomRead d who a act s = .next { s with blk := s.blk.emit (.readDone who a 0#32 true) } := by simp [inDomRead, h]
theorem inDomWrite_off {d : Nat} {who : Requester} {a : Nat} {act : State → Result} {s : State} (h : domFor s.blk d who = false) :
    inDomWrite d who a act s = .next { s with blk := s.blk.emit (.writeDone who a true) } := by simp [inDomWrite, h]
/-- A firmware row of a domain that is off does nothing, whether the firmware runs or not. -/
theorem inFw_inDom_off {d : Nat} {act : State → Result} {s : State} (h : domOn s.blk d = false) : inFw (inDom d act) s = .next s := by
  unfold inFw; split
  · exact inDom_off h
  · rfl

/-! ### Registers -/

/-- One register written, and outputs sent, is a change of that register and those outputs alone. -/
theorem onlyRegs_wr (s : State) (a : Nat) (v : Word) (os : List Output) :
    OnlyRegs s { s with blk := { s.blk.wr a v with out := s.blk.out ++ os } } [a] os :=
  ⟨rfl, fun _ hc => Blk.rd_wr_ne s.blk v (by simpa using hc)⟩
theorem onlyRegs_wr_quiet (s : State) (a : Nat) (v : Word) : OnlyRegs s { s with blk := s.blk.wr a v } [a] [] := by
  have := onlyRegs_wr s a v []
  rwa [List.append_nil] at this
theorem onlyRegs_out (s : State) (os : List Output) : OnlyRegs s { s with blk := { s.blk with out := s.blk.out ++ os } } [] os :=
  ⟨rfl, fun _ _ => rfl⟩

/-- Registers that take 0 change the register file alone. -/
theorem Blk.zero_eq (as : List Nat) (b : Blk) : b.zero as = { b with regs := (b.zero as).regs } := by
  induction as generalizing b with
  | nil => rfl
  | cons c cs ih => exact (ih (b.wr c 0#32)).trans rfl
theorem Blk.zero_zero (b : Blk) (as cs : List Nat) : (b.zero as).zero cs = b.zero (as ++ cs) := by simp [Blk.zero]
theorem cleared_zero (s : State) (as : List Nat) : Cleared s { s with blk := s.blk.zero as } as := by
  refine ⟨?_, fun a h => ?_, fun a h => ?_⟩
  · rw [Blk.zero_eq as s.blk]
  · simp [Blk.rd_zero, h]
  · simp [Blk.rd_zero, h]

/-! ### Interrupts settled -/

/-- Messages that leave one after another only leave. -/
theorem foldl_msix (vs : List Nat) (b : Blk) : vs.foldl (fun b v => b.emit (.msix v)) b = { b with out := b.out ++ vs.map .msix } := by
  induction vs generalizing b with
  | nil => simp
  | cons v vs ih => rw [List.foldl_cons, ih]; simp [Blk.emit]
/-- An output that leaves on some condition, after others, is one more that leaves. -/
theorem emit_if_out {b x : Blk} (c : Bool) (o : Output) (h : ∃ os, x = { b with out := b.out ++ os }) :
    ∃ os, (if c = true then x.emit o else x) = { b with out := b.out ++ os } := by
  obtain ⟨os, rfl⟩ := h
  split
  · exact ⟨os ++ [o], by simp [Blk.emit]⟩
  · exact ⟨os, rfl⟩
theorem setHost_out {b x : Blk} (y : HostIf) (h : ∃ os, x = { b with out := b.out ++ os }) :
    ∃ os h, x.setHost y = { b with out := b.out ++ os, host := h } := by
  obtain ⟨os, rfl⟩ := h
  exact ⟨os, y, rfl⟩
/-- Settling the interrupts changes the lines towards the host and the cores, and what leaves for them, alone. -/
theorem intSettle_eq (b : Blk) : ∃ os h, intSettle b = { b with out := b.out ++ os, host := h } :=
  setHost_out _ (emit_if_out _ _ (emit_if_out _ _ (emit_if_out _ _ (emit_if_out _ _ ⟨_, foldl_msix _ b⟩))))
theorem intSettle_rd (b : Blk) (a : Nat) : (intSettle b).rd a = b.rd a := by
  obtain ⟨_, _, e⟩ := intSettle_eq b; rw [e]; rfl

/-! ### Reach -/

theorem regReach_off {b : Blk} {who : Requester} {a d : Nat} (h : regDomain a = some d) (ho : domOn b d = false) :
    regReach b who a = false := by simp [regReach, h, ho]
/-- A register with a domain lies in the register space (Table 1-12). -/
theorem regDomain_range {a d : Nat} (h : regDomain a = some d) : 0x40000000 ≤ a ∧ a < 0x40140000 := by
  unfold regDomain at h; split at h
  · cases h
  · rename_i hh; simp at hh; omega

/-! ### Command packets -/

/-- A row of Table 12-4's opcodes is its packet, served. -/
theorem packetCmd_exec (i : Instr) (c : Cmd) (via : Via) (s : State) (h : packetCmd i = some (c, via)) :
    exec i s = packetOf c via s := by
  cases i <;> first
    | (cases h; done)
    | (cases h; rfl)

end Sys2Proof.Machine
end

