-- ==== Sys2Proof/Tests/Slice0.lean ====
section
/-!
SUPPORT. Tests with results from the specification, the ill-formed commands that WellFormed refuses, and for every statement a state and
operands that meet its hypotheses.
-/
set_option Elab.async false
namespace Sys2Proof.Tests
open Sys2Proof.Machine

/-! ### States the tests start from -/

/-- The state after reset with its block changed by `f`. -/
def withBlk (f : Blk → Blk) : State := { State.reset with blk := f State.reset.blk }

/-- Right after reset, with registers written. -/
def withRegs (ws : List (Nat × Nat)) : State := withBlk (fun b => ws.foldl (fun b w => b.wrN w.1 w.2) b)

/-- The device configured: firmware runs. -/
def live : State := withBlk (fun b => b.setPwr { b.pwr with stage := .configured })

/-- Domain `d` switched off. -/
def off (d : Nat) : State := withBlk (fun b => b.setFlag Reg.PWR_STATUS d false)

/-- The block that a command leaves, the block of `s` where it leaves none. -/
def after (o : Host.Outcome State Fault Refusal) (s : State) : Blk :=
  match o with
  | .next t => t.blk
  | _ => s.blk

/-- What the last output of a command is. -/
def lastOut (o : Host.Outcome State Fault Refusal) : Option Output :=
  match o with
  | .next t => t.blk.out.getLast?
  | _ => none

/-! ### Ill-formed commands -/

theorem test_illformed_dmaError : Instr.wellFormed (.dmaError 0 7 false 0 0 [] []) = false := by decide
theorem test_illformed_dmaErrorLate : Instr.wellFormed (.dmaError 0 1 true 0 0 [] []) = false := by decide
theorem test_illformed_swatchRunDone : Instr.wellFormed (.swatchRunDone 0 false []) = false := by decide
theorem test_illformed_drvOffsetEstimate : Instr.wellFormed (.drvOffsetEstimate 0 []) = false := by decide
theorem test_wellformed_dmaError : Instr.wellFormed (.dmaError 0 2 true 0 0 [] []) = true := by decide

/-! ### Results that the specification works out -/

/-- The example of R7: 1s written to a W1C register clear those bits alone. -/
theorem test_w1c : (after (exec (.registerWrite .cc0 (BitVec.ofNat 32 Reg.DBL_STATUS) 1#32 []) (withRegs [(Reg.DBL_STATUS, 5)]))
    State.reset).rd Reg.DBL_STATUS = 4#32 := by decide +kernel

/-- A time base without frequency correction advances 1 ns a clock (R35). -/
theorem test_tbIncrement_zero : tbIncrement 0 = 2 ^ 48 := by decide

/-- TB SET loads the time that the requester has staged, 5 s and 7 ns, on the next clock (R37). -/
theorem test_tbSet : ((tbAdvance (after (exec (.tbSet 1 .cc1) (withBlk (fun b =>
    ((b.wrN (Reg.TBn_STATUS 1) 1).setLatch .cc1 (Reg.TBn_SET_SEC_LO 1) 5#32).setLatch .cc1 (Reg.TBn_SET_NS 1) 7#32)))
    State.reset) 1).tb 1).time = 5 * secUnit + 7 * nsUnit := by decide +kernel

/-- The example of R94: 4096 x 2160 at 4:2:2, 10-bit, planar takes 23,777,280 bytes. -/
theorem test_frameBytes : Sheet.frameBytes { src := 0, semi := false, ten := true, samp := 1, rw := 4096, rh := 2160, x := 0, y := 0,
                                             w := 4096, h := 2160 } = 23777280 := by decide

/-- The check value of the parameters of Table 5-2. -/
theorem test_crc32 : crc32 ([0x31, 0x32, 0x33, 0x34, 0x35, 0x36, 0x37, 0x38, 0x39]) = 0xCBF43926 := by decide +kernel

/-- A weight of 65,536 gives the second input, one of 0 the first (R151). -/
theorem test_mix_ends : mixEval 7 900 65536 = 900 ∧ mixEval 7 900 0 = 7 := by decide

/-- The example of R244: 100 °C between (95 °C, 0.70) and (105 °C, 0.40) gives 0.55 of 32,768. -/
theorem test_derate : derateTarget (withRegs ((Reg.DRV_c_DERATE_x 0 0, 16 * 85 + 65536 * 32768) :: (Reg.DRV_c_DERATE_x 0 1, 16 * 95 + 65536 * 22938)
    :: (List.range 6).map (fun k => (Reg.DRV_c_DERATE_x 0 (k + 2), 16 * 105 + 65536 * 13107)))).blk 0 (16 * 100) = 18023 := by
  decide +kernel

/-- The example of R157: a demand of 24,576 under B = 6,000 scales by 16,000 of 65,536. -/
theorem test_limitScale : limitScale (6000 * 256) 32768 (24576 * 2 ^ 24) = 16000 := by decide +kernel

/-- The leads of the Survey example, in quarter nanoseconds: 10,973.25 ns at 100 MBd and 42,173.25 ns at 25 MBd (R190, R196). -/
theorem test_lead : leadAt (4 * 573 + 1) 4 1 = 4 * 10973 + 1 ∧ leadAt (4 * 573 + 1) 4 2 = 4 * 42173 + 1 := by decide +kernel

/-- The request of the example under R311: opcode, target, sequence number, key slot, nonce and the size with the tag. -/
theorem test_packetExample :
    let p := [0xC7#8, 1#8, 2#8, 0#8, 0x2A#8, 0#8, 0x2A#8, 1#8, 0#8, 0#8, 0#8, 0#8, 1#8, 0#8, 0#8, 0#8, 3#8, 0x10#8, 2#8, 0#8, 5#8, 1#8,
      0#8, 0#8, 0#8, 0#8, 0#8, 0#8] ++ List.replicate 16 0#8
    pktForm 8192 p = true ∧ pktOpcode p = 2 ∧ pktSeq p = 0x2A ∧ pktTarget p = 0x12A ∧ pktAuth p = true ∧ pktSource p = 0x1003 ∧
    pktSlot p = 2 ∧ pktNonce p = 0x105 ∧ pktPayload p = [] := by decide +kernel

/-- A check-value unit takes the ASCII bytes "123456789" in the clock after its INIT and ends; RESULT as in Table 13-8. -/
def checked (cfg poly init xorout : Nat) : Nat :=
  let s := withRegs [(Reg.CRC_n_CFG 0, cfg), (Reg.CRC_n_POLY_LO 0, poly), (Reg.CRC_n_INIT_LO 0, init), (Reg.CRC_n_XOROUT_LO 0, xorout)]
  let b := { crcInitCmd 0 s.blk with now := 1 }
  let b := [0x31#8, 0x32#8, 0x33#8, 0x34#8, 0x35#8, 0x36#8, 0x37#8, 0x38#8, 0x39#8].foldl (crcTake 0) b
  (crcEnd b 0).rdN (Reg.CRC_n_RESULT_LO 0)
theorem test_crc8 : checked (0x30000 + 8) 0x07 0 0 = 0xF4 := by decide +kernel
theorem test_crc16Modbus : checked (0x30300 + 16) 0x8005 0xFFFF 0 = 0x4B37 := by decide +kernel
theorem test_crc32Mpeg : checked (0x30000 + 32) 0x04C11DB7 0xFFFFFFFF 0 = 0x0376E6E7 := by decide +kernel
theorem test_crc32Iscsi : checked (0x30300 + 32) 0x1EDC6F41 0xFFFFFFFF 0xFFFFFFFF = 0xE3069283 := by decide +kernel

/-- The example of R424: FS_UV is 84,000 µV, and CORR comes to -312 µV in 16 Rows; the peak command at half scale rises by as much. -/
def corrected (k : Nat) : Blk :=
  let b := (withRegs [(Reg.DRV_c_FS_UV 0, 84000)]).blk
  (List.range k).foldl (fun b _ => corrStep 0 b 0) (b.setCal { b.cal with goal := [(0, some (-312 * 4096))] })
theorem test_driveCorr : (corrected 15).rdI (Reg.CAL_DRVc_CORR 0) = -308 ∧ (corrected 16).rdI (Reg.CAL_DRVc_CORR 0) = -312 ∧
    drvCommand (corrected 0) 0 2048 0 0 = 42000 ∧ drvCommand (corrected 16) 0 2048 0 0 = 42312 := by decide +kernel

/-- LEVEL rises to THRESH at a push, but a pop of the same clock comes before it (R348, R352). -/
theorem test_skeinThresh :
    let s := withRegs [(Reg.SKN_CTRL, 1), (Reg.SKN_Qn_CTRL 3, 1), (Reg.SKN_Qn_THRESH 3, 2)]
    let s := { s with blk := { s.blk with skn := [(3, { head := [77] })], now := 2 } }
    let t := { s with blk := after (exec (.skeinPush 3 false .cc0 9#32) s) s }
    t.blk.flag (Reg.SKN_EVENTk 0) 3 = true ∧ (after (exec (.skeinPop 3 false .cc1) t) s).flag (Reg.SKN_EVENTk 0) 3 = false := by
  decide +kernel

/-- EN cleared in the clock of a completion takes precedence: the interrupt and the count of the descriptor are taken back (R340). -/
theorem test_dmaEnClear :
    let s := withBlk (fun b =>
      { (b.wrN (Reg.DMA_CHn_CTRL 2) 1).wrN (Reg.DMA_CHn_STATUS 2) 5 |>.wrN (Reg.DMA_CHn_DESC_LO 2) 0x10000040 with
        dma := [(2, { ctrl := 2, count := 1 })] })
    let t := { s with blk := after (exec (.dmaWritebackDone 2 [] []) s) s }
    let u := (dmaUndone [] t.blk 2).1
    t.blk.flag Reg.DMA_INT_STATUS 2 = true ∧ t.blk.rdN (Reg.DMA_CHn_DESCS 2) = 1 ∧
    u.flag Reg.DMA_INT_STATUS 2 = false ∧ u.rdN (Reg.DMA_CHn_DESCS 2) = 0 ∧ dmaState u 2 = 5 := by decide +kernel

/-- The example of R165: one eighth of full scale with one window of 1,347 ticks gives D = 856 and W = 9,978,816.25 ns, and D = 512
without it. -/
theorem test_dimWindow :
    let per := 1001 * 10 ^ 6 * 2 ^ 48 / 60
    let l := dimWindowed 0x00200000 per [(451 * per / 2250, 1347 * per / 2250)]
    l.step = 856 ∧ (l.frags.map (·.2)).sum = 4 * 9978816 + 1 ∧ dimStep 0x00200000 per per = 512 := by decide +kernel

/-- The transitions of Table 15-12 from DEPLOYED. -/
theorem test_lifeCycle : lcStepTo 2 3 = some true ∧ lcStepTo 2 4 = some true ∧ lcStepTo 2 1 = none := by decide

/-- A push, and a pop in the next clock, give the words back (R345). -/
theorem test_skein_roundTrip :
    let s := withRegs [(Reg.SKN_CTRL, 1), (Reg.SKN_Qn_CTRL 3, 1)]
    let s := { s with blk := s.blk.setLatch .cc0 (Reg.SKN_Qn_PUSHx 3 0) 0xABCD#32 }
    let t : State := { s with blk := { after (exec (.skeinPush 3 false .cc0 9#32) s) s with now := 1 } }
    lastOut (exec (.skeinPop 3 false .cc1) t) = some (.readDone .cc1 (Reg.SKN_Qn_POPx 3 0) 0xABCD#32 false) := by decide +kernel

/-- A read of a free lock returns 0, the next one its owner (R324). -/
theorem test_lock : lastOut (exec (.lockAcquire 4 .cc1) (withRegs [(Reg.MBX_LOCK_n 4, 3)])) =
    some (.readDone .cc1 (Reg.MBX_LOCK_n 4) 3#32 false) := by decide +kernel

/-- A core watchdog takes its TIMEOUT at a good kick and nothing at a bad one (R368). -/
theorem test_kick : (after (exec (.wdtKick 0 .cc0 0x7740#32) (withRegs [(Reg.RST_WDTc_CTRL 0, 1 + 256 * 500), (Reg.RST_WDTc_REMAIN 0, 7)])) State.reset).rdN
    (Reg.RST_WDTc_REMAIN 0) = 500 := by decide +kernel
theorem test_badKick : (after (exec (.wdtKick 0 .cc1 0x7740#32) (withRegs [(Reg.RST_WDTc_CTRL 0, 1 + 256 * 500)])) State.reset).rdN
    Reg.RST_WDT_BADKICK = 1 := by decide +kernel

/-- Switching MER off under DRIVE is refused with DOMAIN_ERR (R29, Table 14-8). -/
theorem test_pwrDomain : (after (exec (.pwrDomainWrite 0x3FB#32) State.reset) State.reset).rdN Reg.RST_INT_STATUS = 32 := by decide +kernel

/-- The word that TRK_TBL_DATA2 shows for a static multicast entry with its mask (Table 10-12). -/
theorem test_tblRead : (after (exec (.tblRead 0x212#32) (withBlk (fun b => mctPut b 2
    (some { mac := 0x0100, vid := 7, any := false, mask := 5 })))) State.reset).rdN Reg.TRK_TBL_DATA2 = 5 + 256 + 512 := by decide +kernel

/-- A step on an empty queue advances the clock. -/
theorem test_idle : (after (step State.reset) State.reset).now = State.reset.blk.now + 1 := by decide +kernel

/-! ### Hypotheses that can be met -/

/-- Every domain is on after reset, and can be off. -/
theorem test_domains_on : ∀ d : Fin 10, domOn State.reset.blk d = true := by decide +kernel
theorem test_domains_off : ∀ d : Fin 10, domOn (off d).blk d = false := by decide +kernel
theorem test_firmware_runs : fwTasks live.blk = true ∧ ∀ d : Fin 10, domOn live.blk d = true := by decide +kernel
theorem test_ports_on : ∀ n : Fin 32, domOn live.blk (strDom n) = true := by decide +kernel

theorem test_witness_StepRunsFront : State.reset.pending = [] := by decide
theorem test_witness_StepTakesOne : step { State.reset with pending := [.canvasApply] } = exec .canvasApply State.reset ∧
    ∃ t, exec .canvasApply State.reset = .next t := ⟨rfl, _, rfl⟩
theorem test_witness_MemoryFormKept : State.reset.wf = true ∧ ∃ t, step { State.reset with pending := [.canvasApply] } = .next t :=
  ⟨rfl, _, rfl⟩
theorem test_witness_WellFormedGoes : Instr.wellFormed .canvasApply = true ∧ Instr.wellFormed (.dmaError 0 0 false 0 0 [] []) = false ∧
    ({ State.reset with pending := [.canvasApply] } : State).queueOk = true := by decide
theorem test_witness_OffDomainDoesNothing : homeDomain (.tbSet 0 .cc0) = some 2 ∧ deniedAnswer (.tbSet 0 .cc0) = none ∧
    homeDomain (.tsqPop 0 .cc0) = some 3 ∧ (deniedAnswer (.tsqPop 0 .cc0)).isSome = true ∧ domOn (off 2).blk 2 = false ∧
    domOn (off 3).blk 3 = false ∧
    (let s := withRegs [(Reg.FWU_LC, 2)]; domOn s.blk 2 = true ∧ lockedOut (.tbSet 0 .debug) s.blk = true) := by decide +kernel
theorem test_witness_OffRegisterAccess : let s := withBlk (fun b => (b.setFlag Reg.PWR_STATUS 2 false).setFlag Reg.HST_STATUS 1 true)
    regDomain (Reg.TBn_CTRL 0) = some 2 ∧ domOn s.blk 2 = false ∧ domOn s.blk 9 = true ∧ s.blk.flag Reg.HST_STATUS 1 = true ∧
    s.blk.flag Reg.HST_CTRL 0 = true ∧ Reg.TBn_CTRL 0 = 0x40000000 + 0x20020 - 0x20 ∧ Reg.TBn_CTRL 0 % 4 = 0 := by decide +kernel
theorem test_witness_AccessCodes : Requester.cc0 ≠ .debug ∧ domOn State.reset.blk 1 = true ∧ domOn State.reset.blk 2 = true ∧
    domOn State.reset.blk 3 = true := by decide +kernel
theorem test_witness_MemoryUntouched : canStore .canvasApply = false ∧ ∃ t, exec .canvasApply State.reset = .next t := ⟨rfl, _, rfl⟩
theorem test_witness_CountersClear : (∀ d : Fin 10, domOn State.reset.blk d = true) ∧
    ∀ n : Fin 32, domOn State.reset.blk (strDom n) = true := by decide +kernel
theorem test_witness_TimeBaseJumpArm : tbState State.reset.blk 0 = 0 ∧ tbState (withRegs [(Reg.TBn_STATUS 0, 1)]).blk 0 ≠ 0 ∧
    domFor (withRegs [(Reg.TBn_STATUS 0, 1)]).blk 2 .cc0 = true ∧ (∀ m : Fin 2, merOn (withRegs [(Reg.TBn_STATUS 0, 1)]).blk m = false) := by
  decide +kernel
theorem test_witness_TimeBaseIncrement : -(256 * 10 ^ 9) ≤ (0 : Int) ∧ tbIncrement (-(256 * 10 ^ 9)) = 0 := by decide
theorem test_witness_WaypointTable : domOn State.reset.blk 2 = true ∧
    (withRegs [(Reg.WPT_ENTRYx 2, 2 ^ 24)]).blk.flag (Reg.WPT_ENTRYx 2) 24 = true := by decide +kernel
theorem test_witness_MeridianStaging : let s := withRegs [(Reg.MERm_CTRL 0, 1)]
    domOn s.blk 2 = true ∧ merOn s.blk 0 = true := by decide +kernel
theorem test_witness_CaptureQueuePop : let s := withBlk (fun b => b.setEvtInQ 1 [{ words := [1, 2, 3, 4, 5, 6] }])
    domOn s.blk 2 = true ∧ s.blk.evtInQ 1 = [{ words := [1, 2, 3, 4, 5, 6] }] ∧ s.blk.evtInQ 0 = [] := by decide +kernel
theorem test_witness_CanvasCommitIgnored :
    let waits (v : Nat) := (withRegs [(Reg.CNV_STATUS, v)]).blk
    let runs := (withRegs [(Reg.MERm_STATUS 0, 1), (Reg.CNV_STATUS, 0x20), (Reg.CNV_FLIP_LINE, 5)]).blk
    let late := runs.setMer 0 { runs.mer 0 with model := { frame := 3, sub := 9 * 65536 } }
    domOn (waits 0x20) 4 = true ∧ cnvBack (waits 0x20) = 2 ∧ cnvBack (waits 0x30) = 3 ∧ (waits 0x80).flag Reg.CNV_STATUS 7 = true ∧
    merState State.reset.blk (cnvMer State.reset.blk) = 0 ∧ merTick runs (cnvMer runs) < flipLine runs ∧
    merState late (cnvMer late) ≠ 0 ∧ late.cnv.latchDone = false ∧ flipLine late ≤ merTick late (cnvMer late) ∧ cnvBack late = 2 ∧
    (late.setCnv { late.cnv with latchDone := true }).cnv.latchDone = true ∧ cnvBack (late.wrN Reg.CNV_STATUS 0) ≠ 2 ∧
    late.now ≤ late.cnv.commitAt ∧ (let b := { late with now := 7 }
      b.cnv.commitAt < b.now ∧ flipLine b ≤ merTick b (cnvMer b) ∧ cnvBack b = 2 ∧ cnvBack (flipLatch b) = 3 ∧ cnvBack (flipLatch late) = 2) := by
  decide +kernel
theorem test_witness_ParameterWrite : domOn State.reset.blk 5 = true ∧ (0 : Fin 4) = 0 ∧ (3 : Fin 4) ≠ 0 := by decide +kernel
theorem test_witness_DelayFlushEmpties : domOn State.reset.blk 5 = true := by decide +kernel

/-- A node of the program and a batch with one Stitch whose two inputs hold 5 and 9. -/
def nodeOf (op mode : Nat) : PNode := { op, sub := 0, subHi := 0, a := 0, b := 1, width := 1, mode, ofs := 0, len := 1, resv := 0, words := [65536] }
def batchOf : Batch := {
  id := 0, run := 0, idx := 0, flow := 0, sub := 0, prio := 0, mer := 0, frame := 0, row := 0, first := 0, count := 1
  base := 0, deadline := .inst 0, state := .active, buf := 0, bank := 0, prog := 0, released := 0, values := [(0, [[5]]), (1, [[9]])] }

theorem test_witness_MixWeighs : (nodeOf 4 0).op = 4 ∧ 0 < (nodeOf 4 0).width ∧ (nodeOf 4 0).mode = 0 ∧ (nodeOf 4 1).mode ≠ 0 ∧
    cmp ((Tab.at [] batchOf.values (nodeOf 4 0).a).getD 0 []) 0 = 5 ∧ cmp ((Tab.at [] batchOf.values (nodeOf 4 0).b).getD 0 []) 0 = 9 := by
  decide +kernel
theorem test_witness_GainScales : (nodeOf 7 0).op = 7 ∧ 0 < (nodeOf 7 0).width ∧ (nodeOf 7 0).word 0 = 0x00010000 ∧
    cmp ((Tab.at [] batchOf.values (nodeOf 7 0).a).getD 0 []) 0 < 2 ^ 32 := by decide +kernel
theorem test_mixNode : stitchEval [] State.reset.blk batchOf (nodeOf 4 0) 0 = [9] := by decide +kernel

/-- A state whose node 2 of strand 1 is `x`. -/
def withNode (x : Node) : State := withBlk (fun b => b.setNode 1 2 x)
theorem test_witness_NodeTimers :
    let holds (x : Node) := (withNode x).blk.node 1 2
    (holds { state := 2 }).state = 2 ∧ (holds { state := 3 }).state = 3 ∧ (holds { state := 0 }).state = 0 ∧
    0 < (holds {}).holdFrom + (holds {}).holdNs ∧
    (holds { state := 0 }).holdFrom + (holds { state := 0 }).holdNs ≤ ({ (withNode { state := 0 }).blk with now := 3 * 10 ^ 9 } : Blk).now ∧
    (holds {}).park = none ∧ (holds { state := 3, park := some (0, 1) }).park = some (0, 1) ∧ (0 : Nat) < 0 + 1 * 60 * 10 ^ 9 ∧
    (holds { state := 3, park := some (0, 0) }).park = some (0, 0) ∧ 0 + 0 * 60 * 10 ^ 9 ≤ State.reset.blk.now ∧
    (holds { rateNext := some 2 }).rateNext = some 2 ∧ (holds {}).rateNext = none := by decide +kernel
theorem test_witness_StrandPark :
    let sent := State.reset.blk.setStr 3 { State.reset.blk.str 3 with rateSent := some 2 }
    domOn State.reset.blk (strDom 3) = true ∧ strSends State.reset.blk 3 = false ∧
    strSends (withRegs [(Reg.STR_n_STATUS 3, 2)]).blk 3 = true ∧ (State.reset.blk.str 3).rateSent = none ∧
    (sent.str 3).rateSent = some 2 ∧ now4 sent + 4 ≤ (sent.str 3).wireFree + 12 * strTsym4 sent 3 ∧
    (({ sent with now := 1000 } : Blk).str 3).wireFree + 12 * strTsym4 { sent with now := 1000 } 3 < now4 { sent with now := 1000 } + 4 ∧
    domOn { sent with now := 1000 } (strDom 3) = true := by decide +kernel
theorem test_witness_AlternateWaits :
    let q : RdmReq := { tag := 0, kind := 0, addr := 0, msg := [], asked := 0 }
    let s := withBlk (fun b => { b with alts := Tab.upd {} b.alts 5 { b.alt 5 with rdm := some q, cfg := { (b.alt 5).cfg with rdmWait := 2 } } })
    domOn s.blk (strDom 5) = true ∧ (s.blk.alt 5).rdm = some q ∧ (s.blk.alt 5).line ≠ .request ∧ (s.blk.alt 5).line ≠ .response ∧
    s.blk.now < q.asked + 1000000 * (s.blk.alt 5).cfg.rdmWait ∧ q.asked + 1000000 * (s.blk.alt 5).cfg.rdmWait ≤ 2000000 ∧
    (s.blk.alt 6).rdm = none ∧ altRuns s.blk 5 1 = false ∧ altRuns s.blk 5 2 = false ∧ daliActive s.blk 5 true = false := by decide +kernel
theorem test_witness_E131Loss : domOn State.reset.blk 3 = true ∧ State.reset.blk.now < (e131U State.reset.blk 7).taken + e131LossClocks State.reset.blk ∧
    (e131U (withRegs [(Reg.E131_LOSS_TIMEOUT, 0)]).blk 7).taken + e131LossClocks (withRegs [(Reg.E131_LOSS_TIMEOUT, 0)]).blk ≤ 0 := by
  decide +kernel
theorem test_witness_DriveHoldLimit :
    let s := withRegs [(Reg.DRV_STATUS, 2 ^ 16), (Reg.DRV_c_STATUS 1, 2), (Reg.DRV_c_STATUS 2, 3)]
    let ends (t : Nat) : Blk := { s.blk with drv := { s.blk.drv with holdEnd := some t } }
    domOn s.blk 8 = true ∧ s.blk.flag Reg.DRV_STATUS 16 = true ∧ drvState s.blk 1 = 2 ∧ drvState s.blk 2 = 3 ∧ drvState s.blk 0 ≤ 2 ∧
    State.reset.blk.flag Reg.DRV_STATUS 16 = false ∧ (ends 9).drv.holdEnd = some 9 ∧ (ends 9).now < 9 ∧ (ends 0).drv.holdEnd = some 0 ∧
    (ends 0).flag Reg.DRV_STATUS 16 = true ∧ (s.blk.chan 2).faultClock ≠ some s.blk.now ∧
    ((s.blk.setChan 2 { s.blk.chan 2 with faultClock := some 0 }).chan 2).faultClock = some 0 := by decide +kernel
theorem test_witness_SwitchTables : let s := withBlk (fun b => mctPut b 2 (some { mac := 1, vid := 7, any := false, mask := 5 }))
    domOn s.blk 3 = true ∧ (0x212#32 : Word).getLsbD 4 = true ∧ (Tab.at none s.blk.trk.mct (bits 0x212 15 8)).isSome = true ∧
    Tab.at none State.reset.blk.trk.mct 2 = none := by decide +kernel
theorem test_witness_WorkerArbiter :
    let heard (f t : Nat) := (withRegs [(Reg.PAIR_TIMING, t * 2 ^ 24)]).blk.setPair { ({} : Pair) with wkr := [(1, some f)] }
    domOn (heard 0 3) 1 = true ∧ Tab.at none (heard 0 3).pair.wkr 1 = some 0 ∧ ¬ 0 + (heard 0 3).fld Reg.PAIR_TIMING 31 24 ≤ (heard 0 3).pair.frames ∧
    0 + (heard 0 0).fld Reg.PAIR_TIMING 31 24 ≤ (heard 0 0).pair.frames ∧ (0x00010000#32 : Word).getLsbD 16 = true ∧
    (0#32 : Word).getLsbD 16 = false := by decide +kernel
theorem test_witness_MailboxNotice :
    let full (m : Nat) := withRegs [(Reg.MBX_m_STATUS m, 1)]
    domOn State.reset.blk 1 = true ∧ domOn State.reset.blk 9 = true ∧ domOn (off 9).blk 9 = false ∧ domOn (off 9).blk 1 = true ∧
    (∀ m : Fin 12, State.reset.blk.flag (Reg.MBX_m_STATUS m) 0 = false ∧ (full m).blk.flag (Reg.MBX_m_STATUS m) 0 = true) ∧
    State.reset.blk.mbxLate = [] ∧
    ({ (full 3).blk with mbxLate := [⟨0, 3, 77, false, 0, []⟩] } : Blk).mbxLate.find? (fun y => decide (y.clock = 0 ∧ y.mbx = 3))
      = some ⟨0, 3, 77, false, 0, []⟩ := by
  decide +kernel
theorem test_witness_LocksAndDoorbells : let s := withRegs [(Reg.MBX_LOCK_n 4, 1)]
    let won : Blk := { (withRegs [(Reg.MBX_LOCK_n 4, 3)]).blk with lockWon := [⟨0, 4, 3, 0⟩] }
    domOn s.blk 1 = true ∧ s.blk.fld (Reg.MBX_LOCK_n 4) 2 0 = ownerId .cc0 ∧ s.blk.fld (Reg.MBX_LOCK_n 4) 2 0 ≠ ownerId .cc1 ∧
    s.blk.fld (Reg.MBX_LOCK_n 5) 2 0 = 0 ∧ s.blk.lockWon = [] ∧ domOn won 1 = true ∧ won.fld (Reg.MBX_LOCK_n 4) 2 0 = 3 ∧
    won.lockWon.find? (fun y => decide (y.clock = won.now ∧ y.lock = 4 ∧ y.owner = 3 ∧ ownerId .cc0 < 3)) = some ⟨0, 4, 3, 0⟩ := by
  decide +kernel
theorem test_lock_order : let ask (who : Requester) (r : Nat × Blk) := lockRead 4 who r.2
    let first := lockRead 4 .pcie State.reset.blk
    let told := first.2.emit (.readDone .pcie (Reg.MBX_LOCK_n 4) (BitVec.ofNat 32 first.1) false)
    let won := ask .cc1 (0, told)
    first.1 = 0 ∧ won.1 = 0 ∧ won.2.fld (Reg.MBX_LOCK_n 4) 2 0 = 2 ∧ won.2.out = [.readDone .pcie (Reg.MBX_LOCK_n 4) 2#32 false] ∧
    (ask .debug won).1 = 2 := by decide +kernel
theorem test_witness_DmaGo : let s := withRegs [(Reg.DMA_CHn_STATUS 3, 1), (Reg.DMA_CHn_STATUS 4, 6), (Reg.DMA_CHn_STATUS 5, 2)]
    let o := withRegs [(Reg.CNV_FORMAT, 0x40), (Reg.CNV_HOST_CTRL, 3)]
    domOn s.blk 1 = true ∧ dmaOwned s.blk 3 = false ∧ dmaOwned o.blk 3 = true ∧ s.blk.fld (Reg.DMA_CHn_STATUS 3) 2 0 = 1 ∧
    s.blk.fld (Reg.DMA_CHn_STATUS 4) 2 0 = 6 ∧ s.blk.fld (Reg.DMA_CHn_STATUS 5) 2 0 = 2 := by decide +kernel
theorem test_witness_SkeinFifo :
    let s := withRegs [(Reg.SKN_CTRL, 1), (Reg.SKN_Qn_CTRL 3, 1), (Reg.SKN_Qn_QUOTA 4, 1), (Reg.SKN_Qn_CTRL 4, 1)]
    let s := { s with blk := { s.blk with skn := [(4, { head := [77] })], now := 2 } }
    let late : Blk := { s.blk with skn := [(4, { pushAt := 2, pushed := 1, gone := [88], tail := [] })] }
    domOn s.blk 1 = true ∧ sknAccess s.blk 3 false .cc0 1 = true ∧ sknOn s.blk 3 = true ∧ (sknQ s.blk 3).mid = [] ∧
    (sknQ s.blk 3).level < s.blk.rdN (Reg.SKN_Qn_QUOTA 3) ∧ (sknQ s.blk 4).level = s.blk.rdN (Reg.SKN_Qn_QUOTA 4) ∧
    sknAccess s.blk 4 false .cc0 1 = true ∧ sknOn s.blk 4 = true ∧ (sknQ s.blk 4).mid = [] ∧ 1 ≤ s.blk.rdN (Reg.SKN_Qn_QUOTA 4) ∧
    sknAccess s.blk 4 false .cc0 2 = true ∧ (sknQ s.blk 4).head = [77] ∧ (sknQ s.blk 3).head = [] ∧
    (sknQ s.blk 3).quotaWas = none ∧ (sknQ s.blk 4).quotaWas = none ∧ (sknQ s.blk 4).pushAt ≠ s.blk.now ∧ (sknQ s.blk 3).pushAt ≠ s.blk.now ∧
    let long : Blk := { (s.blk.wrN Reg.SKN_CELLS 64).setFlag Reg.SKN_STATUS 0 true with skn := [(3, { head := [1, 2, 3, 4], tail := [5, 6, 7] })] }
    (sknQ late 4).pushAt = late.now ∧ (sknQ late 4).gone = [88] ∧ (sknQ s.blk 4).head.length ≤ 4 ∧ (sknQ long 3).level < long.rdN (Reg.SKN_Qn_QUOTA 3) ∧
    sknBlock long 3 = some 0x10800000 ∧ SramArray.pool ∉ long.wiping ∧ long.fwu.protect = none ∧ (sknQ long 3).mid = [] ∧
    sknOn long 3 = true := by decide +kernel
theorem test_witness_CheckValueUnit :
    let s := withRegs [(Reg.CRC_n_CFG 2, 0x30020), (Reg.CRC_n_CFG 3, 0x30C20), (Reg.CRC_n_EXPECT_LO 3, 1)]
    let same (n : Nat) := decide (crcResult s.blk n (s.blk.rd64 (Reg.CRC_n_VALUE_LO n) (Reg.CRC_n_VALUE_HI n)) =
      s.blk.rd64 (Reg.CRC_n_EXPECT_LO n) (Reg.CRC_n_EXPECT_HI n) % 2 ^ crcWidth s.blk n)
    domOn s.blk 1 = true ∧ s.blk.fld (Reg.CRC_n_CFG 2) 17 16 = 3 ∧ s.blk.fld (Reg.CRC_n_CFG 0) 17 16 ≠ 3 ∧
    s.blk.flag (Reg.CRC_n_CFG 2) 10 = false ∧ s.blk.flag (Reg.CRC_n_CFG 2) 11 = false ∧ s.blk.flag (Reg.CRC_n_CFG 3) 10 = true ∧
    s.blk.flag (Reg.CRC_n_CFG 3) 11 = true ∧ same 3 = false ∧ s.blk.crcSet = [] ∧
    bit (s.blk.raisedNow Reg.CRC_INT_STATUS) (8 + 2) = false ∧ bit ((s.blk.irq Reg.CRC_INT_STATUS 10).raisedNow Reg.CRC_INT_STATUS) (8 + 2) = true := by
  decide +kernel
theorem test_witness_WatchdogKicks :
    let s := withRegs [(Reg.RST_WDTc_CTRL 0, 0x3E801), (Reg.RST_WDTc_REMAIN 0, 9), (Reg.RST_WDTHW_CTRL, 0x7D003), (Reg.RST_WDTHW_REMAIN, 9)]
    let k := { s with blk := s.blk.setPwr { s.blk.pwr with kicker := some .cc0 } }
    (0#32 : Word) ≠ 0x7740#32 ∧ s.blk.flag (Reg.RST_WDTc_CTRL 0) 0 = true ∧ s.blk.flag Reg.RST_WDTHW_CTRL 0 = true ∧
    k.blk.flag Reg.RST_WDTHW_CTRL 1 = true ∧ k.blk.pwr.kicker = some .cc0 ∧ k.blk.flag Reg.RST_WDTHW_CTRL 0 = true ∧
    s.blk.pwr.kicker ≠ some .cc1 ∧ s.blk.rdN (Reg.RST_WDTc_REMAIN 0) ≠ 0 ∧ s.blk.rdN Reg.RST_WDTHW_REMAIN ≠ 0 ∧
    (s.blk.wrN Reg.RST_WDTHW_REMAIN 0).rdN Reg.RST_WDTHW_REMAIN = 0 ∧ shutOut s.blk .cc0 = false ∧
    shutOut (withRegs [(Reg.FWU_LC, 2)]).blk .debug = true := by decide +kernel
theorem test_witness_DomainPowerRefused : domainsFit [] State.reset.blk 0x3FB = false ∧ domainsFit [] State.reset.blk 0x3FF = true ∧
    domainsFit [] State.reset.blk 0x3FC = false ∧ domainsFit [] State.reset.blk 0x3EF = true := by decide +kernel
theorem test_witness_FusesOnlyRise :
    let s := withBlk (fun b => { b with otp := { b.otp with rollback := 3, rootKeys := 3 } })
    domOn s.blk 1 = true ∧ min 64 (3 % 128) ≤ s.blk.otp.rollback ∧ s.blk.otp.rollback < min 64 (4 % 128) ∧ bits 0x77400000 31 16 = 0x7740 ∧
    bits 0 31 16 ≠ 0x7740 ∧ (bit s.blk.otp.rootKeys 1 = true ∧ bit s.blk.otp.revoked 1 = false) ∧
    State.reset.blk.otp.rootKeys = 0 := by decide +kernel
theorem test_witness_KeyWriteRefused : let s := withRegs [(Reg.FWU_LC, 2)]
    domOn s.blk 1 = true ∧ s.blk.fld Reg.FWU_LC 2 0 = 2 ∧ bit 0x100 4 = false ∧ 0x101 % 8 ≠ 0 ∧ Tab.at none s.blk.keys 0 = none ∧
    (withRegs [(Reg.FWU_LC, 4)]).blk.fld Reg.FWU_LC 2 0 = 4 ∧ State.reset.blk.fld Reg.FWU_LC 2 0 ≠ 2 ∧
    (Tab.at none (Tab.upd none s.blk.keys 0 (some 5#128)) 0).isSome = true := by decide +kernel
theorem test_witness_LifeCycleSteps : domOn State.reset.blk 1 = true ∧ bits 0x77400002 31 16 = 0x7740 ∧ bits 0 31 16 ≠ 0x7740 := by
  decide +kernel
theorem test_witness_LifelogSnap : domOn State.reset.blk 1 = true ∧ State.reset.blk.lifeNow.1 = State.reset.blk.now := by decide +kernel

/-! ### A packet of every opcode that nothing refuses -/

/-- A packet for this device with sequence number 7. -/
def packet (opcode : Nat) (payload : List Byte) : List Byte :=
  [0xC7#8, 1#8] ++ toLE 2 opcode ++ toLE 2 7 ++ toLE 2 0 ++ toLE 4 payload.length ++ toLE 2 0 ++ toLE 2 0 ++ payload

/-- `s` with the packet `p` in a command buffer that mailbox 0 points to. -/
def posted (p : List Byte) (s : State) : State :=
  { s with mem := Mem.write s.mem (cellsAt 0x10E90000 (toLE 8 0x10E98000 ++ toLE 4 8192 ++ toLE 4 0 ++ p))
           blk := ((s.blk.wr64 (Reg.MBX_m_PTR_LO 0) (Reg.MBX_m_PTR_HI 0) 0x10E90000).wrN (Reg.MBX_m_TAG 0) 5).setFlag
             (Reg.MBX_m_STATUS 0) 0 true }

/-- What `PacketRows` asks of the mailbox, the packet and the opcode `c`, for a packet in mailbox 0. -/
def admits (c : Cmd) (s : State) (payload : List Byte) : Bool :=
  let p := packet c.opcode payload
  let s := posted p s
  let b := s.blk
  let b1 := (mbxAck 0 .cc0 Status.ok b).1
  fwTasks b && b.flag (Reg.MBX_m_STATUS 0) 0 && decide (hostPending b < 64) &&
    bufTake s.mem b (b.rd64 (Reg.MBX_m_PTR_LO 0) (Reg.MBX_m_PTR_HI 0)) [] == some (0x10E98000, 8192, p) &&
    pktForm (pathLimit b1 .mailbox p) p && !pktReply p && !pktAuth p && !authMust b1 .mailbox p &&
    leAt p 1 1 == 1 && pktIsMine b1 .mailbox p && pktOpcode p == c.opcode && c.fits (pktPayload p) &&
    (c.domains (pktPayload p)).all (domOn b1) && (c.permit (pktPayload p) s.mem b1).isNone

/-- A register set of a payload (Table 12-9). -/
def regSet (ws : List (Nat × Nat)) : List Byte := toLE 4 ws.length ++ ws.flatMap (fun x => toLE 4 x.1 ++ toLE 4 x.2)
/-- `s` with a register written. -/
def w (a v : Nat) (s : State) : State := { s with blk := s.blk.wrN a v }
/-- `s` with its block changed. -/
def onB (f : Blk → Blk) (s : State) : State := { s with blk := f s.blk }
/-- Firmware of a manager. -/
def manager : State := onB (fun b => b.setFirm { b.firm with role := 1 }) live
/-- Strand port `n` running Itren. -/
def itren (n : Nat) : State := w (Reg.STR_n_STATUS n) 2 (w (Reg.STR_n_CTRL n) 1 live)
/-- A settings record of an alternate function. -/
def altRec : List Byte :=
  toLE 2 100 ++ toLE 2 12 ++ toLE 1 0 ++ toLE 1 44 ++ toLE 2 100 ++ toLE 2 0 ++ toLE 2 176 ++ toLE 2 12 ++ toLE 2 2800 ++ toLE 2 100
    ++ toLE 14 0

theorem test_witness_PacketRows_1 : ([
    (identifyCmd, live, []),
    (getStatusCmd, live, []),
    (getCapsCmd, live, []),
    (setRoleCmd, live, [1,0,5,0,0,0,0,239]),
    (resetCmd, live, [0,0,10,0]),
    (domainPowerCmd, live, [8,0,0,0])] : List (Cmd × State × List Byte)).all (fun x => admits x.1 x.2.1 x.2.2) = true := by
  decide +kernel
theorem test_witness_PacketRows_2 : ([
    (enterDormantCmd, w Reg.PWR_WAKE_CTRL 1 live, [0,0,0,0]),
    (lifecycleAdvanceCmd, onB (fun b => {b with otp := {b.otp with rootKeys := 1}}) live, [1,0,0,0]),
    (readRegCmd, live, toLE 4 0x40000000 ++ [1,0,0,0]),
    (writeRegCmd, live, toLE 4 Reg.DBL_ENABLE ++ [1,0,0,0] ++ toLE 4 9),
    (tbConfigCmd, live, regSet [(Reg.TBn_CTRL 0, 1)]),
    (tbServoSetCmd, live, regSet [(Reg.TBn_CTRL 0 + 4*19, 6553)])] : List (Cmd × State × List Byte)).all (fun x => admits x.1 x.2.1 x.2.2) = true := by
  decide +kernel
theorem test_witness_PacketRows_3 : ([
    (tbOffsetFeedCmd, w (Reg.TBn_CTRL 0) 3 live, [0,0,0,0] ++ toLE 8 100),
    (tbAcceptJumpCmd, live, [0,0,0,0]),
    (tbDomainSwitchCmd, live, [0,1,0,0]),
    (meridianSetModeCmd, live, [0,1,0,0] ++ regSet [(Reg.MERm_KP_ACQ 0, 100)]),
    (meridianStatusCmd, live, [0,0,0,0]),
    (waypointProgramCmd, live, [0xFF,0xFF,0,0] ++ toLE 4 1 ++ toLE 4 0 ++ toLE 4 0 ++ toLE 4 0)] : List (Cmd × State × List Byte)).all (fun x => admits x.1 x.2.1 x.2.2) = true := by
  decide +kernel
theorem test_witness_PacketRows_4 : ([
    (waypointCancelCmd, live, [3,0,0,0]),
    (canvasConfigCmd, live, regSet [(Reg.CNV_STAGE_RASTER, 64 + 65536 * 64), (Reg.CNV_STAGE_ORIGIN, 0),
      (Reg.CNV_STAGE_SIZE, 64 + 65536 * 64)]),
    (canvasSubscribeCmd, live, regSet [(Reg.CNV_RX_CTRL, 0)]),
    (canvasFlipPolicyCmd, live, [0,0,3,1,0,0,0,0]),
    (canvasBackgroundCmd, live, [1,0,2,0,3,0,0,0]),
    (regionEmitCmd, w Reg.CNV_SIZE (64 + 65536 * 64) manager, toLE 4 0 ++ toLE 4 0 ++ toLE 4 0 ++ toLE 4 (16 + 65536 * 16)
      ++ toLE 4 (16 + 65536 * 16) ++ List.replicate 20 0)] : List (Cmd × State × List Byte)).all (fun x => admits x.1 x.2.1 x.2.2) = true := by
  decide +kernel
theorem test_witness_PacketRows_5 : ([
    (stitchLoadProgramCmd, live, toLE 4 0 ++ toLE 4 4 ++ toLE 4 0 ++ [1,2,3,4]),
    (stitchStartCmd, live, [0,0,0,0]),
    (stitchStopCmd, live, [0,0,0,0]),
    (stitchSetParamCmd, live, [1,0,0,0,3,0,0,0,9,0,0,0]),
    (stitchCueCmd, w Reg.STC_CUE_BASE 0x10E00000 live, [0,0,0,0]),
    (stitchTraceCmd, live, [1,0,0,0,0,0,1,0])] : List (Cmd × State × List Byte)).all (fun x => admits x.1 x.2.1 x.2.2) = true := by
  decide +kernel
theorem test_witness_PacketRows_6 : ([
    (atlasWriteCmd, live, toLE 4 0 ++ [1,0,0,0] ++ List.replicate 16 1),
    (atlasCommitCmd, live, toLE 8 0),
    (calWriteCmd, live, [0,0,1,0] ++ List.replicate 64 1),
    (contourWriteCmd, live, [0,0,0,0,1,0,0,0,1,2,3,4]),
    (motifSetCmd, live, List.replicate 132 0),
    (motifStartCmd, live, toLE 8 1 ++ [1,0,0,0])] : List (Cmd × State × List Byte)).all (fun x => admits x.1 x.2.1 x.2.2) = true := by
  decide +kernel
theorem test_witness_PacketRows_7 : ([
    (strandConfigCmd, live, [0,0,0,0] ++ regSet [(Reg.STR_n_LAYOUT 0, 0x1000009)]),
    (strandSurveyCmd, itren 0, [0,0,0,0]),
    (strandAssignCmd, itren 0, [0,0,1,0,1,0,0,0] ++ List.replicate 12 0),
    (strandRateCmd, live, [0,1,0,0,0,0,0,0]),
    (strandQueryCmd, itren 0, [0,0,1,0]),
    (strandParkCmd, live, [1,0,0,0])] : List (Cmd × State × List Byte)).all (fun x => admits x.1 x.2.1 x.2.2) = true := by
  decide +kernel
theorem test_witness_PacketRows_8 : ([
    (dmxConfigCmd, live, [0,0,100,0] ++ altRec),
    (rdmTransactCmd, onB (fun b => {b with alts := Tab.upd {} b.alts 0 { b.alt 0 with func := 1, cfg := { (b.alt 0).cfg with flags := 1 } }}) (w (Reg.STR_n_STATUS 0) 5 (w (Reg.STR_n_CTRL 0) 0x101 live)), [0,0,24,0] ++ List.replicate 24 1),
    (daliConfigCmd, live, [0,0,0,0] ++ altRec),
    (daliTransactCmd, onB (fun b => {b with alts := Tab.upd {} b.alts 0 { b.alt 0 with func := 2 }}) <| w (Reg.STR_n_STATUS 0) 5 (w (Reg.STR_n_CTRL 0) 0x201 live), [0,0,0,0,1,0,0,0]),
    (driveConfigCmd, live, regSet [(Reg.DRV_c_CTRL 0, 0)]),
    (driveSetCmd, w (Reg.DRV_c_CTRL 0) 4 live, [1,0,0,0,0,1,2,3])] : List (Cmd × State × List Byte)).all (fun x => admits x.1 x.2.1 x.2.2) = true := by
  decide +kernel
theorem test_witness_PacketRows_9 : ([
    (driveDiagCmd, live, [1,0,0,0]),
    (driveThermalTableCmd, live, List.replicate 44 0),
    (trunkPortConfigCmd, live, regSet [(Reg.TRK_Pp_CTRL 0, 0)]),
    (switchTableWriteCmd, live, [1,0,0,0] ++ [1,0,0,0,2,0,0,0,0,1,5,0,1,0,0,0]),
    (e131ConfigCmd, live, regSet [(Reg.E131_RX_MAPi 0, 0x10001)]),
    (wakePatternSetCmd, live, regSet [(Reg.PWR_WAKE_CTRL, 1)])] : List (Cmd × State × List Byte)).all (fun x => admits x.1 x.2.1 x.2.2) = true := by
  decide +kernel
theorem test_witness_PacketRows_10 : ([
    (pairConfigCmd, live, regSet [(Reg.PAIR_CONFIG_TAG, 1)]),
    (pairStatusCmd, live, []),
    (pairForceCmd, live, [0,0,0,0]),
    (fwBeginCmd, live, toLE 4 1024 ++ [0,0,0,0]),
    (fwChunkCmd, onB (fun b => b.setFwu {b.fwu with transfer := some {slot := 1, total := 16, darn := false, last := 0}}) live, toLE 4 0 ++ [1,2]),
    (fwVerifyCmd, live, [])] : List (Cmd × State × List Byte)).all (fun x => admits x.1 x.2.1 x.2.2) = true := by
  decide +kernel
theorem test_witness_PacketRows_11 : ([
    (fwHandoverCmd, onB (fun b => b.setFwu {b.fwu with verified := some 1}) live, toLE 4 0),
    (fwCommitCmd, (w Reg.FWU_STATUS 0x10 live), []),
    (fwRevertCmd, (w Reg.FWU_STATUS 0x10 live), []),
    (settingsSaveCmd, live, []),
    (lifelogReadCmd, live, List.replicate 12 0),
    (countersReadCmd, live, toLE 4 0x40000000 ++ [1,0,0,0])] : List (Cmd × State × List Byte)).all (fun x => admits x.1 x.2.1 x.2.2) = true := by
  decide +kernel
theorem test_witness_PacketRows_12 : ([
    (swatchRunCmd, w (Reg.STR_n_CTRL 0) 1 live, [0,0,0,0]),
    (gaugeReadCmd, live, [0,0,0,0]),
    (readbackStatusCmd, live, [1,0,0,0]),
    (relayCmd, manager, [1,0,0,0,9,0] ++ packet 1 []),
    (rollCallCmd, manager, [1,0,0,0,0,0,0,0]),
    (hierStatusCmd, live, [])] : List (Cmd × State × List Byte)).all (fun x => admits x.1 x.2.1 x.2.2) = true := by
  decide +kernel

/-- Every opcode is among those, and has its own. -/
theorem test_opcodes : (allCmds.map (·.opcode)).length = 72 ∧ (allCmds.map (·.opcode)).Nodup := by decide +kernel

theorem test_witness_PacketRefused :
    let c : Cmd := { opcode := 1, fits := fun p => p.length == 1, domains := fun p => if p == [2#8] then [2] else [],
                     permit := fun _ _ _ => some (Status.badState, []), act := fun _ _ _ b => okEnd b }
    c.fits [] = false ∧ c.fits [1#8] = true ∧ (c.domains [2#8]).all (domOn (off 2).blk) = false ∧ c.fits [2#8] = true ∧
    (c.domains [1#8]).all (domOn (off 2).blk) = true ∧ fwTasks State.reset.blk = false ∧ fwTasks live.blk = true := by decide +kernel

/-- The frame of a UDP packet to port 47740 and the state in which firmware's receive ring holds it, from trunk port 1. -/
def udpFrame (p : List Byte) : List Byte := udpFull 0 1 2 0 0x0A000001 0x0A000002 47740 47740 0 none p
def ringHolds (p : List Byte) : State :=
  { live with blk := live.blk.setFirm { live.blk.firm with netUp := true }
              mem := Mem.write [] (cellsAt 0x10F20000 (toLE 8 0x10F21000 ++ toLE 2 ((udpFrame p).length + 4) ++ toLE 2 (3 + 128 * 1))
                ++ cellsAt 0x10F21000 (udpFrame p)) }
/-- Packets over the ring that fail their form, that lack a tag, and that would be answered: one without a magic number, and one without
AUTH. -/
theorem test_witness_PacketRefused_ring :
    let bad := ringHolds [1#8, 2#8]
    let bare := ringHolds (packet 1 [])
    fwTasks bad.blk = true ∧ ringNext bad.mem bad.blk = some { port := 1, bytes := udpFrame [1#8, 2#8] } ∧
    ringUdp { port := 1, bytes := udpFrame [1#8, 2#8] } = some (1, 0x0A000001, 47740, [1#8, 2#8]) ∧ pktReply [1#8, 2#8] = false ∧
    pktForm 8192 [1#8, 2#8] = false ∧ fwTasks bare.blk = true ∧
    ringNext bare.mem bare.blk = some { port := 1, bytes := udpFrame (packet 1 []) } ∧
    ringUdp { port := 1, bytes := udpFrame (packet 1 []) } = some (1, 0x0A000001, 47740, packet 1 []) ∧
    pktReply (packet 1 []) = false ∧ pktAuth (packet 1 []) = false := by decide +kernel

/-- Hypotheses of the statements that say where each row completes: its domain on, firmware running, a list of the length a run has. -/
theorem test_witness_Rows : (∀ d : Fin 10, domOn live.blk d = true) ∧ (∀ n : Fin 32, domOn live.blk (strDom n) = true) ∧
    fwTasks live.blk = true ∧ (List.replicate 192 (0#16)).length = 192 ∧ (List.replicate 256 (0#32)).length = 256 ∧
    dmaErrorOk 2 true = true ∧ dmaErrorOk 8 false = true := by decide +kernel

/-- The header and security block of a GET_STATUS with AUTH for key slot 0 from SOURCE 3, NONCE 5, VERSION `v`, and it with its tag. -/
def authHead : List Byte := [0xC7#8, 1#8] ++ toLE 2 1 ++ toLE 2 7 ++ toLE 2 0 ++ toLE 4 0 ++ toLE 2 1 ++ toLE 2 0 ++ toLE 2 3 ++ [0#8, 0#8] ++ toLE 8 5
def authTagged (k : BitVec 128) : List Byte := authHead ++ toLE 16 (Config.gcmTag k (authIv 3 5) authHead).toNat

/-- The packets of the checks' clauses: with a key in slot 0 a tag that is right finds its nonce stale, or the table full; a plain packet of
another VERSION, of another TARGET and of no opcode passes checks 1 to 3 on a mailbox; one of group 0x09 in DEPLOYED lacks its tag. -/
theorem test_witness_PacketRefused_tag :
    let b := { State.reset.blk with keys := [(0, some 1#128)] }
    let full := b.setFirm { b.firm with replay := (List.range 64).map (fun i => (100 + i, 0, 0)) }
    pktAuth (authTagged 1) = true ∧ pktTagOk b (authTagged 1) = true ∧ pktForm 8192 (authTagged 1) = true ∧
    pktReply (authTagged 1) = false ∧ pktTagOk State.reset.blk (authTagged 1) = false ∧
    replayLook (replayRaise b 3 0 9) 3 0 5 = .stale ∧ replayLook full 3 0 5 = .full := by
  refine ⟨by decide +kernel, ?_, by decide +kernel, by decide +kernel, by decide +kernel, by decide +kernel, by decide +kernel⟩
  have h : (authTagged 1).take 28 = authHead := by decide +kernel
  have hd : (authTagged 1).drop 28 = toLE 16 (Config.gcmTag 1 (authIv 3 5) authHead).toNat := by
    rw [authTagged, List.drop_append_of_le_length (by decide +kernel)]
    have : authHead.drop 28 = [] := by decide +kernel
    rw [this, List.nil_append]
  have e : pktTagOk { State.reset.blk with keys := [(0, some 1#128)] } (authTagged 1) =
      (some (toLE 16 (Config.gcmTag 1 (authIv 3 5) ((authTagged 1).take 28)).toNat) == some ((authTagged 1).drop 28)) := rfl
  rw [e, h, hd]
  exact beq_self_eq_true _

/-- Plain packets that pass checks 1 to 3 on a mailbox of the device as made: of VERSION 2, for device 9, and of an opcode that is none; and
one of group 0x09 that needs a tag in DEPLOYED. -/
theorem test_witness_PacketRefused_plain :
    let old := [0xC7#8, 2#8] ++ (packet 1 []).drop 2
    let away := (packet 1 []).take 6 ++ toLE 2 9 ++ (packet 1 []).drop 8
    let odd := packet 0x7F7F []
    (∀ p ∈ [old, away, odd], pktForm (pathLimit live.blk .mailbox p) p = true ∧ pktReply p = false ∧ pktAuth p = false ∧
      authMust live.blk .mailbox p = false) ∧
    leAt old 1 1 ≠ 1 ∧ leAt away 1 1 = 1 ∧ pktIsMine live.blk .mailbox away = false ∧ pktRelay away = false ∧
    leAt odd 1 1 = 1 ∧ pktIsMine live.blk .mailbox odd = true ∧ (findCmd (pktOpcode odd)).isNone = true ∧
    authMust { live.blk.wrN Reg.FWU_LC 2 with keys := [(0, some 1#128)] } .mailbox (packet 0x0901 []) = true := by decide +kernel

end Sys2Proof.Tests
end

section
/-!
Commands of a domain that is off, and of a locked debug port (R10, R28, R364, R367, R405).
-/
namespace Sys2Proof.Machine

/-- The gate in front of a command whose hardware lies in domain `d`: which of the model's five gates it passes (`inDom` and its kin),
with the access and the error response that the claims name for it. -/
inductive Gated (i : Instr) (s : State) (d : Nat) : Prop
  | event (act : State → Result) (noAccess : accessBy i = none) (quiet : deniedAnswer i = none) (runs : exec i s = inDom d act s)
  | firmware (act : State → Result) (noAccess : accessBy i = none) (quiet : deniedAnswer i = none)
      (runs : exec i s = inFw (inDom d act) s)
  | trigger (who : Requester) (act : State → Result) (byWho : accessBy i = some who) (quiet : deniedAnswer i = none)
      (runs : exec i s = inDomBy d who act s)
  | read (who : Requester) (a : Nat) (act : State → Result) (byWho : accessBy i = some who)
      (answer : deniedAnswer i = some (.readDone who a 0#32 true)) (runs : exec i s = inDomRead d who a act s)
  | write (who : Requester) (a : Nat) (act : State → Result) (byWho : accessBy i = some who)
      (answer : deniedAnswer i = some (.writeDone who a true)) (runs : exec i s = inDomWrite d who a act s)

theorem exec_dmaError_wellFormed {n code : Fin 16} {late : Bool} {addr : BitVec 64} {sgDone : BitVec 16} {host : List Byte}
    {fixed : List (BitVec 32)} (s : State) (h : Instr.wellFormed (.dmaError n code late addr sgDone host fixed) = true) :
    exec (.dmaError n code late addr sgDone host fixed) s =
      inDom 1 (onMem (fun m b => dmaError n code late addr.toNat sgDone.toNat host m (dmaFixed n [1, 2, 4, 5] fixed b))) s := by
  have hok : ¬ (code.val = 0 || code.val = 7 || 8 < code.val || (late && code.val != 2)) = true := by
    cases late <;> simpa [Instr.wellFormed, dmaErrorOk] using h
  exact if_neg hok

/-- Every command with a home domain stands behind that domain's gate. -/
theorem exec_gated {i : Instr} {d : Nat} (s : State) (hw : i.wellFormed = true) (hd : homeDomain i = some d) : Gated i s d := by
  cases i
  case bearingSend m => cases hd; exact .firmware _ rfl rfl rfl
  case tbSet n who => cases hd; exact .trigger who _ rfl rfl rfl
  case tbStep n who => cases hd; exact .trigger who _ rfl rfl rfl
  case tbOffsetSample n who v => cases hd; exact .trigger who _ rfl rfl rfl
  case lockRelease n who v => cases hd; exact .trigger who _ rfl rfl rfl
  case lockBreak who v => cases hd; exact .trigger who _ rfl rfl rfl
  case tsqPop p who => cases hd; exact .read who _ _ rfl rfl rfl
  case evtInPop j who => cases hd; exact .read who _ _ rfl rfl rfl
  case lockAcquire n who => cases hd; exact .read who _ _ rfl rfl rfl
  case skeinPop q hostWin who => cases hd; exact .read who _ _ rfl rfl rfl
  case mbxPost m who tag host => cases hd; exact .write who _ _ rfl rfl rfl
  case mbxAck m who code => cases hd; exact .write who _ _ rfl rfl rfl
  case skeinPush q hostWin who v => cases hd; exact .write who _ _ rfl rfl rfl
  case dmaError n code late addr sgDone host fixed => cases hd; exact .event _ rfl rfl (exec_dmaError_wellFormed s hw)
  case swatchRunDone n los bins => cases hd; exact .event _ rfl rfl (if_pos (by simpa [Instr.wellFormed] using hw))
  case drvOffsetEstimate c samples => cases hd; exact .event _ rfl rfl (if_pos (by simpa [Instr.wellFormed] using hw))
  case strandRxLosRelease rx =>
    cases rx with
    | port n => cases hd; exact .event _ rfl rfl rfl
    | node _ _ _ => cases hd
  -- Every other command has no home domain, or is an event of one.
  all_goals cases hd <;> exact .event _ rfl rfl rfl

/-- A command behind a gate that is shut gives its error response, where it has one, and does nothing else. -/
theorem Gated.shut {i : Instr} {s : State} {d : Nat} (hg : Gated i s d) (hs : domOn s.blk d = false ∨ lockedOut i s.blk = true) :
    (deniedAnswer i = none → exec i s = .next s) ∧
    (∀ o, deniedAnswer i = some o → exec i s = .next { s with blk := s.blk.emit o }) := by
  have hoff (h : accessBy i = none) : domOn s.blk d = false := by simpa [lockedOut, h] using hs
  have hshut {who : Requester} (h : accessBy i = some who) : domFor s.blk d who = false := by
    rcases hs with hs | hs
    · exact domFor_off hs
    · simp [domFor, show shutOut s.blk who = true by simpa [lockedOut, h] using hs]
  cases hg with
  | event act noAccess quiet runs => simp [quiet, runs, inDom_off (hoff noAccess)]
  | firmware act noAccess quiet runs => simp [quiet, runs, inFw_inDom_off (hoff noAccess)]
  | trigger who act byWho quiet runs => simp [quiet, runs, inDomBy_off (hshut byWho)]
  | read who a act byWho answer runs => simp [answer, runs, inDomRead_off (hshut byWho)]
  | write who a act byWho answer runs => simp [answer, runs, inDomWrite_off (hshut byWho)]

/-- Settles O7: each command with a home domain stands behind one of the gates, and a shut gate gives the error response alone. -/
theorem offDomainDoesNothing : Obligations.OffDomainDoesNothing :=
  fun _ s _ hw hd hs => (exec_gated s hw hd).shut hs

end Sys2Proof.Machine
end

section
/-!
Register accesses: what each shared step of an access answers (R5 to R10, R14, R405), said once for reads, writes and BAR accesses.
-/
namespace Sys2Proof.Machine

/-! ### Reach -/

theorem shutOut_of_ne_debug (b : Blk) {who : Requester} (h : who ≠ .debug) : shutOut b who = false := by simp [shutOut, h]

/-- Outside the Skein apertures, any requester but the debug port reaches a register whose domain is on. -/
theorem regReach_on {b : Blk} {who : Requester} {a d : Nat} (hd : regDomain a = some d) (hs : a < 0x400E4000 ∨ 0x400EC000 ≤ a)
    (ho : domOn b d = true) (hw : who ≠ .debug) : regReach b who a = true := by
  have hskein : (decide (0x400E4000 ≤ a) && decide (a < 0x400EC000)) = false := by
    rcases hs with h | h <;> simp <;> omega
  simp [regReach, hd, ho, hskein, shutOut_of_ne_debug b hw]

theorem regRead_unreached {b : Blk} {who : Requester} {a : Nat} (h : regReach b who a = false) : regRead who a b = (0, false, b) := by
  simp [regRead, h]

theorem regWrite_unreached {b : Blk} {who : Requester} {a : Nat} (v : Word) (host : List Byte) (mem : Mem)
    (h : regReach b who a = false) : regWrite who a v host mem b = (b, [], false) := by simp [regWrite, h]

theorem fabRead_reg {a d : Nat} (who : Requester) (host : List Byte) (mem : Mem) (b : Blk) (h : regDomain a = some d) :
    fabRead who a host mem b = regRead who a b := by
  have := regDomain_range h
  exact if_pos (by simp; omega)

theorem fabWrite_reg {a d : Nat} (who : Requester) (v : Word) (host : List Byte) (mem : Mem) (b : Blk) (h : regDomain a = some d) :
    fabWrite who a v host mem b = regWrite who a v host mem b := by
  have := regDomain_range h
  exact if_pos (by simp; omega)

/-! ### Reads and writes on the fabric -/

theorem exec_read_unreached {who : Requester} {a : BitVec 32} {s : State} (h : regReach s.blk who a.toNat = false) :
    exec (.multiwordCaptureRead who a) s = .next { s with blk := s.blk.emit (.readDone who a.toNat 0#32 true) } := by
  change onBlk (regReadDone who a.toNat) s = _
  simp [regReadDone, regRead_unreached h]

/-- A register write that stores nothing in memory leaves the block of `regWrite`, but for outputs and the lines towards the host, and
completes last. -/
theorem answers_registerWrite {who : Requester} {a : BitVec 32} {d : Nat} {v : Word} {host : List Byte} {s : State} {b : Blk} {ok : Bool}
    {P : State → Prop} (hd : regDomain a.toNat = some d) (hw : regWrite who a.toNat v host s.mem s.blk = (b, [], ok))
    (hp : ∀ os x, P { s with blk := { b with out := b.out ++ os ++ [.writeDone who a.toNat (!ok)], host := x } }) :
    Answers (.registerWrite who a v host) s P := by
  obtain ⟨os, x, hsettle⟩ := intSettle_eq b
  refine ⟨_, ?_, hp os x⟩
  change onMem (registerWrite who a.toNat v host) s = _
  simp [registerWrite, fabWrite_reg _ _ _ _ _ hd, hw, hsettle, Blk.emit]

/-! ### Accesses through BAR0 (R325) -/

theorem barTarget_reg {o d : Nat} (h : regDomain (0x40000000 + o) = some d) : barTarget false o = .bus (0x40000000 + o) := by
  have := regDomain_range h
  simp [barTarget, h, show o < 0x1400000 by omega]

/-- A register lies in no fabric SRAM, so a BAR's read of it is the fabric's. -/
theorem barFetch_reg {a d : Nat} (found : EccResult) (mem : Mem) (b : Blk) (h : regDomain a = some d) :
    barFetch a found mem b = regRead .pcie a b := by
  have := regDomain_range h
  have hscrub : scrubbed b a = false := by simp [scrubbed]; omega
  simp [barFetch, hscrub, fabRead_reg _ _ _ _ h]

theorem barRead_unreached {o d : Nat} (found : EccResult) (mem : Mem) {b : Blk} (hd : regDomain (0x40000000 + o) = some d)
    (h : regReach b .pcie (0x40000000 + o) = false) :
    barRead false o found mem b = (caSent b).emit (.readDone .pcie (0x40000000 + o) 0#32 true) := by
  simp [barRead, barTarget_reg hd, barFetch_reg _ _ _ hd, regRead_unreached h]

theorem barWrite_unreached {o d : Nat} (v : Word) (mem : Mem) {b : Blk} (hd : regDomain (0x40000000 + o) = some d)
    (h : regReach b .pcie (0x40000000 + o) = false) (hen : b.flag Reg.HST_CTRL 0 = true) :
    barWrite false o v mem b = ((caSent b).emit (.writeDone .pcie (0x40000000 + o) true), []) := by
  simp [barWrite, barTarget_reg hd, fabWrite_reg _ _ _ _ _ hd, regWrite_unreached _ _ _ h, aclDrops, hen]

/-! ### Completer Aborts -/

theorem sat32_eq_min (n : Nat) : sat32 n = min (2 ^ 32 - 1) n := by unfold sat32 max32; split <;> omega

theorem Blk.rdN_irq_self (b : Blk) (a i : Nat) (h : i < 32) : (b.irq a i).rdN a = putBits (b.rdN a) i i 1 := by
  have hirq : (b.irq a i).rdN a = (b.setFlag a i true).rdN a := congrArg BitVec.toNat (Blk.rd_congr (b.irq_regs a i) a)
  rw [hirq, Blk.setFlag, Blk.rdN_setFld_self b a i i _ (Nat.le_refl i) h]
  rfl

theorem caSent_count (b : Blk) : (caSent b).rdN Reg.HST_CA_COUNT = min (2 ^ 32 - 1) (b.rdN Reg.HST_CA_COUNT + 1) := by
  have hirq : (caSent b).rdN Reg.HST_CA_COUNT = (b.count Reg.HST_CA_COUNT).rdN Reg.HST_CA_COUNT :=
    congrArg BitVec.toNat (Blk.rd_irq_ne _ 2 (by decide))
  rw [hirq, Blk.rdN_count_self, sat32_eq_min]

theorem caSent_status (b : Blk) : (caSent b).rdN Reg.HST_INT_STATUS = putBits (b.rdN Reg.HST_INT_STATUS) 2 2 1 := by
  have hcount : (b.count Reg.HST_CA_COUNT).rdN Reg.HST_INT_STATUS = b.rdN Reg.HST_INT_STATUS :=
    congrArg BitVec.toNat (Blk.rd_count_ne b 1 (by decide))
  rw [caSent, Blk.rdN_irq_self _ _ 2 (by decide), hcount]

theorem caSent_rd_ne (b : Blk) {a : Nat} (h : a ∉ [Reg.HST_CA_COUNT, Reg.HST_INT_STATUS]) : (caSent b).rd a = b.rd a := by
  obtain ⟨hcount, hstatus⟩ : a ≠ Reg.HST_CA_COUNT ∧ a ≠ Reg.HST_INT_STATUS := by simpa using h
  rw [caSent, Blk.rd_irq_ne _ 2 hstatus, Blk.rd_count_ne b 1 hcount]

/-- What a host's access leaves whose completion `o` is a Completer Abort. -/
def Aborted (s : State) (o : Output) (t : State) : Prop :=
  t.mem = s.mem ∧ RegsKept s t [Reg.HST_CA_COUNT, Reg.HST_INT_STATUS] ∧
  (t.blk.rdN Reg.HST_CA_COUNT = min (2 ^ 32 - 1) (s.blk.rdN Reg.HST_CA_COUNT + 1) ∧
    t.blk.rdN Reg.HST_INT_STATUS = putBits (s.blk.rdN Reg.HST_INT_STATUS) 2 2 1) ∧
  t.blk.latches = s.blk.latches ∧ t.blk.staged = s.blk.staged ∧ ∃ sent, t.blk.out = s.blk.out ++ o :: sent

theorem aborted_caSent (s : State) (o : Output) : Aborted s o { s with blk := intSettle ((caSent s.blk).emit o) } := by
  obtain ⟨os, x, hsettle⟩ := intSettle_eq ((caSent s.blk).emit o)
  rw [hsettle]
  exact ⟨rfl, fun _ h => caSent_rd_ne s.blk h, ⟨caSent_count s.blk, caSent_status s.blk⟩, rfl, rfl, os, List.append_assoc _ [o] os⟩

section
variable {s : State} {o : BitVec 32} {d : Nat} (hd : regDomain (0x40000000 + o.toNat) = some d)
  (h : regReach s.blk .pcie (0x40000000 + o.toNat) = false) (hword : o.toNat % 4 = 0)
  (hlink : (domOn s.blk 9 && s.blk.flag Reg.HST_STATUS 1) = true)
include hd h hword hlink

theorem answers_barRead_unreached (found : EccResult) :
    Answers (.pcieBarAccess false o none found) s (Aborted s (.readDone .pcie (0x40000000 + o.toNat) 0#32 true)) := by
  refine ⟨_, ?_, aborted_caSent s _⟩
  change onMem (barAccess false o.toNat none found) s = _
  simp [barAccess, hlink, show o.toNat / 4 * 4 = o.toNat by omega, barRead_unreached _ _ hd h]

theorem answers_barWrite_unreached (v : Word) (found : EccResult) (hen : s.blk.flag Reg.HST_CTRL 0 = true) :
    Answers (.pcieBarAccess false o (some v) found) s (Aborted s (.writeDone .pcie (0x40000000 + o.toNat) true)) := by
  refine ⟨_, ?_, aborted_caSent s _⟩
  change onMem (barAccess false o.toNat (some v) found) s = _
  simp [barAccess, hlink, show o.toNat / 4 * 4 = o.toNat by omega, barWrite_unreached _ _ hd h hen]

end

/-- Settles O8: no requester reaches a register of a domain that is off, and an access that does not reach completes with an error. -/
theorem offRegisterAccess : Obligations.OffRegisterAccess := by
  intro s a d hd hoff
  have hreach (who : Requester) : regReach s.blk who a.toNat = false := regReach_off hd hoff
  refine ⟨fun who => exec_read_unreached (hreach who), fun who v host => ?_, fun o ha hword hhost hlinked => ?_⟩
  · exact answers_registerWrite hd (regWrite_unreached v host s.mem (hreach who)) fun os _ => ⟨rfl, rfl, rfl, rfl, os, rfl⟩
  · have hlink : (domOn s.blk 9 && s.blk.flag Reg.HST_STATUS 1) = true := by simp [hhost, hlinked]
    rw [ha] at hd ⊢
    have hpcie := ha ▸ hreach .pcie
    exact ⟨fun found => answers_barRead_unreached hd hpcie hword hlink found,
      fun v found hen => answers_barWrite_unreached hd hpcie hword hlink v found hen⟩

end Sys2Proof.Machine
end

section
/-!
The access codes (R5 to R8, Table 0-3): what a write stores under each, and what a read of a register returns that holds its own value.
-/
namespace Sys2Proof.Machine

/-! ### What a write stores -/

@[simp] theorem word_and_ones (w : Word) : w &&& 0xFFFFFFFF#32 = w := BitVec.and_allOnes

theorem Blk.rd_lowered (b : Blk) (a v c : Nat) : (b.lowered a v).rd c = b.rd c := by
  unfold Blk.lowered; split <;> rfl

section
variable {r : RegRow} {a : Nat} {v : Word} {b : Blk}

theorem rd_regStore_self (hr : r.acc ≠ .rwc) :
    (regStore r a v b).rd a = (b.rd a &&& ~~~BitVec.ofNat 32 r.rw &&&
      ~~~(v &&& (BitVec.ofNat 32 r.w1c &&& ~~~BitVec.ofNat 32 (b.raisedNow a)))) ||| (v &&& BitVec.ofNat 32 r.rw) := by
  simp [regStore, hr]

theorem rd_regStore_ne {c : Nat} (h : c ≠ a) : (regStore r a v b).rd c = b.rd c := by
  by_cases hr : r.acc = .rwc
  · rw [regStore, if_pos hr]; rfl
  · rw [regStore, if_neg hr, Blk.rd_wr_ne _ _ h, Blk.rd_lowered]

/-- A register without W1C bits takes the bits it stores, and its other bits stay (R5, R6). -/
theorem rd_regStore_of_w1c_zero (hr : r.acc ≠ .rwc) (h : r.w1c = 0) :
    (regStore r a v b).rd a = (b.rd a &&& ~~~BitVec.ofNat 32 r.rw) ||| (v &&& BitVec.ofNat 32 r.rw) := by
  simp [rd_regStore_self hr, h]

/-- A register of W1C bits alone loses those written as 1, but for those set in this clock (R7). -/
theorem rd_regStore_of_rw_zero (hr : r.acc ≠ .rwc) (h : r.rw = 0) :
    (regStore r a v b).rd a = b.rd a &&& ~~~(v &&& (BitVec.ofNat 32 r.w1c &&& ~~~BitVec.ofNat 32 (b.raisedNow a))) := by
  simp [rd_regStore_self hr, h]

end

/-- The entry put for key `i` is the one found. -/
theorem Tab.find?_put_erase {α : Type} (t : Tab α) (i : Nat) (x : α) :
    (Tab.put (Tab.erase t i) i x).find? (fun e => e.1 == i) = some (i, x) := by
  induction t with
  | nil => simp [Tab.erase, Tab.put]
  | cons e t ih =>
    by_cases he : e.1 = i
    · simpa [Tab.erase, he] using ih
    · by_cases hlt : i < e.1
      · simp [Tab.erase, Tab.put, he, hlt]
      · simpa [Tab.erase, Tab.put, he, hlt] using ih

theorem stagedAt_stage_self (b : Blk) (a v : Nat) : ((b.stage a v).stagedAt a).map (·.word) = some (BitVec.ofNat 32 v) := by
  simp [Blk.stage, Blk.stagedAt, Tab.find?_put_erase]

/-! ### Registers that only store -/

/-- Register `a` of domain `d` has row `r`, and its write stores under its access code and does nothing more. -/
structure OnlyStores (a d : Nat) (r : RegRow) : Prop where
  domain : regDomain a = some d
  noSkein : a < 0x400E4000 ∨ 0x400EC000 ≤ a
  row : regRow a = some r
  notSpecial : ∀ who v host mem b, regSpecial who a v host mem b = none
  noAction : ∀ who old v host mem b, regActs who a old v host mem b = wOk b

theorem regDomain_toNat {a d : Nat} (h : regDomain a = some d) : (BitVec.ofNat 32 a).toNat = a := by
  have := regDomain_range h
  exact Nat.mod_eq_of_lt (by omega)

theorem OnlyStores.answers {a d : Nat} {r : RegRow} (h : OnlyStores a d r) {s : State} {who : Requester} {v : Word} {host : List Byte}
    {P : State → Prop} (hon : domOn s.blk d = true) (hw : who ≠ .debug)
    (hp : ∀ os x, P { s with blk := { regStore r a v s.blk with out := os, host := x } }) :
    Answers (.registerWrite who (BitVec.ofNat 32 a) v host) s P := by
  have ha := regDomain_toNat h.domain
  have hwrite : regWrite who a v host s.mem s.blk = wOk (regStore r a v s.blk) := by
    simp [regWrite, regReach_on h.domain h.noSkein hon hw, h.notSpecial, h.row, h.noAction]
  exact answers_registerWrite (by rw [ha]; exact h.domain) (by rw [ha]; exact hwrite) fun _ x => hp _ x

theorem onlyStores_DBL_ENABLE : OnlyStores Reg.DBL_ENABLE 1 (row1 "DBL_ENABLE" Reg.DBL_ENABLE .rw 0 0xFFFFFFFF 0) :=
  ⟨rfl, by decide, rfl, fun _ _ _ _ _ => rfl, fun _ _ _ _ _ _ => rfl⟩

theorem onlyStores_MBX_ERR_COUNT : OnlyStores Reg.MBX_ERR_COUNT 1 (row1 "MBX_ERR_COUNT" Reg.MBX_ERR_COUNT .ro 0 0 0) :=
  ⟨rfl, by decide, rfl, fun _ _ _ _ _ => rfl, fun _ _ _ _ _ _ => rfl⟩

theorem onlyStores_DBL_STATUS : OnlyStores Reg.DBL_STATUS 1 (row1 "DBL_STATUS" Reg.DBL_STATUS .w1c 0 0 0xFFFFFFFF) :=
  ⟨rfl, by decide, rfl, fun _ _ _ _ _ => rfl, fun _ _ _ _ _ _ => rfl⟩

theorem onlyStores_TRK_AGE_TIME : OnlyStores Reg.TRK_AGE_TIME 3 (row1 "TRK_AGE_TIME" Reg.TRK_AGE_TIME .rw 0x12C 0xFFFF 0) :=
  ⟨rfl, by decide, rfl, fun _ _ _ _ _ => rfl, fun _ _ _ _ _ _ => rfl⟩

theorem onlyStores_MER0_STAGE_LAYOUT : OnlyStores (Reg.MERm_STAGE_LAYOUT 0) 2
    (rowN "MERm_STAGE_LAYOUT" (Reg.MERm_STAGE_LAYOUT 0) 0x200 2 .rwc 0x11000 0x7FFFFF 0) :=
  ⟨rfl, by decide, rfl, fun _ _ _ _ _ => rfl, fun _ _ _ _ _ _ => rfl⟩

/-! ### Writes of one register of each code -/

section
variable {s : State} {who : Requester} (v : Word) (host : List Byte) (hw : who ≠ .debug)
include hw

theorem answers_write_DBL_ENABLE (hon : domOn s.blk 1 = true) :
    Answers (.registerWrite who (BitVec.ofNat 32 Reg.DBL_ENABLE) v host) s
      (fun t => t.mem = s.mem ∧ t.blk.rd Reg.DBL_ENABLE = v ∧ RegsKept s t [Reg.DBL_ENABLE]) := by
  refine onlyStores_DBL_ENABLE.answers hon hw fun os x => ⟨rfl, ?_, fun c hc => rd_regStore_ne (List.ne_of_not_mem_cons hc)⟩
  refine (rd_regStore_of_w1c_zero (by decide) rfl).trans ?_
  simp [row1]

theorem answers_write_MBX_ERR_COUNT (hon : domOn s.blk 1 = true) :
    Answers (.registerWrite who (BitVec.ofNat 32 Reg.MBX_ERR_COUNT) v host) s (fun t => t.mem = s.mem ∧ RegsKept s t []) := by
  refine onlyStores_MBX_ERR_COUNT.answers hon hw fun os x => ⟨rfl, fun c _ => ?_⟩
  by_cases hc : c = Reg.MBX_ERR_COUNT
  · subst hc
    refine (rd_regStore_of_w1c_zero (by decide) rfl).trans ?_
    simp [row1]
  · exact rd_regStore_ne hc

theorem answers_write_DBL_STATUS (hon : domOn s.blk 1 = true) :
    Answers (.registerWrite who (BitVec.ofNat 32 Reg.DBL_STATUS) v host) s (fun t => t.mem = s.mem ∧
      t.blk.rd Reg.DBL_STATUS = s.blk.rd Reg.DBL_STATUS &&& ~~~(v &&& ~~~BitVec.ofNat 32 (s.blk.raisedNow Reg.DBL_STATUS)) ∧
      RegsKept s t [Reg.DBL_STATUS]) := by
  refine onlyStores_DBL_STATUS.answers hon hw fun os x => ⟨rfl, ?_, fun c hc => rd_regStore_ne (List.ne_of_not_mem_cons hc)⟩
  refine (rd_regStore_of_rw_zero (by decide) rfl).trans ?_
  simp [row1, BitVec.and_comm 0xFFFFFFFF#32]

/-- DBL_RAISE holds no value of its own: its write sets bits of DBL_STATUS (Table 12-20). -/
theorem answers_write_DBL_RAISE (hon : domOn s.blk 1 = true) :
    Answers (.registerWrite who (BitVec.ofNat 32 Reg.DBL_RAISE) v host) s (fun t => t.mem = s.mem ∧
      t.blk.rd Reg.DBL_STATUS = s.blk.rd Reg.DBL_STATUS ||| v ∧ RegsKept s t [Reg.DBL_STATUS]) := by
  have hreach : regReach s.blk who Reg.DBL_RAISE = true := regReach_on rfl (by decide) hon hw
  have hspecial : regSpecial who Reg.DBL_RAISE v host s.mem s.blk = some (wOk (s.blk.raise Reg.DBL_STATUS v)) := rfl
  refine answers_registerWrite (d := 1) (b := s.blk.raise Reg.DBL_STATUS v) (ok := true) rfl ?_ fun os x => ⟨rfl, ?_, fun c hc => ?_⟩
  · change regWrite who Reg.DBL_RAISE v host s.mem s.blk = _
    simp [regWrite, hreach, hspecial, wOk]
  · exact Blk.rd_wr_self _ _ _
  · exact Blk.rd_wr_ne _ _ (List.ne_of_not_mem_cons hc)

theorem answers_write_TRK_AGE_TIME (hon : domOn s.blk 3 = true) :
    Answers (.registerWrite who (BitVec.ofNat 32 Reg.TRK_AGE_TIME) v host) s (fun t => t.mem = s.mem ∧
      RegsKept s t [Reg.TRK_AGE_TIME] ∧
      t.blk.rd Reg.TRK_AGE_TIME = (s.blk.rd Reg.TRK_AGE_TIME &&& 0xFFFF0000#32) ||| (v &&& 0x0000FFFF#32)) :=
  onlyStores_TRK_AGE_TIME.answers hon hw fun _ _ => ⟨rfl, fun _ hc => rd_regStore_ne (List.ne_of_not_mem_cons hc),
    rd_regStore_of_w1c_zero (by decide) rfl⟩

theorem answers_write_MER0_STAGE_LAYOUT (hon : domOn s.blk 2 = true) :
    Answers (.registerWrite who (BitVec.ofNat 32 (Reg.MERm_STAGE_LAYOUT 0)) v host) s (fun t => t.mem = s.mem ∧
      RegsKept s t [] ∧ (t.blk.stagedAt (Reg.MERm_STAGE_LAYOUT 0)).map (·.word) = some (v &&& 0x007FFFFF#32)) := by
  refine onlyStores_MER0_STAGE_LAYOUT.answers hon hw fun os x => ⟨rfl, fun _ _ => rfl, ?_⟩
  refine (stagedAt_stage_self s.blk (Reg.MERm_STAGE_LAYOUT 0) (v &&& 0x007FFFFF#32).toNat).trans ?_
  rw [BitVec.ofNat_toNat, BitVec.setWidth_eq]

end

/-! ### Reads -/

/-- A read of register `a` of domain `d` gives its value (`look`): it takes nothing away, and no latch stands before it. -/
structure OnlyLooks (a d : Nat) : Prop where
  domain : regDomain a = some d
  noSkein : a < 0x400E4000 ∨ 0x400EC000 ≤ a
  takesNothing : ∀ who b, readActs who a b = none
  noCapture : ∀ b, capWords b a = none
  shared : perRequester a = false

theorem OnlyLooks.exec_read {a d : Nat} (h : OnlyLooks a d) {s : State} {who : Requester} (hon : domOn s.blk d = true)
    (hw : who ≠ .debug) : exec (.multiwordCaptureRead who (BitVec.ofNat 32 a)) s =
      .next { s with blk := s.blk.emit (.readDone who a (BitVec.ofNat 32 (look s.blk a)) false) } := by
  change onBlk (regReadDone who (BitVec.ofNat 32 a).toNat) s = _
  simp [regDomain_toNat h.domain, regReadDone, regRead, regReach_on h.domain h.noSkein hon hw, h.takesNothing, h.noCapture, h.shared]

theorem onlyLooks_DBL_ENABLE : OnlyLooks Reg.DBL_ENABLE 1 := ⟨rfl, by decide, fun _ _ => rfl, fun _ => rfl, rfl⟩

theorem onlyLooks_FWU_KEY_DATA0 : OnlyLooks (Reg.FWU_KEY_DATAx 0) 1 := ⟨rfl, by decide, fun _ _ => rfl, fun _ => rfl, rfl⟩

theorem look_DBL_ENABLE (b : Blk) : look b Reg.DBL_ENABLE = b.rdN Reg.DBL_ENABLE := rfl

/-- A write-only register reads 0 (R6). -/
theorem look_FWU_KEY_DATA0 (b : Blk) : look b (Reg.FWU_KEY_DATAx 0) = 0 := rfl

/-- Settles O9: each write stores as the register's row says and acts no further, and each read gives the value that `look` forms. -/
theorem accessCodes : Obligations.AccessCodes := by
  intro s who v host hw
  refine ⟨fun hon => ⟨answers_write_DBL_ENABLE v host hw hon, answers_write_MBX_ERR_COUNT v host hw hon,
    answers_write_DBL_STATUS v host hw hon, answers_write_DBL_RAISE v host hw hon, ?_, ?_⟩,
    answers_write_MER0_STAGE_LAYOUT v host hw, answers_write_TRK_AGE_TIME v host hw⟩
  · have hread := onlyLooks_DBL_ENABLE.exec_read hon hw
    rwa [look_DBL_ENABLE, Blk.rdN, BitVec.ofNat_toNat, BitVec.setWidth_eq] at hread
  · have hread := onlyLooks_FWU_KEY_DATA0.exec_read hon hw
    rwa [look_FWU_KEY_DATA0] at hread

end Sys2Proof.Machine
end

section
/-!
A write of PWR_DOMAIN (R29, Table 1-14): the sets that fit, the refusal, and the domains switched one after another.
-/
namespace Sys2Proof.Machine

/-! ### What a domain's reset leaves alone: the registers of AON -/

/-- `c` holds what `b` holds in the registers of AON, which lie in block 1 of Table 1-4. -/
def KeepsAon (b c : Blk) : Prop := ∀ a, 0x40010000 ≤ a → a < 0x40020000 → c.rd a = b.rd a

namespace KeepsAon
variable {b c x : Blk} {a : Nat}

theorem refl (b : Blk) : KeepsAon b b := fun _ _ _ => rfl

theorem trans (h : KeepsAon b c) (hx : KeepsAon c x) : KeepsAon b x := fun a lo hi => (hx a lo hi).trans (h a lo hi)

theorem of_regs (h : c.regs = b.regs) : KeepsAon b c := fun a _ _ => Blk.rd_congr h a

/-- A write to a block above AON's, where the registers of every other domain that a reset writes lie. -/
theorem wr (ha : 0x40020000 ≤ a) (v : Word) (h : KeepsAon b c) : KeepsAon b (c.wr a v) :=
  h.trans fun e _ hi => Blk.rd_wr_ne c v (by omega)

theorem wrN (ha : 0x40020000 ≤ a) (n : Nat) (h : KeepsAon b c) : KeepsAon b (c.wrN a n) := h.wr ha _

theorem setFld (ha : 0x40020000 ≤ a) (hi lo v : Nat) (h : KeepsAon b c) : KeepsAon b (c.setFld a hi lo v) := h.wr ha _

theorem setFlag (ha : 0x40020000 ≤ a) (i : Nat) (v : Bool) (h : KeepsAon b c) : KeepsAon b (c.setFlag a i v) := h.wr ha _

theorem count (ha : 0x40020000 ≤ a) (n : Nat) (h : KeepsAon b c) : KeepsAon b (c.count a n) := h.wr ha _

theorem irq (ha : 0x40020000 ≤ a) (i : Nat) (h : KeepsAon b c) : KeepsAon b (c.irq a i) :=
  h.trans fun e _ hi => Blk.rd_irq_ne c i (by omega)

theorem ite {p : Prop} [Decidable p] (hc : KeepsAon b c) (hx : KeepsAon b x) : KeepsAon b (if p then c else x) := by
  split
  · exact hc
  · exact hx

theorem foldl {α : Type} {f : Blk → α → Blk} (hf : ∀ b x, KeepsAon b (f b x)) (l : List α) (b : Blk) : KeepsAon b (l.foldl f b) := by
  induction l generalizing b with
  | nil => exact refl b
  | cons y ys ih => exact (hf b y).trans (ih (f b y))

end KeepsAon

theorem keepsAon_emit (b : Blk) (o : Output) : KeepsAon b (b.emit o) := .of_regs rfl

theorem keepsAon_drawn (b : Blk) : KeepsAon b b.drawn := .of_regs rfl

theorem keepsAon_pinsTo (ps : List Pin) (level : Bool) (b : Blk) : KeepsAon b (pinsTo b ps level) :=
  .foldl (fun b _ => keepsAon_emit b _) ps b

theorem keepsAon_padsBack (ns : List Nat) (b : Blk) : KeepsAon b (padsBack b ns) :=
  .foldl (fun b _ => .ite (keepsAon_emit b _) (.refl b)) ns b

theorem keepsAon_domPins (b : Blk) (d : Nat) : KeepsAon b (domPins b d) := by
  unfold domPins
  split
  case h_1 => exact keepsAon_padsBack _ b
  case h_2 => exact keepsAon_padsBack _ b
  case h_3 => exact (keepsAon_pinsTo _ _ b).trans (keepsAon_pinsTo _ _ _)
  case h_4 => exact keepsAon_pinsTo _ _ b
  case h_5 => exact .foldl (fun b _ => keepsAon_emit b _) _ b
  case h_6 => exact keepsAon_pinsTo _ _ b
  case h_7 => exact keepsAon_emit b _
  case h_8 => exact .refl b

theorem keepsAon_calEnded (b : Blk) (job code : Nat) : KeepsAon b (calEnded b job code) := by
  have hdone := ((KeepsAon.refl b).wrN (a := Reg.CAL_LAST_JOB) (by decide) (job + 65536 * code)).irq (a := Reg.CAL_INT_STATUS) (by decide) 0
  exact .ite hdone (hdone.irq (by decide) 1)

theorem keepsAon_setSwJob (b : Blk) (n : Nat) (j : Option SwJob) : KeepsAon b (setSwJob b n j) :=
  .setFlag (by decide) n _ (.of_regs rfl)

theorem keepsAon_swEnd (b : Blk) (n code : Nat) (apply : Bool) : KeepsAon b (swEnd b n code apply) := by
  have hresult := (keepsAon_setSwJob b n none).wrN (a := Reg.CAL_STRn_RESULT n) (Nat.le_add_right_of_le (by decide)) code
  exact .trans (.ite hresult (hresult.count (Nat.le_add_right_of_le (by decide)) 1)) (keepsAon_calEnded _ _ _)

theorem keepsAon_swAbort (b : Blk) (n : Nat) : KeepsAon b (swAbort b n) := by
  unfold swAbort
  split
  · exact keepsAon_swEnd b n 4 _
  · exact .refl b

theorem keepsAon_drvJobEnd (b : Blk) (c code : Nat) (apply : Bool) : KeepsAon b (drvJobEnd b c code apply) := by
  have hcal : KeepsAon b (b.setCal { b.cal with drvs := Tab.upd none b.cal.drvs c none }) := .of_regs rfl
  have hstatus := hcal.setFlag (a := Reg.CAL_STATUS_DRV) (by decide) c false
  have hresult := hstatus.wrN (a := Reg.CAL_DRVc_RESULT c) (Nat.le_add_right_of_le (by decide)) code
  exact hresult.trans (keepsAon_calEnded _ _ _)

theorem keepsAon_drvJobAbort (b : Blk) (c : Nat) : KeepsAon b (drvJobAbort b c) := by
  unfold drvJobAbort
  split
  · exact keepsAon_drvJobEnd b c 4 _
  · exact .refl b

theorem keepsAon_calDomainReset (b : Blk) (d : Nat) : KeepsAon b (calDomainReset b d) := by
  unfold calDomainReset
  split
  case h_1 => exact .foldl keepsAon_swAbort _ b
  case h_2 => exact .foldl keepsAon_swAbort _ b
  case h_3 => exact .trans (.of_regs rfl) (.foldl keepsAon_drvJobAbort _ (b.setCal { b.cal with broken := [] }))
  case h_4 => exact .refl b

theorem keepsAon_swShow (b : Blk) (n : Nat) : KeepsAon b (swShow b n) :=
  .setFld (Nat.le_add_right_of_le (by decide)) _ _ _ (.setFld (Nat.le_add_right_of_le (by decide)) _ _ _ (.refl b))

theorem keepsAon_phyWritten (b : Blk) (n : Nat) : KeepsAon b (phyWritten b n) := by
  unfold phyWritten
  extract_lets moved
  have hmoved : KeepsAon b moved := .ite (.setFld (Nat.le_add_right_of_le (by decide)) _ _ _ (.refl b)) (.refl b)
  exact (hmoved.trans (.of_regs rfl)).trans (keepsAon_swShow _ n)

theorem keepsAon_calShow (b : Blk) (d : Nat) : KeepsAon b (calShow b d) := by
  unfold calShow
  split
  case h_1 => exact .foldl keepsAon_phyWritten _ b
  case h_2 => exact .foldl keepsAon_phyWritten _ b
  case h_3 => exact .refl b

/-- A table keeps the value of a key whose entries pass the filter. -/
theorem Tab.get_filter {α : Type} (d : Nat → α) (t : Tab α) (p : Nat → Bool) {i : Nat} (h : p i = true) :
    Tab.get d (t.filter (fun e => p e.1)) i = Tab.get d t i := by
  induction t with
  | nil => rfl
  | cons e r ih =>
    by_cases hk : e.1 = i
    · simp [Tab.get, hk, h]
    · by_cases hp : p e.1 = true <;> simp [Tab.get, hk, hp, ih]

theorem resetDomain_aon {a : Nat} (lo : 0x40010000 ≤ a) (hi : a < 0x40020000) : resetDomain a = some 0 := by
  have hlog : ¬ (0x40130000 ≤ a ∧ a < 0x40138000) := by omega
  have hspace : ¬ (a < 0x40000000 ∨ 0x40140000 ≤ a) := by omega
  have hblock : (a - 0x40000000) / 0x10000 = 1 := by omega
  simp [resetDomain, regDomain, hlog, hspace, hblock]

/-- A reset of any other domain clears no register of AON. -/
theorem keepsAon_domRegs (b : Blk) {d : Nat} (h : d ≠ 0) : KeepsAon b (domRegs b d) := fun a lo hi =>
  Tab.get_filter Reg.resetAt b.regs (fun k => resetDomain k != some d) (by simp [resetDomain_aon lo hi, h.symm])

theorem keepsAon_evtDown (b : Blk) : KeepsAon b (evtDown b) := by
  unfold evtDown
  extract_lets pins pps
  have hpins : KeepsAon b pins := .foldl (fun b _ => .ite (keepsAon_emit b _) (.refl b)) _ b
  have hpps : KeepsAon b pps := .ite (hpins.trans (keepsAon_emit _ _)) hpins
  exact hpps.trans (.of_regs rfl)

theorem keepsAon_hopsFollow (b : Blk) (n : Nat) : KeepsAon b (hopsFollow b n) := .of_regs rfl

theorem keepsAon_portsClear (ns : List Nat) (strs : Tab StrPort) (alts : Tab AltPort) (b : Blk) :
    KeepsAon b { ns.foldl hopsFollow b with strs := strs, alts := alts } := by
  have hhops := KeepsAon.foldl keepsAon_hopsFollow ns b
  generalize ns.foldl hopsFollow b = hops at hhops ⊢
  exact hhops.trans (.of_regs rfl)

theorem keepsAon_domState (b : Blk) (d : Nat) : KeepsAon b (domState b d) := by
  unfold domState
  split
  case h_1 => exact .of_regs rfl
  case h_2 =>
    have hdown := keepsAon_evtDown b
    generalize evtDown b = down at hdown ⊢
    exact hdown.trans (.of_regs rfl)
  case h_3 => exact .of_regs rfl
  case h_4 => exact .of_regs rfl
  case h_5 => exact .of_regs rfl
  case h_6 => exact keepsAon_portsClear _ _ _ b
  case h_7 => exact keepsAon_portsClear _ _ _ b
  case h_8 => exact .of_regs rfl
  case h_9 =>
    extract_lets freed
    have hfreed : KeepsAon b freed := .foldl (fun b _ => .ite (.wr (Nat.le_add_right_of_le (by decide)) _ (.refl b)) (.refl b)) _ b
    exact hfreed.trans (.of_regs rfl)
  case h_10 => exact .refl b

theorem keepsAon_strapsShow (b : Blk) : KeepsAon b (strapsShow b) := by
  unfold strapsShow
  extract_lets keys ids otp
  have hkeys : KeepsAon b keys := .setFld (by decide) _ _ _ (.setFld (by decide) _ _ _ (.refl b))
  have hotp : KeepsAon b otp := .wrN (by decide) _ (.wrN (by decide) _ (.wr (by decide) _ hkeys))
  exact .setFlag (by decide) _ _ (.setFlag (by decide) _ _ hotp)

theorem keepsAon_newChallenge (b : Blk) : KeepsAon b (newChallenge b) :=
  .foldl (fun b _ => .trans (.wrN (Nat.le_add_right_of_le (by decide)) _ (.refl b)) (keepsAon_drawn _)) _ b

/-- A reset of any domain but AON leaves AON's registers alone (R367). -/
theorem keepsAon_domReset (b : Blk) {d : Nat} (h : d ≠ 0) : KeepsAon b (domReset b d) := by
  have hregs : KeepsAon b (domRegs (calDomainReset (domPins b d) d) d) :=
    ((keepsAon_domPins b d).trans (keepsAon_calDomainReset _ d)).trans (keepsAon_domRegs _ h)
  have hstate := (hregs.trans (keepsAon_calShow _ d)).trans ((keepsAon_domState _ d).trans (keepsAon_strapsShow _))
  exact .ite (hstate.trans (keepsAon_newChallenge _)) hstate

/-! ### One domain switched -/

theorem domHold_rd_ne (b : Blk) (d : Nat) {a : Nat} (h : a ≠ Reg.RST_STATUS) : (domHold b d).rd a = b.rd a := by
  unfold domHold
  split
  · exact (Blk.rd_setFlag_ne _ 18 true h).trans (Blk.rd_setFlag_ne b d true h)
  · exact Blk.rd_setFlag_ne b d true h

/-- Domain `d` powers off: it is reset, and neither held nor in reset any more. -/
def domOff (b : Blk) (d : Nat) : Blk :=
  let b := (domReset b d).setFlag Reg.PWR_STATUS d false
  let b := b.setPwr { b.pwr with holding := b.pwr.holding.filter (fun h => h.1 != d) }
  b.setFlag Reg.RST_STATUS d false

/-- Domain `d` goes where the set `w` wants it (`exec_pwrDomainWrite_fits`). -/
def domSwitch (w : Nat) (b : Blk) (d : Nat) : Blk :=
  if b.flag Reg.PWR_STATUS d && !bit w d then domOff b d
  else if !b.flag Reg.PWR_STATUS d && bit w d then domHold (b.setFlag Reg.PWR_STATUS d true) d
  else b

theorem Blk.flag_congr {b c : Blk} {a : Nat} (h : c.rd a = b.rd a) (i : Nat) : c.flag a i = b.flag a i := by simp [Blk.flag, Blk.rdN, h]

theorem Blk.flag_setFlag_ne (b : Blk) (a : Nat) {i j : Nat} (v : Bool) (hi : i < 32) (hne : j ≠ i) :
    (b.setFlag a i v).flag a j = b.flag a j := by
  rw [Blk.flag, Blk.setFlag, Blk.rdN_setFld_self b a i i _ (Nat.le_refl i) hi, Blk.flag, bit_eq_bits, bit_eq_bits]
  rcases Nat.lt_or_gt_of_ne hne with hlt | hgt
  · rw [bits_putBits_below _ _ _ _ _ _ (Nat.le_refl i) hlt]
  · rw [bits_putBits_above _ _ _ _ _ _ (Nat.le_refl i) hgt]

theorem Blk.flag_setFlag (b : Blk) (a : Nat) {i : Nat} (j : Nat) (v : Bool) (hi : i < 32) :
    (b.setFlag a i v).flag a j = if j = i then v else b.flag a j := by
  split
  next h => rw [h, Blk.flag_setFlag_self b a i v hi]
  next h => exact Blk.flag_setFlag_ne b a v hi h

theorem domOff_rd_ne (b : Blk) (d : Nat) {a : Nat} (hr : a ≠ Reg.RST_STATUS) :
    (domOff b d).rd a = ((domReset b d).setFlag Reg.PWR_STATUS d false).rd a := Blk.rd_setFlag_ne _ d false hr

theorem domSwitch_rd_aon (w : Nat) (b : Blk) {d a : Nat} (hd : d ≠ 0) (lo : 0x40010000 ≤ a) (hi : a < 0x40020000)
    (hp : a ≠ Reg.PWR_STATUS) (hr : a ≠ Reg.RST_STATUS) : (domSwitch w b d).rd a = b.rd a := by
  unfold domSwitch
  split
  · rw [domOff_rd_ne b d hr, Blk.rd_setFlag_ne _ d false hp, keepsAon_domReset b hd a lo hi]
  · split
    · rw [domHold_rd_ne _ d hr, Blk.rd_setFlag_ne b d true hp]
    · rfl

/-- Its power bit becomes what `w` says, and no other domain's power bit changes. -/
theorem flag_domSwitch (w : Nat) (b : Blk) {d : Nat} (e : Nat) (hd : d ≠ 0) (hd' : d < 32) :
    (domSwitch w b d).flag Reg.PWR_STATUS e = if e = d then bit w d else b.flag Reg.PWR_STATUS e := by
  unfold domSwitch
  split
  next hoff =>
    have hw : bit w d = false := by simp_all
    rw [Blk.flag_congr (domOff_rd_ne b d (by decide)), Blk.flag_setFlag _ _ e false hd', hw,
      Blk.flag_congr (keepsAon_domReset b hd _ (by decide) (by decide))]
  next hstays =>
    split
    next hon =>
      have hw : bit w d = true := by simp_all
      rw [Blk.flag_congr (domHold_rd_ne _ d (by decide)), Blk.flag_setFlag _ _ e true hd', hw]
    next hsame =>
      have hw : b.flag Reg.PWR_STATUS d = bit w d := by cases h : bit w d <;> simp_all
      split
      next he => rw [he, hw]
      next => rfl

/-! ### All domains switched -/

section
variable (w : Nat) {ds : List Nat} (hds : ∀ d ∈ ds, d ≠ 0 ∧ d < 32)
include hds

theorem foldl_domSwitch_rd_aon (b : Blk) {a : Nat} (lo : 0x40010000 ≤ a) (hi : a < 0x40020000) (hp : a ≠ Reg.PWR_STATUS)
    (hr : a ≠ Reg.RST_STATUS) : (ds.foldl (domSwitch w) b).rd a = b.rd a := by
  induction ds generalizing b with
  | nil => rfl
  | cons d ds ih =>
    obtain ⟨⟨hd, -⟩, hds⟩ := List.forall_mem_cons.mp hds
    rw [List.foldl_cons, ih hds, domSwitch_rd_aon w b hd lo hi hp hr]

theorem flag_foldl_domSwitch (b : Blk) (e : Nat) :
    (ds.foldl (domSwitch w) b).flag Reg.PWR_STATUS e = if e ∈ ds then bit w e else b.flag Reg.PWR_STATUS e := by
  induction ds generalizing b with
  | nil => rfl
  | cons d ds ih =>
    obtain ⟨⟨hd, hd'⟩, hds⟩ := List.forall_mem_cons.mp hds
    rw [List.foldl_cons, ih hds, flag_domSwitch w b e hd hd']
    by_cases hmem : e ∈ ds
    · simp [hmem]
    · by_cases he : e = d
      · simp [he]
      · simp [hmem, he]

end

/-! ### The write -/

/-- The domains a write of PWR_DOMAIN can switch: AON and CORE are always on (R29). -/
def switchedDomains : List Nat := [2, 3, 4, 5, 6, 7, 8, 9]

theorem mem_switchedDomains {d : Nat} : d ∈ switchedDomains ↔ 2 ≤ d ∧ d < 10 := by
  simp only [switchedDomains, List.mem_cons, List.not_mem_nil, or_false]
  omega

/-- What each domain requires of the others (Table 1-14). -/
theorem domainsFit_iff (m : Mem) (b : Blk) (w : Nat) : domainsFit m b w = true ↔ bit w 0 = true ∧ bit w 1 = true ∧
    ((bit w 5 = true ∨ bit w 6 = true ∨ bit w 7 = true ∨ bit w 8 = true) → bit w 2 = true) ∧
    (bit w 5 = true → samplesLoaded m b = true → bit w 4 = true) := by
  have requires (p q : Bool) : (p || !q) = true ↔ (q = true → p = true) := by cases p <;> cases q <;> decide
  simp only [domainsFit, Bool.and_eq_true, requires, Bool.or_eq_true, or_assoc, and_assoc, and_imp]

section
variable {s : State} {v : Word}

theorem exec_pwrDomainWrite : exec (.pwrDomainWrite v) s = .next { s with blk := pwrDomainWrite v.toNat s.mem s.blk } := rfl

theorem exec_pwrDomainWrite_refused (h : domainsFit s.mem s.blk (v.toNat % 1024) = false) :
    exec (.pwrDomainWrite v) s = .next { s with blk := s.blk.irq Reg.RST_INT_STATUS 5 } := by
  have hblk : pwrDomainWrite v.toNat s.mem s.blk = s.blk.irq Reg.RST_INT_STATUS 5 := if_pos (by simp [h])
  rw [exec_pwrDomainWrite, hblk]

theorem exec_pwrDomainWrite_fits (h : domainsFit s.mem s.blk (v.toNat % 1024) = true) : exec (.pwrDomainWrite v) s =
    .next { s with blk := switchedDomains.foldl (domSwitch (v.toNat % 1024)) (s.blk.wrN Reg.PWR_DOMAIN (v.toNat % 1024)) } := by
  have hblk : pwrDomainWrite v.toNat s.mem s.blk =
      switchedDomains.foldl (domSwitch (v.toNat % 1024)) (s.blk.wrN Reg.PWR_DOMAIN (v.toNat % 1024)) := if_neg (by simp [h])
  rw [exec_pwrDomainWrite, hblk]

end

theorem onlyRegs_irq (s : State) (a i : Nat) : OnlyRegs s { s with blk := s.blk.irq a i } [a] [] := by
  refine ⟨?_, fun c hc => Blk.rd_irq_ne s.blk i (List.ne_of_not_mem_cons hc)⟩
  rw [List.append_nil]
  rfl

/-- Settles O35: a set that does not fit raises DOMAIN_ERR alone; one that fits is switched domain by domain, and none of the resets this
takes reaches PWR_DOMAIN or another domain's power bit, which lie in AON. -/
theorem domainPowerRefused : Obligations.DomainPowerRefused := by
  intro s v w
  refine ⟨domainsFit_iff s.mem s.blk w, fun hno => ?_, fun hfit => ?_⟩
  · exact ⟨_, exec_pwrDomainWrite_refused hno, onlyRegs_irq s _ 5, Blk.rdN_irq_self s.blk _ 5 (by decide)⟩
  · have hds : ∀ d ∈ switchedDomains, d ≠ 0 ∧ d < 32 := by decide
    refine ⟨_, exec_pwrDomainWrite_fits hfit, rfl, ?_, fun d lo hi => ?_⟩
    · have hw : v.toNat % 1024 < 2 ^ 32 := Nat.lt_trans (Nat.mod_lt _ (by decide)) (by decide)
      rw [Blk.rdN, foldl_domSwitch_rd_aon _ hds _ (by decide) (by decide) (by decide) (by decide), Blk.rd_wrN_self, BitVec.toNat_ofNat,
        Nat.mod_eq_of_lt hw]
    · rw [flag_foldl_domSwitch _ hds, if_pos (mem_switchedDomains.mpr ⟨lo, hi⟩)]

end Sys2Proof.Machine
end

section
/-!
The increment of a time base in one fabric clock (R35): the exact product, rounded to the nearest unit, halves up.
-/
namespace Sys2Proof.Machine

/-- Where the exact product is not negative, no value is lost to the `toNat` of the increment. -/
theorem cast_tbIncrement {f : Int} (hf : -(256 * 10 ^ 9) ≤ f) :
    (tbIncrement f : Int) = (2 * nsUnit * (256 * 10 ^ 9 + f) + 256 * 10 ^ 9) / (2 * 256 * 10 ^ 9) := by
  have hprod : 0 ≤ 2 * (nsUnit : Int) * (256 * 10 ^ 9 + f) := Int.mul_nonneg (by decide) (by omega)
  exact Int.toNat_of_nonneg (Int.ediv_nonneg (by omega) (by decide))

/-- Settles O13: the increment is the floor of the exact product plus one half, so the two bounds of a floor, less that half, are the
two bounds of the rounding. -/
theorem timeBaseIncrement : Obligations.TimeBaseIncrement := by
  intro f hf
  rw [cast_tbIncrement hf]
  generalize 2 * (nsUnit : Int) * (256 * 10 ^ 9 + f) = product
  have hlower := Int.mul_ediv_self_le (x := product + 256 * 10 ^ 9) (k := 2 * 256 * 10 ^ 9) (by decide)
  have hupper := Int.lt_mul_ediv_self_add (x := product + 256 * 10 ^ 9) (k := 2 * 256 * 10 ^ 9) (by decide)
  constructor <;> omega

end Sys2Proof.Machine
end

section
/-!
The parameter file of the Stitch engine under a register write (R133). A write of the register is never dropped: a delay expiry of the
clock gives way to it. The row's two effects are the NOW write of one parameter and the staging of one value.
-/
namespace Sys2Proof.Machine

/-! ### Tables with one default -/

theorem Tab.at_upd_self {α : Type} [DecidableEq α] (d : α) (t : Tab α) (i : Nat) (x : α) : Tab.at d (Tab.upd d t i x) i = x :=
  Tab.get_set_self _ t i x

theorem Tab.at_upd_ne {α : Type} [DecidableEq α] (d : α) (t : Tab α) {i j : Nat} (x : α) (h : j ≠ i) :
    Tab.at d (Tab.upd d t i x) j = Tab.at d t j := Tab.get_set_ne _ t x h

/-! ### What nodes see of a parameter -/

theorem paramClock_clock (b : Blk) : (paramClock b).clock = b.now := by
  unfold paramClock
  split
  next h => exact h
  next => rfl

section
variable {b : Blk} {i : Nat}

theorem paramSeen_of_clock_ne (h : b.stc.params.clock ≠ b.now) : paramSeen b i = b.rdN (Reg.STC_PARAM_i i) := by
  rw [paramSeen, if_neg h, Option.getD_none]

theorem paramSeen_of_was {v : Nat} (hclock : b.stc.params.clock = b.now) (hwas : Tab.at none b.stc.params.was i = some v) :
    paramSeen b i = v := by
  rw [paramSeen, if_pos hclock, hwas, Option.getD_some]

end

/-! ### NOW: the parameter is written, and nodes of the clock see what they saw -/

section
variable (b : Blk) (i : Nat)

theorem paramWrite_now_regs : (paramWrite i 0 b).regs = (b.wrN (Reg.STC_PARAM_i i) (b.rdN Reg.STC_PARAM_DATA)).regs := rfl

theorem paramWrite_now_now : (paramWrite i 0 b).now = b.now := rfl

theorem paramWrite_now_stc :
    (paramWrite i 0 b).stc = { b.stc with params := (paramWrite i 0 b).stc.params } := rfl

theorem paramWrite_now_clock : (paramWrite i 0 b).stc.params.clock = b.now := paramClock_clock b

theorem paramWrite_now_was : Tab.at none (paramWrite i 0 b).stc.params.was i = some (paramSeen b i) :=
  Tab.at_upd_self none (paramClock b).was i (some (paramSeen b i))

theorem paramWrite_now_rd_self : (paramWrite i 0 b).rd (Reg.STC_PARAM_i i) = b.rd Reg.STC_PARAM_DATA := by
  rw [Blk.rd_congr (paramWrite_now_regs b i), Blk.rd_wrN_self, Blk.rdN, BitVec.ofNat_toNat, BitVec.setWidth_eq]

theorem paramWrite_now_rd_ne {a : Nat} (h : a ≠ Reg.STC_PARAM_i i) : (paramWrite i 0 b).rd a = b.rd a := by
  rw [Blk.rd_congr (paramWrite_now_regs b i), Blk.rd_wrN_ne b _ h]

theorem paramWrite_now_seen : paramSeen (paramWrite i 0 b) i = paramSeen b i :=
  paramSeen_of_was (paramWrite_now_clock b i) (paramWrite_now_was b i)

theorem paramWrite_now_seen_next :
    paramSeen { paramWrite i 0 b with now := (paramWrite i 0 b).now + 1 } i = b.rdN Reg.STC_PARAM_DATA := by
  have hearlier : (paramWrite i 0 b).stc.params.clock ≠ (paramWrite i 0 b).now + 1 := by
    rw [paramWrite_now_clock, paramWrite_now_now]
    omega
  exact (paramSeen_of_clock_ne hearlier).trans (congrArg BitVec.toNat (paramWrite_now_rd_self b i))

end

/-! ### ROW and FRAME: the value is staged -/

/-- What a write with APPLY_AT `mode` leaves for parameter `i` (`paramWrite_staged`). -/
def paramStageOf (b : Blk) (i mode : Nat) : ParamStage where
  mode := min mode 2
  value := b.rdN Reg.STC_PARAM_DATA
  clock := b.now
  before := (Tab.at none b.stc.staged i).bind (fun x => x.due b.now)

section
variable (b : Blk) (i : Nat) {mode : Nat} (h : mode ≠ 0)
include h

theorem paramWrite_staged : paramWrite i mode b = b.setStc { b.stc with
    params := { paramClock b with reg := (i, false) :: (paramClock b).reg }
    staged := Tab.upd none b.stc.staged i (some (paramStageOf b i mode)) } := by
  have hmode : (mode == 0) = false := beq_false_of_ne h
  simp [paramWrite, paramPut, paramStageOf, hmode]

theorem paramWrite_staged_rd (a : Nat) : (paramWrite i mode b).rd a = b.rd a := by
  rw [paramWrite_staged b i h]
  rfl

theorem paramWrite_staged_stc : (paramWrite i mode b).stc =
    { b.stc with staged := (paramWrite i mode b).stc.staged, params := (paramWrite i mode b).stc.params } := by
  rw [paramWrite_staged b i h]
  rfl

theorem paramWrite_staged_at_self : Tab.at none (paramWrite i mode b).stc.staged i = some (paramStageOf b i mode) := by
  rw [paramWrite_staged b i h]
  exact Tab.at_upd_self none b.stc.staged i (some (paramStageOf b i mode))

theorem paramWrite_staged_at_ne {j : Nat} (hj : j ≠ i) :
    Tab.at none (paramWrite i mode b).stc.staged j = Tab.at none b.stc.staged j := by
  rw [paramWrite_staged b i h]
  exact Tab.at_upd_ne none b.stc.staged (some (paramStageOf b i mode)) hj

end

/-- Settles O18: NOW writes the parameter and notes, for the nodes of this clock alone, what they saw of it; ROW and FRAME stage the value
at the parameter's place among the staged ones. -/
theorem parameterWrite : Obligations.ParameterWrite := by
  intro s i k hon
  refine ⟨fun hnow => ?_, fun hlater => ?_⟩
  · subst hnow
    exact answers_onBlk (f := paramWrite i 0) hon rfl
      ⟨fun a ha => paramWrite_now_rd_ne s.blk i (List.ne_of_not_mem_cons ha), rfl, paramWrite_now_rd_self s.blk i,
        paramWrite_now_seen s.blk i, paramWrite_now_seen_next s.blk i, paramWrite_now_stc s.blk i⟩
  · have hmode : k.val ≠ 0 := Fin.val_ne_zero_iff.mpr hlater
    exact answers_onBlk (f := paramWrite i k) hon rfl
      ⟨fun a _ => paramWrite_staged_rd s.blk i hmode a, rfl,
        congrArg (Option.map fun x => (x.mode, x.value, x.clock)) (paramWrite_staged_at_self s.blk i hmode),
        fun _ hj => paramWrite_staged_at_ne s.blk i hmode hj, paramWrite_staged_stc s.blk i hmode⟩

end Sys2Proof.Machine
end

section
/-!
The delay lists flushed (R134) and a staged program discarded (R137).
-/
namespace Sys2Proof.Machine

theorem delayFlush_regs (m0 m1 : Bool) (b : Blk) : (delayFlush m0 m1 b).regs =
    (b.wrN Reg.STC_DELAY_USED (delayFlush m0 m1 b).stc.delays.length).regs := rfl

theorem delayFlush_rd_ne (m0 m1 : Bool) (b : Blk) {a : Nat} (h : a ≠ Reg.STC_DELAY_USED) : (delayFlush m0 m1 b).rd a = b.rd a := by
  rw [Blk.rd_congr (delayFlush_regs m0 m1 b), Blk.rd_wrN_ne b _ h]

theorem delayFlush_rd_used (m0 m1 : Bool) (b : Blk) :
    (delayFlush m0 m1 b).rd Reg.STC_DELAY_USED = BitVec.ofNat 32 (delayFlush m0 m1 b).stc.delays.length := by
  rw [Blk.rd_congr (delayFlush_regs m0 m1 b), Blk.rd_wrN_self]

/-- The entries that a flush leaves are those of the Meridians it does not name. -/
theorem mem_delayFlush_delays {m0 m1 : Bool} {b : Blk} {d : DelayEntry} :
    d ∈ (delayFlush m0 m1 b).stc.delays ↔ d ∈ b.stc.delays ∧ (if d.mer = 0 then m0 = false else m1 = false) := by
  refine List.mem_filter.trans (and_congr_right fun _ => ?_)
  split
  · rw [Bool.not_eq_true']
  · rw [Bool.not_eq_true']

theorem onlyRegs_setFld (s : State) (a hi lo v : Nat) : OnlyRegs s { s with blk := s.blk.setFld a hi lo v } [a] [] :=
  onlyRegs_wr_quiet s a _

/-- Settles O19: a flush filters the list and shows what is left, and writes no other register, so that no counter of expiries moves; a
discard writes the two status bits of STC_PROG_STATUS alone. -/
theorem delayFlushEmpties : Obligations.DelayFlushEmpties := by
  intro s m0 m1 hon
  constructor
  · exact answers_onBlk (f := delayFlush m0 m1) hon rfl
      ⟨rfl, fun a ha => delayFlush_rd_ne m0 m1 s.blk (List.ne_of_not_mem_cons ha), delayFlush_rd_used m0 m1 s.blk,
        fun _ => mem_delayFlush_delays, rfl⟩
  · exact answers_onBlk (f := discardStaged) hon rfl
      ⟨onlyRegs_setFld s Reg.STC_PROG_STATUS 2 1 0, Blk.rdN_setFld_self s.blk Reg.STC_PROG_STATUS 2 1 0 (by decide) (by decide)⟩

end Sys2Proof.Machine
end

section
/-!
MIX (R151): its weight in each mode, and the rounded mean of its two inputs by that weight.
-/
namespace Sys2Proof.Machine

/-- Bytes read as a number stay below the power of 256 that their count gives. -/
theorem leNat_lt (bs : List Byte) : leNat bs < 256 ^ bs.length := by
  induction bs with
  | nil => exact Nat.one_pos
  | cons c cs ih =>
    have hc : c.toNat < 256 := c.isLt
    rw [leNat, List.length_cons, Nat.pow_succ]
    omega

theorem Mem.le_lt (m : Mem) (a k : Nat) : m.le a k < 256 ^ k := by
  simpa [Mem.le, Mem.bytes] using leNat_lt (m.bytes a k)

/-- The weight of a MIX node for Stitch `j` of its batch, 65,536 being 1 (R151): of word 0 in MODE 0, else of the table at word 0. -/
def mixWeight (m : Mem) (b : Blk) (t : Batch) (n : PNode) (j : Nat) : Nat :=
  if n.mode = 0 then min 65536 (bits (dynWord b (n.word 0)) 16 0)
  else Mem.le m (n.word 0 + 2 * (t.first + j)) 2 + Mem.le m (n.word 0 + 2 * (t.first + j)) 2 >>> 15

theorem mixWeight_of_mode_zero (m : Mem) (b : Blk) (t : Batch) {n : PNode} (j : Nat) (hmode : n.mode = 0) :
    mixWeight m b t n j = min 65536 (bits (dynWord b (n.word 0)) 16 0) := if_pos hmode

theorem mixWeight_of_mode_ne_zero (m : Mem) (b : Blk) (t : Batch) {n : PNode} (j : Nat) (hmode : n.mode ≠ 0) :
    mixWeight m b t n j = Mem.le m (n.word 0 + 2 * (t.first + j)) 2 + Mem.le m (n.word 0 + 2 * (t.first + j)) 2 >>> 15 := if_neg hmode

/-- A 16-bit weight and its top bit make at most 65,536. -/
theorem weight16_le {v : Nat} (hv : v < 2 ^ 16) : v + v >>> 15 ≤ 65536 := by
  rw [Nat.shiftRight_eq_div_pow]
  omega

theorem mixWeight_le (m : Mem) (b : Blk) (t : Batch) (n : PNode) (j : Nat) : mixWeight m b t n j ≤ 65536 := by
  by_cases hmode : n.mode = 0
  · rw [mixWeight_of_mode_zero m b t j hmode]
    exact Nat.min_le_left _ _
  · rw [mixWeight_of_mode_ne_zero m b t j hmode]
    exact weight16_le (Mem.le_lt m _ 2)

/-- Two values of 32 bits, weighed by parts that make 65,536 and rounded, stay within 32 bits. -/
theorem mix_le_max32 {x y w : Nat} (hx : x ≤ max32) (hy : y ≤ max32) (hw : w ≤ 65536) :
    (x * (65536 - w) + y * w + 32768) / 65536 ≤ max32 := by
  have hsum : x * (65536 - w) + y * w ≤ max32 * 65536 :=
    calc x * (65536 - w) + y * w ≤ max32 * (65536 - w) + max32 * w :=
          Nat.add_le_add (Nat.mul_le_mul_right _ hx) (Nat.mul_le_mul_right _ hy)
      _ = max32 * 65536 := by rw [← Nat.mul_add, Nat.sub_add_cancel hw]
  omega

/-- The saturation of MIX never acts on values of 32 bits. -/
theorem mixEval_eq_shift {x y w : Nat} (hx : x ≤ max32) (hy : y ≤ max32) (hw : w ≤ 65536) :
    mixEval x y w = (x * (65536 - w) + y * w + 32768) >>> 16 := by
  rw [mixEval, sat32, if_neg (Nat.not_lt.mpr (mix_le_max32 hx hy hw)), Nat.shiftRight_eq_div_pow]

theorem stitchEval_mix_getD (m : Mem) (b : Blk) (t : Batch) {n : PNode} (j : Nat) {k : Nat} (hop : n.op = 4) (hk : k < n.width) :
    (stitchEval m b t n j).getD k 0 = mixEval (cmp ((Tab.at [] t.values n.a).getD j []) k) (cmp ((Tab.at [] t.values n.b).getD j []) k)
      (mixWeight m b t n j) := by
  simp [stitchEval, hop, hk, mixWeight, bits, Nat.shiftRight_eq_div_pow]

/-- Settles O20: in each mode the node's weight is at most 65,536, so that the rounded mean of two values of 32 bits is one itself and the
saturation of the sum leaves it as it is. -/
theorem mixWeighs : Obligations.MixWeighs := by
  intro m b t n j k hop hk x y hx hy
  have hval : (stitchEval m b t n j).getD k 0 = mixEval x y (mixWeight m b t n j) := stitchEval_mix_getD m b t j hop hk
  have hshift : (stitchEval m b t n j).getD k 0 = (x * (65536 - mixWeight m b t n j) + y * mixWeight m b t n j + 32768) >>> 16 :=
    hval.trans (mixEval_eq_shift (Nat.le_pred_of_lt hx) (Nat.le_pred_of_lt hy) (mixWeight_le m b t n j))
  have hlt : (stitchEval m b t n j).getD k 0 < 2 ^ 32 := hval ▸ Nat.lt_succ_of_le (sat32_le _)
  refine ⟨fun hmode => ⟨_, ?_, hshift, hlt⟩, fun hmode => ?_⟩
  · rw [mixWeight_of_mode_zero m b t j hmode]
    split <;> omega
  · have hw := mixWeight_of_mode_ne_zero m b t j hmode
    exact ⟨_, _, rfl, hw, fun hv => by rw [hw, hv]; decide, fun hv => by rw [hw, hv]; decide, hshift, hlt⟩

end Sys2Proof.Machine
end

section
/-!
Strand ports: the park sequence starts (R204), and the TX takes the rate of the RATE frame that has left (R196). The switch ends the
port's Swatch job, which shows in the CAL block alone.
-/
namespace Sys2Proof.Machine

theorem gives_onBlk {d : Nat} {f : Blk → Blk} {s : State} {i : Instr} (h : domOn s.blk d = true)
    (he : exec i s = inDom d (onBlk f) s) : Gives i s (f s.blk) := he.trans (inDom_on h)

/-- A command whose effect on the block is none leaves the state as it is. -/
theorem exec_onBlk_unchanged {d : Nat} {f : Blk → Blk} {s : State} {i : Instr} (h : domOn s.blk d = true)
    (he : exec i s = inDom d (onBlk f) s) (hf : f s.blk = s.blk) : exec i s = .next s := by
  have hgives : exec i s = .next { s with blk := f s.blk } := gives_onBlk h he
  rw [hgives, hf]

@[simp] theorem Blk.str_setStr_self (b : Blk) (n : Nat) (x : StrPort) : (b.setStr n x).str n = x := Tab.at_upd_self _ b.strs n x

theorem Blk.str_congr {b c : Blk} (h : c.strs = b.strs) (n : Nat) : c.str n = b.str n := by rw [Blk.str, h, Blk.str]

theorem Blk.fld_congr {b c : Blk} {a : Nat} (h : c.rd a = b.rd a) (hi lo : Nat) : c.fld a hi lo = b.fld a hi lo := by
  rw [Blk.fld, Blk.rdN, h, Blk.fld, Blk.rdN]

theorem Blk.flag_irq_self (b : Blk) (a i : Nat) (h : i < 32) : (b.irq a i).flag a i = true :=
  (Blk.flag_congr (Blk.rd_congr (b.irq_regs a i) a) i).trans (Blk.flag_setFlag_self b a i true h)

/-! ### The end of a port's Swatch job writes the CAL block alone, which lies from 0x40100000 on -/

theorem strReg_lt_cal (n : Fin 32) {base : Nat} (h : base + 0x200 * 32 ≤ 0x40100000) : base + 0x200 * n.val < 0x40100000 := by omega

section
variable {a : Nat} (ha : a < 0x40100000)
include ha

theorem ne_calReg {c : Nat} (hc : 0x40100000 ≤ c) : a ≠ c := Nat.ne_of_lt (Nat.lt_of_lt_of_le ha hc)

variable (b : Blk)

theorem calEnded_rd (job code : Nat) : (calEnded b job code).rd a = b.rd a := by
  have hdone : ((b.wrN Reg.CAL_LAST_JOB (job + 65536 * code)).irq Reg.CAL_INT_STATUS 0).rd a = b.rd a := by
    rw [Blk.rd_irq_ne _ 0 (ne_calReg ha (by decide)), Blk.rd_wrN_ne b _ (ne_calReg ha (by decide))]
  unfold calEnded
  split
  · exact hdone
  · rw [Blk.rd_irq_ne _ 1 (ne_calReg ha (by decide)), hdone]

theorem setSwJob_rd (n : Nat) (j : Option SwJob) : (setSwJob b n j).rd a = b.rd a := by
  rw [setSwJob, Blk.rd_setFlag_ne _ n _ (ne_calReg ha (by decide))]
  rfl

theorem swEnd_rd (n code : Nat) (apply : Bool) : (swEnd b n code apply).rd a = b.rd a := by
  have hresult : ((setSwJob b n none).wrN (Reg.CAL_STRn_RESULT n) code).rd a = b.rd a := by
    rw [Blk.rd_wrN_ne _ code (ne_calReg ha (Nat.le_add_right_of_le (by decide))), setSwJob_rd ha b n none]
  rw [swEnd, calEnded_rd ha]
  split
  · exact hresult
  · rw [Blk.rd_count_ne _ 1 (ne_calReg ha (Nat.le_add_right_of_le (by decide))), hresult]

theorem swAbort_rd (n : Nat) : (swAbort b n).rd a = b.rd a := by
  unfold swAbort
  split
  · exact swEnd_rd ha b n 4 _
  · rfl

end

theorem swEnd_strs (b : Blk) (n code : Nat) (apply : Bool) : (swEnd b n code apply).strs = b.strs := by
  simp only [swEnd, calEnded, setSwJob]
  split <;> rfl

theorem swAbort_strs (b : Blk) (n : Nat) : (swAbort b n).strs = b.strs := by
  unfold swAbort
  split
  · exact swEnd_strs b n 4 _
  · rfl

/-! ### The rate in use -/

section
variable (b : Blk) (n r : Nat)

theorem strRateTo_rd_ne {a : Nat} (hstatus : a ≠ Reg.STR_n_STATUS n) (hlead : a ≠ Reg.STR_n_LEAD n) :
    (strRateTo b n r).rd a = b.rd a := by
  unfold strRateTo
  extract_lets shown
  have hshown : shown.rd a = b.rd a := Blk.rd_setFld_ne b 4 3 r hstatus
  split
  · rw [Blk.rd_wrN_ne shown _ hlead, hshown]
  · exact hshown

theorem strRateTo_rd_status :
    (strRateTo b n r).rd (Reg.STR_n_STATUS n) = (b.setFld (Reg.STR_n_STATUS n) 4 3 r).rd (Reg.STR_n_STATUS n) := by
  unfold strRateTo
  extract_lets shown
  split
  · exact Blk.rd_wrN_ne shown _ (by simp)
  · rfl

theorem strRateTo_rate : (strRateTo b n r).fld (Reg.STR_n_STATUS n) 4 3 = r % 4 :=
  (Blk.fld_congr (strRateTo_rd_status b n r) 4 3).trans (Blk.fld_setFld_self b _ 4 3 r (by decide) (by decide))

theorem strRateTo_strs : (strRateTo b n r).strs = b.strs := by
  unfold strRateTo
  extract_lets shown
  split
  · rfl
  · rfl

end

/-! ### The switch of a port's TX -/

/-- The block as the TX of port `n` switches: its hops keep the old rate, its symbol grid starts anew, and 8 µs of idle begin. -/
def txSwitched (b : Blk) (n : Nat) : Blk :=
  (hopsKeep b n (strRate b n)).setStr n { b.str n with rateSent := none, grid := now4 b, wireFree := now4 b + 32000 }

theorem txSwitched_rdN (b : Blk) (n a : Nat) : (txSwitched b n).rdN a = b.rdN a := rfl

theorem txSwitched_str (b : Blk) (n : Nat) :
    (txSwitched b n).str n = { b.str n with rateSent := none, grid := now4 b, wireFree := now4 b + 32000 } := Blk.str_setStr_self _ n _

/-- Port `n` shows rate `r` in use, counts the change and raises RATE_CHANGE (R196). -/
def rateChanged (b : Blk) (n r : Nat) : Blk :=
  ((strRateTo b n r).count (Reg.STR_n_RATE_CHANGES n)).irq (Reg.STR_n_INT_STATUS n) 9

section
variable (b : Blk) (n r : Nat)

theorem rateChanged_rate : (rateChanged b n r).fld (Reg.STR_n_STATUS n) 4 3 = r % 4 := by
  have hrd : (rateChanged b n r).rd (Reg.STR_n_STATUS n) = (strRateTo b n r).rd (Reg.STR_n_STATUS n) := by
    rw [rateChanged, Blk.rd_irq_ne _ 9 (by simp), Blk.rd_count_ne _ 1 (by simp)]
  rw [Blk.fld_congr hrd, strRateTo_rate]

theorem rateChanged_changes :
    (rateChanged b n r).rdN (Reg.STR_n_RATE_CHANGES n) = min (2 ^ 32 - 1) (b.rdN (Reg.STR_n_RATE_CHANGES n) + 1) := by
  have hirq : (rateChanged b n r).rdN (Reg.STR_n_RATE_CHANGES n) =
      ((strRateTo b n r).count (Reg.STR_n_RATE_CHANGES n)).rdN (Reg.STR_n_RATE_CHANGES n) :=
    congrArg BitVec.toNat (Blk.rd_irq_ne _ 9 (by simp))
  have hrate : (strRateTo b n r).rdN (Reg.STR_n_RATE_CHANGES n) = b.rdN (Reg.STR_n_RATE_CHANGES n) :=
    congrArg BitVec.toNat (strRateTo_rd_ne b n r (by simp) (by simp))
  rw [hirq, Blk.rdN_count_self, hrate, sat32_eq_min]

theorem rateChanged_raised : (rateChanged b n r).flag (Reg.STR_n_INT_STATUS n) 9 = true := Blk.flag_irq_self _ _ 9 (by decide)

theorem rateChanged_strs : (rateChanged b n r).strs = b.strs := by
  rw [rateChanged, Blk.irq_strs, Blk.count_strs, strRateTo_strs]

end

section
variable {b : Blk} {n : Nat}

theorem rateTxSwitch_of_none (hsent : (b.str n).rateSent = none) : rateTxSwitch n b = b := by simp [rateTxSwitch, hsent]

/-- The wire is free 4 symbols after the RATE frame, so that 12 more make 16. -/
theorem rateTxSwitch_of_early (hearly : now4 b + 4 ≤ (b.str n).wireFree + 12 * strTsym4 b n) : rateTxSwitch n b = b := by
  unfold rateTxSwitch
  extract_lets x
  split
  · rfl
  · exact if_pos hearly

theorem rateTxSwitch_of_due {r : Nat} (hsent : (b.str n).rateSent = some r)
    (hdue : (b.str n).wireFree + 12 * strTsym4 b n < now4 b + 4) :
    rateTxSwitch n b = swAbort (rateChanged (txSwitched b n) n r) n := by
  simp only [rateTxSwitch, hsent, if_neg (Int.not_le.mpr hdue)]
  rfl

theorem parkStart_of_sends (h : strSends b n = true) : parkStart n b = b.setStr n { b.str n with parkLeft := 4, parkSent := 0 } := if_pos h

theorem parkStart_of_not_sends (h : strSends b n = false) : parkStart n b = b := if_neg (Bool.eq_false_iff.mp h)

end

/-- Settles O23: PARK acts at a port only while it sends. A switch that is due restarts the port's wire, then shows, counts and raises the
change; the Swatch job it ends touches neither the port nor its registers. -/
theorem strandPark : Obligations.StrandPark := by
  intro s n hon
  refine ⟨fun hidle => ?_, fun hsends => ?_, fun hnone => ?_, fun hearly => ?_, fun r hsent hdue => ?_⟩
  · exact exec_onBlk_unchanged (f := parkStart n) hon rfl (parkStart_of_not_sends hidle)
  · exact parkStart_of_sends hsends ▸ gives_onBlk (f := parkStart n) hon rfl
  · exact exec_onBlk_unchanged (f := rateTxSwitch n) hon rfl (rateTxSwitch_of_none hnone)
  · exact exec_onBlk_unchanged (f := rateTxSwitch n) hon rfl (rateTxSwitch_of_early hearly)
  · refine answers_onBlk (f := rateTxSwitch n) hon rfl ?_
    rw [rateTxSwitch_of_due hsent hdue]
    have hrd {base : Nat} (hbase : base + 0x200 * 32 ≤ 0x40100000) :=
      swAbort_rd (strReg_lt_cal n hbase) (rateChanged (txSwitched s.blk n) n r) n
    have hstrs : (swAbort (rateChanged (txSwitched s.blk n) n r) n).strs = (txSwitched s.blk n).strs :=
      (swAbort_strs _ n).trans (rateChanged_strs _ n r)
    have hport := (Blk.str_congr hstrs n).trans (txSwitched_str s.blk n)
    have hcount := rateChanged_changes (txSwitched s.blk n) n r
    rw [txSwitched_rdN] at hcount
    exact ⟨rfl, (Blk.fld_congr (hrd (by decide)) 4 3).trans (rateChanged_rate _ n r),
      congrArg StrPort.rateSent hport, congrArg StrPort.wireFree hport,
      (congrArg BitVec.toNat (hrd (by decide))).trans hcount,
      (Blk.flag_congr (hrd (by decide)) 9).trans (rateChanged_raised _ n r)⟩

end Sys2Proof.Machine
end

section
/-!
The tables of the switch (R265, Table 10-12): WRITE, READ and DELETE of the multicast table, and the flush of the forwarding table. A
WRITE whose VALID is clear removes the entry, which R265 does not say and the model deduces (log entry 32).
-/
namespace Sys2Proof.Machine

/-- A bit of a register's word as a number is the bit of the word. -/
theorem bit_toNat (v : Word) (i : Nat) : bit v.toNat i = v.getLsbD i := by
  rw [BitVec.getLsbD, Nat.testBit_eq_decide_div_mod_eq]
  rfl

/-! ### The end of a table operation -/

section
variable (b : Blk) (found full : Bool)

theorem tblDone_trk : (tblDone b found full).trk = b.trk := rfl

theorem tblDone_rd_ne {a : Nat} (h : a ∉ [Reg.TRK_TBL_STATUS, Reg.TRK_INT_STATUS]) : (tblDone b found full).rd a = b.rd a := by
  obtain ⟨hstatus, hint⟩ : a ≠ Reg.TRK_TBL_STATUS ∧ a ≠ Reg.TRK_INT_STATUS := by simpa using h
  rw [tblDone, Blk.rd_irq_ne _ 7 hint, Blk.rd_wrN_ne b _ hstatus]

/-- An operation that does not end with FULL leaves FOUND, bit 1, as the only bit that may be set; BUSY is bit 0. -/
theorem tblDone_status : (tblDone b found false).rdN Reg.TRK_TBL_STATUS = if found then 2 else 0 := by
  rw [tblDone, Blk.rdN, Blk.rd_irq_ne _ 7 (by decide), Blk.rd_wrN_self]
  cases found <;> rfl

theorem tblDone_raised : (tblDone b found full).flag Reg.TRK_INT_STATUS 7 = true := Blk.flag_irq_self _ _ 7 (by decide)

end

/-! ### WRITE and DELETE: the index that a command names takes an entry, or none -/

/-- The multicast entry that stands in TRK_TBL_DATA0 to 2 (`tblWrite_mct`). -/
def tblMcEntry (b : Blk) : McEntry where
  mac := tblMac b
  vid := tblVid b
  any := b.flag Reg.TRK_TBL_DATA1 28
  mask := b.fld Reg.TRK_TBL_DATA2 4 0

/-- The multicast entry at the index that `cmd` names. -/
def mctOf (cmd : Nat) (b : Blk) : Option McEntry := Tab.at none b.trk.mct (bits cmd 15 8)

/-- The index that `cmd` names takes `x`, and the operation ends (`tblWrite_mct`, `tblDelete_mct`). -/
def mctTake (cmd : Nat) (x : Option McEntry) (b : Blk) : Blk := tblDone (mctPut b (bits cmd 15 8) x) (mctOf cmd b).isSome false

section
variable {cmd : Nat} (b : Blk) (h : bit cmd 4 = true)
include h

theorem tblWrite_mct : tblWrite cmd b = mctTake cmd (if b.flag Reg.TRK_TBL_DATA2 9 then some (tblMcEntry b) else none) b := if_pos h

theorem tblDelete_mct : tblDelete cmd b = mctTake cmd none b := if_pos h

end

section
variable (cmd : Nat) (x : Option McEntry) (b : Blk)

theorem mctTake_at_self : Tab.at none (mctTake cmd x b).trk.mct (bits cmd 15 8) = x := Tab.at_upd_self none b.trk.mct (bits cmd 15 8) x

theorem mctTake_at_ne {j : Nat} (hj : j ≠ bits cmd 15 8) : Tab.at none (mctTake cmd x b).trk.mct j = Tab.at none b.trk.mct j :=
  Tab.at_upd_ne none b.trk.mct x hj

theorem mctTake_fdb : (mctTake cmd x b).trk.fdb = b.trk.fdb := rfl

theorem mctTake_rd_ne {a : Nat} (ha : a ∉ [Reg.TRK_TBL_STATUS, Reg.TRK_INT_STATUS]) : (mctTake cmd x b).rd a = b.rd a :=
  tblDone_rd_ne (mctPut b (bits cmd 15 8) x) _ _ ha

theorem mctTake_status : (mctTake cmd x b).rdN Reg.TRK_TBL_STATUS = if (mctOf cmd b).isSome then 2 else 0 := tblDone_status _ _

theorem mctTake_raised : (mctTake cmd x b).flag Reg.TRK_INT_STATUS 7 = true := tblDone_raised _ _ _

end

/-! ### READ: an entry goes into the data words, or zeros do -/

/-- TRK_TBL_DATA0 to 2 take the words of a multicast entry, with VALID (`tblRead_mct_some`). -/
def tblShow (e : McEntry) (b : Blk) : Blk :=
  ((b.wrN Reg.TRK_TBL_DATA0 e.mac).wrN Reg.TRK_TBL_DATA1 (e.mac / 2 ^ 32 + e.vid * 2 ^ 16 + b2n e.any * 2 ^ 28)).wrN
    Reg.TRK_TBL_DATA2 (e.mask + 256 + 512)

/-- TRK_TBL_DATA0 to 2 take 0 (`tblRead_mct_none`). -/
def tblBlank (b : Blk) : Blk := (b.wrN Reg.TRK_TBL_DATA0 0).zero [Reg.TRK_TBL_DATA1, Reg.TRK_TBL_DATA2]

theorem Blk.zero_trk (as : List Nat) (b : Blk) : (b.zero as).trk = b.trk := by rw [Blk.zero_eq]

theorem tblShow_trk (e : McEntry) (b : Blk) : (tblShow e b).trk = b.trk := by rw [tblShow, Blk.wrN_trk, Blk.wrN_trk, Blk.wrN_trk]

theorem tblBlank_trk (b : Blk) : (tblBlank b).trk = b.trk := by rw [tblBlank, Blk.zero_trk, Blk.wrN_trk]

section
variable {cmd : Nat} (b : Blk) (h : bit cmd 4 = true)
include h

theorem tblRead_mct_some {e : McEntry} (he : mctOf cmd b = some e) : tblRead cmd b = tblDone (tblShow e b) true false := by
  rw [mctOf] at he
  simp only [tblRead, h, he]
  rfl

theorem tblRead_mct_none (he : mctOf cmd b = none) : tblRead cmd b = tblDone (tblBlank b) false false := by
  rw [mctOf] at he
  simp only [tblRead, h, he]
  rfl

theorem tblRead_mct_trk : (tblRead cmd b).trk = b.trk := by
  cases he : mctOf cmd b with
  | some e => rw [tblRead_mct_some b h he, tblDone_trk, tblShow_trk]
  | none => rw [tblRead_mct_none b h he, tblDone_trk, tblBlank_trk]

end

theorem tblShow_data0 (e : McEntry) (b : Blk) : (tblShow e b).rd Reg.TRK_TBL_DATA0 = BitVec.ofNat 32 e.mac := by
  rw [tblShow, Blk.rd_wrN_ne _ _ (by decide), Blk.rd_wrN_ne _ _ (by decide), Blk.rd_wrN_self]

theorem tblShow_data2 (e : McEntry) (b : Blk) : (tblShow e b).rd Reg.TRK_TBL_DATA2 = BitVec.ofNat 32 (e.mask + 256 + 512) :=
  Blk.rd_wrN_self _ _ _

theorem tblBlank_data (b : Blk) {a : Nat} (ha : a ∈ [Reg.TRK_TBL_DATA0, Reg.TRK_TBL_DATA1, Reg.TRK_TBL_DATA2]) :
    (tblBlank b).rd a = 0#32 := by
  rw [tblBlank, Blk.rd_zero]
  split
  · rfl
  · next hne =>
    obtain rfl : a = Reg.TRK_TBL_DATA0 := (List.mem_cons.mp ha).resolve_right hne
    exact Blk.rd_wrN_self b _ 0

/-! ### The flush of the forwarding table -/

theorem mem_fdbFilter_fdb {b : Blk} {keep : FdbEntry → Bool} {k : Nat} {es : List FdbEntry} :
    (k, es) ∈ (fdbFilter b keep).trk.fdb ↔ es ≠ [] ∧ ∃ old, (k, old) ∈ b.trk.fdb ∧ es = old.filter keep := by
  have hfdb : (fdbFilter b keep).trk.fdb = (b.trk.fdb.map (fun x => (x.1, x.2.filter keep))).filter (fun x => !x.2.isEmpty) := rfl
  rw [hfdb, List.mem_filter, List.mem_map, and_comm]
  refine and_congr (by simp) ⟨?_, ?_⟩
  · rintro ⟨⟨_, old⟩, hold, heq⟩
    cases heq
    exact ⟨old, hold, rfl⟩
  · rintro ⟨old, hold, rfl⟩
    exact ⟨(k, old), hold, rfl⟩

theorem fdbFilter_mct (b : Blk) (keep : FdbEntry → Bool) : (fdbFilter b keep).trk.mct = b.trk.mct := rfl

theorem fdbFilter_rd_ne (b : Blk) (keep : FdbEntry → Bool) {a : Nat} (h : a ≠ Reg.TRK_STATUS) : (fdbFilter b keep).rd a = b.rd a :=
  Blk.rd_setFld_ne _ 28 16 _ h

/-- A flush forgets the learned entries of every port, so that it keeps the static ones alone. -/
theorem fdbForget_all (b : Blk) : fdbForget b (fun _ => true) = fdbFilter b (fun e => e.static) := by simp [fdbForget]

/-- Settles O27: WRITE and DELETE put an entry, or none, at the index they name; READ writes the data words of that index's entry, or
zeros; the flush filters every set by its static entries. -/
theorem switchTables : Obligations.SwitchTables := by
  intro s cmd hon i old e
  rw [← bit_toNat]
  refine ⟨fun hmulti => ?write, fun hmulti => ?delete, fun hmulti => ?read, ?flush⟩
  case write =>
    refine answers_onBlk (f := tblWrite cmd.toNat) hon rfl ?_
    rw [tblWrite_mct s.blk hmulti]
    exact ⟨rfl, mctTake_at_self _ _ _, fun _ hj => mctTake_at_ne _ _ _ hj, mctTake_fdb _ _ _, mctTake_status _ _ _,
      mctTake_raised _ _ _, fun _ ha => mctTake_rd_ne _ _ _ ha⟩
  case delete =>
    refine answers_onBlk (f := tblDelete cmd.toNat) hon rfl ?_
    rw [tblDelete_mct s.blk hmulti]
    exact ⟨rfl, mctTake_at_self _ _ _, fun _ hj => mctTake_at_ne _ _ _ hj, mctTake_status _ _ _, fun _ ha => mctTake_rd_ne _ _ _ ha⟩
  case read =>
    refine answers_onBlk (f := tblRead cmd.toNat) hon rfl ⟨tblRead_mct_trk s.blk hmulti, rfl, fun x hx => ?_, fun hx => ?_⟩
    · rw [tblRead_mct_some s.blk hmulti hx, tblDone_rd_ne _ _ _ (by decide), tblDone_rd_ne _ _ _ (by decide)]
      exact ⟨tblShow_data0 x s.blk, tblShow_data2 x s.blk, tblDone_status _ _⟩
    · have hzero {a : Nat} (ha : a ∈ [Reg.TRK_TBL_DATA0, Reg.TRK_TBL_DATA1, Reg.TRK_TBL_DATA2])
          (hne : a ∉ [Reg.TRK_TBL_STATUS, Reg.TRK_INT_STATUS]) : (tblDone (tblBlank s.blk) false false).rd a = 0#32 :=
        (tblDone_rd_ne _ _ _ hne).trans (tblBlank_data s.blk ha)
      rw [tblRead_mct_none s.blk hmulti hx]
      exact ⟨hzero (by decide) (by decide), hzero (by decide) (by decide), hzero (by decide) (by decide), tblDone_status _ _⟩
  case flush =>
    refine answers_onBlk (f := fun b => fdbForget b (fun _ => true)) hon rfl ?_
    rw [fdbForget_all s.blk]
    exact ⟨rfl, fdbFilter_mct s.blk _, fun _ ha => fdbFilter_rd_ne s.blk _ (List.ne_of_not_mem_cons ha), fun _ _ => mem_fdbFilter_fdb⟩

end Sys2Proof.Machine
end

section
/-!
The worker arbiter (R298): a claim heard from one manager leaves what is kept of the other, and a claim that ages out forgets its own
source alone. The two sources, 0 for A and 1 for B, are the values of WHICH.
-/
namespace Sys2Proof.Machine

/-- A field apart from the one written stays. -/
theorem Blk.fld_setFld_apart (b : Blk) (a : Nat) {hi lo h l : Nat} (v : Nat) (hl : lo ≤ hi) (hw : hi < 32) (hapart : h < lo ∨ hi < l) :
    (b.setFld a hi lo v).fld a h l = b.fld a h l := by
  rw [Blk.fld, Blk.rdN_setFld_self b a hi lo v hl hw, Blk.fld]
  rcases hapart with hbelow | habove
  · exact bits_putBits_below _ _ _ _ _ _ hl hbelow
  · exact bits_putBits_above _ _ _ _ _ _ hl habove

/-- A field of one bit is 1 where the bit is set. -/
theorem bits_toNat_single (v : Word) (i : Nat) : bits v.toNat i i = if v.getLsbD i then 1 else 0 := by
  rw [← bit_toNat, bit_eq_bits]
  have hlt : bits v.toNat i i < 2 := by simpa using bits_lt v.toNat i i
  split
  next h => exact beq_iff_eq.mp h
  next h => exact Nat.lt_one_iff.mp (Nat.lt_of_le_of_ne (Nat.le_of_lt_succ hlt) (by simpa using h))

/-! ### A claim is heard -/

section
variable (v : Nat) (b : Blk)

theorem claimSource_lt : bits v 16 16 < 2 := bits_lt v 16 16

theorem pairWkrHeard_rd_ne {a : Nat} (h : a ∉ [Reg.PAIR_WKR_CLAIM, Reg.PAIR_WKR_STATUS]) : (pairWkrHeard v b).rd a = b.rd a := by
  obtain ⟨hclaim, hstatus⟩ : a ≠ Reg.PAIR_WKR_CLAIM ∧ a ≠ Reg.PAIR_WKR_STATUS := by simpa using h
  rw [pairWkrHeard, Blk.rd_setFlag_ne _ _ _ hstatus, Blk.rd_setFld_ne _ _ _ _ hclaim]
  rfl

/-- The source's half of PAIR_WKR_CLAIM is the one field of that register that is written. -/
theorem pairWkrHeard_rd_claim : (pairWkrHeard v b).rd Reg.PAIR_WKR_CLAIM =
    (b.setFld Reg.PAIR_WKR_CLAIM (16 * bits v 16 16 + 15) (16 * bits v 16 16) (bits v 15 0)).rd Reg.PAIR_WKR_CLAIM :=
  Blk.rd_setFlag_ne _ _ _ (by decide)

/-- The source's heard bit is the one bit of PAIR_WKR_STATUS that is written. -/
theorem pairWkrHeard_flag_status (j : Nat) :
    (pairWkrHeard v b).flag Reg.PAIR_WKR_STATUS j = if j = 1 + bits v 16 16 then true else b.flag Reg.PAIR_WKR_STATUS j := by
  have hlt := claimSource_lt v
  rw [pairWkrHeard, Blk.flag_setFlag _ _ j true (by omega), Blk.flag_congr (Blk.rd_setFld_ne _ _ _ _ (by decide))]
  rfl

theorem pairWkrHeard_claim_self :
    (pairWkrHeard v b).fld Reg.PAIR_WKR_CLAIM (16 * bits v 16 16 + 15) (16 * bits v 16 16) = bits v 15 0 := by
  have hlt := claimSource_lt v
  rw [Blk.fld_congr (pairWkrHeard_rd_claim v b), Blk.fld_setFld_self _ _ _ _ _ (by omega) (by omega),
    show 16 * bits v 16 16 + 15 + 1 - 16 * bits v 16 16 = 16 by omega]
  exact Nat.mod_eq_of_lt (bits_lt v 15 0)

theorem pairWkrHeard_claim_other :
    (pairWkrHeard v b).fld Reg.PAIR_WKR_CLAIM (31 - 16 * bits v 16 16) (16 - 16 * bits v 16 16) =
      b.fld Reg.PAIR_WKR_CLAIM (31 - 16 * bits v 16 16) (16 - 16 * bits v 16 16) := by
  have hlt := claimSource_lt v
  rw [Blk.fld_congr (pairWkrHeard_rd_claim v b), Blk.fld_setFld_apart _ _ _ (by omega) (by omega) (by omega)]

theorem pairWkrHeard_heard_self : (pairWkrHeard v b).flag Reg.PAIR_WKR_STATUS (1 + bits v 16 16) = true :=
  (pairWkrHeard_flag_status v b _).trans (if_pos rfl)

theorem pairWkrHeard_heard_other :
    (pairWkrHeard v b).flag Reg.PAIR_WKR_STATUS (2 - bits v 16 16) = b.flag Reg.PAIR_WKR_STATUS (2 - bits v 16 16) := by
  have hlt := claimSource_lt v
  exact (pairWkrHeard_flag_status v b _).trans (if_neg (by omega))

theorem pairWkrHeard_wkr : (pairWkrHeard v b).pair.wkr = Tab.upd none b.pair.wkr (bits v 16 16) (some b.pair.frames) := rfl

theorem pairWkrHeard_wkr_self : Tab.at none (pairWkrHeard v b).pair.wkr (bits v 16 16) = some b.pair.frames := by
  rw [pairWkrHeard_wkr, Tab.at_upd_self]

theorem pairWkrHeard_wkr_other :
    Tab.at none (pairWkrHeard v b).pair.wkr (1 - bits v 16 16) = Tab.at none b.pair.wkr (1 - bits v 16 16) := by
  rw [pairWkrHeard_wkr, Tab.at_upd_ne _ _ _ (by omega)]

end

/-! ### A claim ages out -/

/-- The frame count of source `w`'s last claim goes, and with it its heard bit (`wkrTimeout_of_due`). -/
def wkrForget (w : Nat) (b : Blk) : Blk :=
  (b.setPair { b.pair with wkr := Tab.upd none b.pair.wkr w none }).setFlag Reg.PAIR_WKR_STATUS (1 + w) false

section
variable {w : Nat} {b : Blk}

theorem wkrTimeout_of_due {f : Nat} (hlast : Tab.at none b.pair.wkr w = some f) (hdue : f + b.fld Reg.PAIR_TIMING 31 24 ≤ b.pair.frames) :
    wkrTimeout w b = wkrForget w b := if_pos (by simpa [hlast] using hdue)

theorem wkrTimeout_of_not_due
    (hearly : ∀ f, Tab.at none b.pair.wkr w = some f → ¬ f + b.fld Reg.PAIR_TIMING 31 24 ≤ b.pair.frames) : wkrTimeout w b = b := by
  refine if_neg fun hany => ?_
  obtain ⟨f, hlast, hdue⟩ := (Option.any_eq_true _ _).mp hany
  exact hearly f hlast (of_decide_eq_true hdue)

end

section
variable (w : Nat) (b : Blk)

theorem wkrForget_rd_ne {a : Nat} (h : a ≠ Reg.PAIR_WKR_STATUS) : (wkrForget w b).rd a = b.rd a := Blk.rd_setFlag_ne _ _ _ h

theorem wkrForget_heard (hw : w < 2) : (wkrForget w b).flag Reg.PAIR_WKR_STATUS (1 + w) = false :=
  Blk.flag_setFlag_self _ _ _ false (by omega)

theorem wkrForget_wkr_self : Tab.at none (wkrForget w b).pair.wkr w = none := Tab.at_upd_self none b.pair.wkr w none

theorem wkrForget_wkr_other : Tab.at none (wkrForget w b).pair.wkr (1 - w) = Tab.at none b.pair.wkr (1 - w) :=
  Tab.at_upd_ne none b.pair.wkr none (by omega)

end

theorem b2n_lt_two (x : Bool) : b2n x < 2 := by cases x <;> decide

/-- Settles O28: the claim goes to the half, the heard bit and the frame count of the source that WHICH names, and the other source's lie
apart from them; the timeout acts only on a source whose last claim is WKR_TIMEOUT frames old. -/
theorem workerArbiter : Obligations.WorkerArbiter := by
  intro s hon
  refine ⟨fun v => ?heard, fun srcB => ⟨fun hearly => ?early, fun f hlast hdue => ?due⟩⟩
  case heard =>
    rw [← bits_toNat_single v 16]
    exact answers_onBlk (f := pairWkrHeard v.toNat) hon rfl ⟨rfl, fun _ ha => pairWkrHeard_rd_ne _ _ ha, pairWkrHeard_claim_self _ _,
      pairWkrHeard_claim_other _ _, pairWkrHeard_heard_self _ _, pairWkrHeard_heard_other _ _, pairWkrHeard_wkr_self _ _,
      pairWkrHeard_wkr_other _ _⟩
  case early => exact exec_onBlk_unchanged (f := wkrTimeout (b2n srcB)) hon rfl (wkrTimeout_of_not_due hearly)
  case due =>
    refine answers_onBlk (f := wkrTimeout (b2n srcB)) hon rfl ?_
    rw [wkrTimeout_of_due hlast hdue]
    exact ⟨rfl, fun _ ha => wkrForget_rd_ne _ _ (List.ne_of_not_mem_cons ha), wkrForget_heard _ _ (b2n_lt_two srcB),
      wkrForget_wkr_self _ _, wkrForget_wkr_other _ _⟩

end Sys2Proof.Machine
end

section
/-!
Command packets (R304 to R317): a row of an opcode is a packet that arrives; what the checks of R307 answer, one branch after another.
-/
namespace Sys2Proof.Machine

/-! ### Checks 7 to 11 and the action -/

/-- The test of check 8 (R307) in the model's words and in the claims'. -/
theorem any_domain_off (ds : List Nat) (b : Blk) : ds.any (fun d => !domOn b d) = !ds.all (domOn b) := List.not_all_eq_any_not.symm

section
variable {c : Cmd} {p : List Byte} {m : Mem} {b : Blk} (x : Asker)

theorem cmdRun_of_not_fits (hfits : c.fits p = false) : cmdRun c x p m b = { blk := b, reply := some (Status.badLength, []) } := by
  simp [cmdRun, hfits, endsWith]

variable (hfits : c.fits p = true)
include hfits

theorem cmdRun_of_domain_off (hdom : (c.domains p).all (domOn b) = false) :
    cmdRun c x p m b = { blk := b, reply := some (Status.domainOff, []) } := by
  simp [cmdRun, any_domain_off, hfits, hdom, endsWith]

variable (hdom : (c.domains p).all (domOn b) = true)
include hdom

theorem cmdRun_of_refused {r : Nat × List Byte} (hpermit : c.permit p m b = some r) :
    cmdRun c x p m b = { blk := b, reply := some r } := by
  simp [cmdRun, any_domain_off, hfits, hdom, hpermit]

theorem cmdRun_of_permitted (hpermit : c.permit p m b = none) : cmdRun c x p m b = c.act x p m b := by
  simp [cmdRun, any_domain_off, hfits, hdom, hpermit]

end

/-! ### Checks 4 to 6 -/

section
variable {find : Nat → Option Cmd} {path : Path} {p : List Byte} {b : Blk} (x : Asker) (m : Mem)

theorem pktServe_of_bad_version (hver : leAt p 1 1 ≠ 1) : pktServe find path x p m b = reply x Status.badOpcode [] (b, []) := by
  simp [pktServe, hver]

variable (hver : leAt p 1 1 = 1)
include hver

theorem pktServe_of_not_mine (hmine : pktIsMine b path p = false) (hrelay : (pktRelay p && b.firm.role == 1) = false) :
    pktServe find path x p m b = (cmdError b, []) := by
  simp [pktServe, hver, hmine, hrelay]

variable (hmine : pktIsMine b path p = true)
include hmine

theorem pktServe_of_unknown (hfind : find (pktOpcode p) = none) :
    pktServe find path x p m b = reply x Status.badOpcode [] (b, []) := by
  simp [pktServe, hver, hmine, hfind]

theorem pktServe_of_found {c : Cmd} (hfind : find (pktOpcode p) = some c) :
    pktServe find path x p m b = pktDone c path x p (cmdRun c x (pktPayload p) m b) := by
  simp [pktServe, hver, hmine, hfind]

end

/-! ### Checks 1 to 3 -/

theorem earlyFail_mailbox (x : Asker) (status : Nat) (b : Blk) : earlyFail .mailbox x status b = reply x status [] (b, []) := rfl

theorem earlyFail_of_ne_mailbox {path : Path} (x : Asker) (status : Nat) (b : Blk) (h : path ≠ .mailbox) :
    earlyFail path x status b = (cmdError b, []) := if_neg h

section
variable {find : Nat → Option Cmd} {path : Path} {p : List Byte} {b : Blk} (back : ReplyTo) (m : Mem)

theorem pktCheck_of_bad_form (hform : pktForm (pathLimit b path p) p = false) :
    pktCheck find path back p m b = earlyFail path (askerOf back p false) Status.badLength b := by
  simp [pktCheck, hform]

variable (hform : pktForm (pathLimit b path p) p = true) (hreply : pktReply p = false)
include hform hreply

theorem pktCheck_of_no_tag (hauth : pktAuth p = false) (hmust : authMust b path p = true) :
    pktCheck find path back p m b = earlyFail path (askerOf back p false) Status.authFail b := by
  simp [pktCheck, hform, hreply, hauth, hmust]

theorem pktCheck_of_plain (hauth : pktAuth p = false) (hmust : authMust b path p = false) :
    pktCheck find path back p m b = pktServe find path (askerOf back p false) p m b := by
  simp [pktCheck, hform, hreply, hauth, hmust]

variable (hauth : pktAuth p = true)
include hauth

theorem pktCheck_of_bad_tag (htag : pktTagOk b p = false) :
    pktCheck find path back p m b = earlyFail path (askerOf back p false) Status.authFail b := by
  simp [pktCheck, hform, hreply, hauth, htag]

variable (htag : pktTagOk b p = true)
include htag

theorem pktCheck_of_stale (hlook : replayLook b (pktSource p) (pktSlot p) (pktNonce p) = .stale) :
    pktCheck find path back p m b = earlyFail path (askerOf back p true) Status.replayed b := by
  simp [pktCheck, hform, hreply, hauth, htag, hlook]

theorem pktCheck_of_full (hlook : replayLook b (pktSource p) (pktSlot p) (pktNonce p) = .full) (hmine : pktIsMine b path p = true) :
    pktCheck find path back p m b = reply (askerOf back p true) Status.noResource [] (b, []) := by
  simp [pktCheck, hform, hreply, hauth, htag, hlook, hmine]

theorem pktCheck_of_fresh (hlook : replayLook b (pktSource p) (pktSlot p) (pktNonce p) = .fresh) :
    pktCheck find path back p m b =
      pktServe find path (askerOf back p true) p m (replayRaise b (pktSource p) (pktSlot p) (pktNonce p)) := by
  simp [pktCheck, hform, hreply, hauth, htag, hlook]

end

/-- A packet that passes the first three checks is served, by the asker and on the block that these leave. -/
theorem pktCheck_of_clears {find : Nat → Option Cmd} {path : Path} {back : ReplyTo} {p : List Byte} {b b1 : Blk} {x : Asker} (m : Mem)
    (hclears : Clears path back p b x b1) : pktCheck find path back p m b = pktServe find path x p m b1 := by
  obtain ⟨hform, hreply, ⟨hauth, hmust, rfl, rfl⟩ | ⟨hauth, htag, hlook, rfl, rfl⟩⟩ := hclears
  · exact pktCheck_of_plain back m hform hreply hauth hmust
  · exact pktCheck_of_fresh back m hform hreply hauth htag hlook

/-! ### The packet arrives -/

/-- The row `i` is the arrival of a packet over `via` whose opcode is looked up by `find`. -/
def Serves (i : Instr) (via : Via) (find : Nat → Option Cmd) : Prop := ∀ s, exec i s = inFw (onMem (packetIn find via)) s

theorem serves_commandPacket (via : Via) : Serves (.commandPacket via) via findCmd := fun _ => rfl

theorem serves_of_packetCmd {i : Instr} {c : Cmd} {via : Via} (h : packetCmd i = some (c, via)) :
    Serves i via (fun n => if n = c.opcode then some c else findCmd n) := fun s => packetCmd_exec i c via s h

/-- A request that its transport delivers is checked on the block that taking it leaves; the cells of the taking come first. -/
theorem pktArrive_of_delivers {via : Via} {m : Mem} {b b0 : Blk} {path : Path} {back : ReplyTo} {p : List Byte} {cs : List Host.Cell}
    (find : Nat → Option Cmd) (hdel : Delivers via m b path back p b0 cs) : pktArrive find via m b =
      ((pktCheck find path back p m b0).1, cs ++ (pktCheck find path back p m b0).2) := by
  cases via with
  | ring =>
    obtain ⟨f, mac, ip, port, hnext, hudp, hreq, rfl, rfl, hgive⟩ := hdel
    simp [pktArrive, ringTake, hnext, hudp, hreq, hgive]
  | mailbox k host =>
    obtain ⟨hfull, hroom, rfl, rfl, rfl, addr, max, htake, rfl⟩ := hdel
    simp [pktArrive, hfull, Nat.not_le.mpr hroom, htake]

/-- The row `i` ends with what `r` leaves of a packet: the block with its interrupts settled, and its cells after `cs`, those of the
taking. -/
def PacketEnds (i : Instr) (s : State) (cs : List Host.Cell) (r : Blk × List Host.Cell) : Prop :=
  exec i s = .next { s with blk := intSettle r.1, mem := Mem.write s.mem (cs ++ r.2) }

section
variable {i : Instr} {via : Via} {find : Nat → Option Cmd} (hserves : Serves i via find) {s : State}
include hserves

theorem Serves.exec_idle (hfw : fwTasks s.blk = false) : exec i s = .next s := (hserves s).trans (inFw_off hfw)

variable {path : Path} {back : ReplyTo} {p : List Byte} {b0 : Blk} {cs : List Host.Cell} (hfw : fwTasks s.blk = true)
  (hdel : Delivers via s.mem s.blk path back p b0 cs)
include hfw hdel

theorem Serves.ends {r : Blk × List Host.Cell} (hcheck : pktCheck find path back p s.mem b0 = r) : PacketEnds i s cs r := by
  rw [PacketEnds, hserves s, inFw_on hfw, onMem_eq, packetIn, pktArrive_of_delivers find hdel, hcheck]

/-- A packet that fails check 1, 2 or 3 is replied to over a mailbox, and else counted (R310). -/
theorem Serves.ends_early {x : Asker} {status : Nat} (hcheck : pktCheck find path back p s.mem b0 = earlyFail path x status b0) :
    (path = .mailbox → PacketEnds i s cs (reply x status [] (b0, []))) ∧ (path ≠ .mailbox → PacketEnds i s cs (cmdError b0, [])) := by
  refine ⟨fun hpath => hserves.ends hfw hdel ?_, fun hpath => hserves.ends hfw hdel ?_⟩
  · rw [hcheck, hpath, earlyFail_mailbox]
  · rw [hcheck, earlyFail_of_ne_mailbox x status b0 hpath]

end

/-- Settles O40: the row's own look-up, and that of COMMAND_PACKET, finds the opcode of the packet; what its action leaves is relayed and
replied to. -/
theorem packetRows : Obligations.PacketRows := by
  intro s i c via path back p b0 b1 cs x hrow hfw hdel hclears hver hmine hopcode hfits hdom hpermit
  obtain ⟨find, hserves, hfind⟩ : ∃ find, Serves i via find ∧ find (pktOpcode p) = some c := by
    rcases hrow with hcmd | ⟨rfl, hfind⟩
    · exact ⟨_, serves_of_packetCmd hcmd, if_pos hopcode⟩
    · exact ⟨findCmd, serves_commandPacket via, hfind⟩
  refine hserves.ends hfw hdel ?_
  rw [pktCheck_of_clears s.mem hclears, pktServe_of_found x s.mem hver hmine hfind, cmdRun_of_permitted x hfits hdom hpermit]

/-- Settles O41: each failed check has its branch of the model's checks; of checks 1 to 3 only a full replay table is
replied to on every transport (log entry 57). -/
theorem packetRefused : Obligations.PacketRefused := by
  refine ⟨fun c x p m b => ⟨cmdRun_of_not_fits x, cmdRun_of_domain_off x,
    fun _ hfits hdom hpermit => cmdRun_of_refused x hfits hdom hpermit⟩, fun s i via hrow => ?_⟩
  obtain ⟨find, hserves, hfind⟩ : ∃ find, Serves i via find ∧ (i = .commandPacket via → find = findCmd) := by
    rcases hrow with rfl | ⟨c, hcmd⟩
    · exact ⟨findCmd, serves_commandPacket via, fun _ => rfl⟩
    · exact ⟨_, serves_of_packetCmd hcmd, fun hi => by subst hi; cases hcmd⟩
  refine ⟨hserves.exec_idle, fun path back p b0 cs hfw hdel hreply => ?_⟩
  refine ⟨fun hform => hserves.ends_early hfw hdel (pktCheck_of_bad_form back s.mem hform),
    fun hform hauth hmust => hserves.ends_early hfw hdel (pktCheck_of_no_tag back s.mem hform hreply hauth hmust),
    fun hform hauth htag => hserves.ends_early hfw hdel (pktCheck_of_bad_tag back s.mem hform hreply hauth htag),
    fun hform ⟨hauth, htag⟩ hlook => hserves.ends_early hfw hdel (pktCheck_of_stale back s.mem hform hreply hauth htag hlook),
    fun hform ⟨hauth, htag⟩ hlook hmine => hserves.ends hfw hdel (pktCheck_of_full back s.mem hform hreply hauth htag hlook hmine),
    fun x b1 hclears => ?_⟩
  have hserved := pktCheck_of_clears (find := find) s.mem hclears
  exact ⟨fun hver => hserves.ends hfw hdel (hserved.trans (pktServe_of_bad_version x s.mem hver)),
    fun hver hmine hrelay => hserves.ends hfw hdel (hserved.trans (pktServe_of_not_mine x s.mem hver hmine hrelay)),
    fun hver hmine hi hnone => hserves.ends hfw hdel (hserved.trans (pktServe_of_unknown x s.mem hver hmine (by rw [hfind hi, hnone])))⟩

end Sys2Proof.Machine
end

section
/-!
Locks and doorbells (R323, R324): what a read, a write and a break of a lock do in each case.
-/
namespace Sys2Proof.Machine

theorem Blk.rdN_wrN_self (b : Blk) (a : Nat) {n : Nat} (h : n < 2 ^ 32) : (b.wrN a n).rdN a = n := by
  rw [Blk.rdN, Blk.rd_wrN_self, BitVec.toNat_ofNat, Nat.mod_eq_of_lt h]

/-- One count is a change of its register alone. -/
theorem onlyRegs_count (s : State) (a n : Nat) : OnlyRegs s { s with blk := s.blk.count a n } [a] [] := onlyRegs_wr_quiet s a _

/-- Bits raised in a status register change that register and the note of what hardware has set alone. -/
theorem onlyRegs_raise (s : State) (a : Nat) (v : Word) : OnlyRegs s { s with blk := s.blk.raise a v } [a] [] := by
  refine ⟨?_, fun c hc => Blk.rd_wr_ne _ _ (List.ne_of_not_mem_cons hc)⟩
  rw [List.append_nil]
  rfl

/-- A command of a requester that reaches its domain, whose effect is `f` on the block, answers the state after `f`. -/
theorem answers_onBlk_by {d : Nat} {who : Requester} {f : Blk → Blk} {s : State} {P : State → Prop} {i : Instr}
    (h : domFor s.blk d who = true) (he : exec i s = inDomBy d who (onBlk f) s) (hp : P { s with blk := f s.blk }) : Answers i s P :=
  ⟨_, by rw [he, inDomBy_on h]; rfl, hp⟩

/-- A requester reaches a domain only where the domain runs. -/
theorem domOn_of_domFor {b : Blk} {d : Nat} {who : Requester} (h : domFor b d who = true) : domOn b d = true := by
  rw [domFor, Bool.and_eq_true] at h
  exact h.1

theorem reqId_eq_ownerId (who : Requester) : reqId who = ownerId who := by cases who <;> rfl

theorem ownerId_lt (who : Requester) : ownerId who < 2 ^ 32 := by cases who <;> decide

/-! ### A read -/

/-- `x` is a taking of lock `n` in this clock by its owner, whom `who` precedes (R324). -/
abbrev lockBefore (n : Nat) (who : Requester) (b : Blk) (x : LockWin) : Prop :=
  x.clock = b.now ∧ x.lock = n ∧ x.owner = b.fld (Reg.MBX_LOCK_n n) 2 0 ∧ ownerId who < b.fld (Reg.MBX_LOCK_n n) 2 0

/-- Lock `n` goes to `who`, who finds it free (`lockRead_free`). -/
def lockTaken (n : Nat) (who : Requester) (b : Blk) : Blk :=
  { b with lockWon := ⟨b.now, n, reqId who, b.out.length⟩ :: b.lockWon.filter (fun x => x.clock == b.now) }.wrN (Reg.MBX_LOCK_n n)
    (ownerId who)

/-- Lock `n` goes to `who` from the owner of the taking `x`, whom `who` precedes (`lockRead_before`). -/
def lockPassed (n : Nat) (who : Requester) (x : LockWin) (b : Blk) : Blk :=
  (lockYield n (ownerId who) x b).wrN (Reg.MBX_LOCK_n n) (ownerId who)

section
variable {n : Nat} {who : Requester} {b : Blk}

theorem lockRead_free (hfree : b.fld (Reg.MBX_LOCK_n n) 2 0 = 0) : lockRead n who b = (0, lockTaken n who b) := by
  rw [lockTaken, ← reqId_eq_ownerId]
  exact if_pos hfree

variable (hheld : b.fld (Reg.MBX_LOCK_n n) 2 0 ≠ 0)
include hheld

/-- A read of a held lock turns on the first taking of this clock that the reader precedes. -/
theorem lockRead_held (r : Option LockWin) (hfind : b.lockWon.find? (fun x => decide (lockBefore n who b x)) = r) :
    lockRead n who b = r.elim (b.fld (Reg.MBX_LOCK_n n) 2 0, b) (fun x => (0, lockPassed n who x b)) := by
  have hwon : (b.lockWon.filter (fun x => x.clock == b.now)).find? (fun x => x.lock == n && x.owner == b.fld (Reg.MBX_LOCK_n n) 2 0 &&
      decide (reqId who < b.fld (Reg.MBX_LOCK_n n) 2 0)) = r := by
    rw [List.find?_filter, ← hfind, reqId_eq_ownerId]
    simp [lockBefore, and_assoc]
  rw [lockRead, if_neg hheld, hwon]
  cases r with
  | none => rfl
  | some x => rw [reqId_eq_ownerId]; rfl

theorem lockRead_kept (hfirst : ∀ x ∈ b.lockWon, ¬ lockBefore n who b x) : lockRead n who b = (b.fld (Reg.MBX_LOCK_n n) 2 0, b) :=
  lockRead_held hheld none (List.find?_eq_none.mpr fun x hx => by simpa using hfirst x hx)

theorem lockRead_before {x : LockWin} (hfind : b.lockWon.find? (fun x => decide (lockBefore n who b x)) = some x) :
    lockRead n who b = (0, lockPassed n who x b) := lockRead_held hheld (some x) hfind

end

section
variable (n : Nat) (who : Requester) (b : Blk)

theorem lockTaken_rdN_self : (lockTaken n who b).rdN (Reg.MBX_LOCK_n n) = ownerId who := Blk.rdN_wrN_self _ _ (ownerId_lt who)

theorem lockTaken_rd_ne {a : Nat} (h : a ≠ Reg.MBX_LOCK_n n) : (lockTaken n who b).rd a = b.rd a := Blk.rd_wrN_ne _ _ h

theorem lockPassed_rdN_self (x : LockWin) : (lockPassed n who x b).rdN (Reg.MBX_LOCK_n n) = ownerId who :=
  Blk.rdN_wrN_self _ _ (ownerId_lt who)

theorem lockPassed_rd_ne (x : LockWin) {a : Nat} (h : a ≠ Reg.MBX_LOCK_n n) : (lockPassed n who x b).rd a = b.rd a := Blk.rd_wrN_ne _ _ h

theorem lockPassed_out (x : LockWin) :
    (lockPassed n who x b).out = b.out.take x.before ++ (b.out.drop x.before).map (lockTell n (ownerId who)) := rfl

end

theorem answers_lockAcquire {n : Fin 32} {who : Requester} {s : State} {v : Nat} {b : Blk} {P : State → Prop}
    (hon : domFor s.blk 1 who = true) (hread : lockRead n who s.blk = (v, b))
    (hp : P { s with blk := b.emit (.readDone who (Reg.MBX_LOCK_n n) (BitVec.ofNat 32 v) false) }) : Answers (.lockAcquire n who) s P := by
  refine ⟨_, inDomRead_on (act := onBlk _) hon, ?_⟩
  simpa only [hread] using hp

/-! ### A write and a break -/

section
variable {n : Nat} {who : Requester} {b : Blk}

theorem lockWrite_freed (howner : b.fld (Reg.MBX_LOCK_n n) 2 0 = ownerId who) :
    lockWrite n who 0 b = b.wr (Reg.MBX_LOCK_n n) 0#32 := by
  simp [lockWrite, howner, reqId_eq_ownerId]

theorem lockWrite_ignored (v : Nat) (hother : b.fld (Reg.MBX_LOCK_n n) 2 0 ≠ ownerId who) :
    lockWrite n who v b = b.count Reg.MBX_LOCK_VIOL := by
  simp [lockWrite, hother, reqId_eq_ownerId]

theorem lockBreak_cc0 (v : Nat) (b : Blk) : lockBreak .cc0 v b = b.wr (Reg.MBX_LOCK_n (v % 32)) 0#32 := rfl

theorem lockBreak_of_ne_cc0 (v : Nat) (h : who ≠ .cc0) : lockBreak who v b = b := if_neg h

end

/-- Settles O30: a read takes a free lock, takes it back from a requester that comes later, or tells the owner; a write or break changes
one register. -/
theorem locksAndDoorbells : Obligations.LocksAndDoorbells := by
  intro s n who w hon lock owner noted after
  have hcore : domOn s.blk 1 = true := domOn_of_domFor hon
  refine ⟨fun hfree => ?free, fun hheld hfirst => ?kept, fun x hheld hx => ?before, fun howner hw => ?freed, fun hother => ?ignored,
    ?broken, fun hother => ?unbroken, ?raised⟩
  case free =>
    exact answers_lockAcquire hon (lockRead_free hfree)
      ⟨⟨rfl, fun a ha => lockTaken_rd_ne n who s.blk (List.ne_of_not_mem_cons ha)⟩, lockTaken_rdN_self n who s.blk⟩
  case kept => exact answers_lockAcquire hon (lockRead_kept hheld hfirst) (onlyRegs_out s _)
  case before =>
    exact answers_lockAcquire hon (lockRead_before hheld hx)
      ⟨rfl, fun a ha => lockPassed_rd_ne n who s.blk x (List.ne_of_not_mem_cons ha), lockPassed_rdN_self n who s.blk x,
        congrArg (· ++ [_]) (lockPassed_out n who s.blk x)⟩
  case freed =>
    subst hw
    refine answers_onBlk_by (f := lockWrite n who 0) hon rfl ?_
    rw [lockWrite_freed howner]
    exact ⟨onlyRegs_wr_quiet s lock 0#32, Blk.rd_wr_self s.blk lock 0#32⟩
  case ignored =>
    refine answers_onBlk_by (f := lockWrite n who w.toNat) hon rfl ?_
    rw [lockWrite_ignored w.toNat hother]
    exact ⟨onlyRegs_count s _ 1, by rw [Blk.rdN_count_self, sat32_eq_min]⟩
  case broken =>
    refine answers_onBlk_by (f := lockBreak .cc0 w.toNat) (domFor_on hcore (shutOut_of_ne_debug s.blk (by decide))) rfl ?_
    rw [lockBreak_cc0]
    exact ⟨onlyRegs_wr_quiet s _ 0#32, Blk.rd_wr_self s.blk _ 0#32⟩
  case unbroken =>
    have hexec : exec (.lockBreak who w) s = .next { s with blk := lockBreak who w.toNat s.blk } := inDomBy_on (act := onBlk _) hon
    rw [hexec, lockBreak_of_ne_cc0 _ hother]
  case raised =>
    exact answers_onBlk (f := fun b => b.raise Reg.DBL_STATUS w) hcore rfl
      ⟨onlyRegs_raise s _ w, Blk.rd_wr_self _ Reg.DBL_STATUS (s.blk.rd Reg.DBL_STATUS ||| w)⟩

end Sys2Proof.Machine
end

section
/-!
Mailboxes 0 to 11 (R321, Table 12-18): what a notice posted, refused and taken leaves in the mailbox's registers, and what a post and an
acknowledgement answer to each requester.
-/
namespace Sys2Proof.Machine

theorem Blk.rdN_congr {b c : Blk} {a : Nat} (h : c.rd a = b.rd a) : c.rdN a = b.rdN a := congrArg BitVec.toNat h

/-! ### Only registers change -/

/-- `c` is `b` but for registers and the note of which status bits hardware has set (R7). -/
def SameButRegs (b c : Blk) : Prop := ∃ regs raised at', c = { b with regs := regs, raised := raised, raisedAt := at' }

theorem SameButRegs.trans {b c d : Blk} (hc : SameButRegs b c) (hd : SameButRegs c d) : SameButRegs b d := by
  obtain ⟨_, _, _, rfl⟩ := hc
  obtain ⟨regs, raised, at', rfl⟩ := hd
  exact ⟨regs, raised, at', rfl⟩

theorem sameButRegs_wrN (b : Blk) (a n : Nat) : SameButRegs b (b.wrN a n) := ⟨_, _, _, rfl⟩

theorem sameButRegs_irq (b : Blk) (a i : Nat) : SameButRegs b (b.irq a i) := ⟨_, _, _, rfl⟩

/-- Where only registers have changed and `o` has then left, the claims' frame holds of the registers that changed. -/
theorem SameButRegs.onlyRegs_emit {s : State} {c : Blk} (hc : SameButRegs s.blk c) {as : List Nat} (o : Output)
    (hkept : ∀ a, a ∉ as → c.rd a = s.blk.rd a) : OnlyRegs s { s with blk := c.emit o } as [o] := by
  refine ⟨?_, hkept⟩
  obtain ⟨regs, raised, at', rfl⟩ := hc
  rfl

/-! ### The registers of a mailbox lie apart, below those that all mailboxes share -/

theorem mbxReg_ne {m c d : Nat} (h : c ≠ d) : c + 0x20 * m ≠ d + 0x20 * m := fun he => h (Nat.add_right_cancel he)

theorem mbxReg_ne_shared {m : Fin 16} {c d : Nat} (h : c + 0x20 * 15 < d) : c + 0x20 * m.val ≠ d := by omega

theorem mbxShared_ne {m : Fin 16} {c d : Nat} (h : c + 0x20 * 15 < d) : d ≠ c + 0x20 * m.val := by omega

/-! ### Who posts to a mailbox and who takes from it (Table 12-18) -/

section
variable {m : Fin 16} (hm : m.val < 12) (who : Requester)
include hm

theorem mbxSender_iff : mbxSender m who = true ↔
    if m.val < 4 then who = .pcie ∨ who = .qspi else if 10 ≤ m.val then who = .cc1 else who = .cc0 := by
  revert m; cases who <;> decide

theorem mbxReceiver_iff : mbxReceiver m who = true ↔
    if m.val < 4 ∨ 10 ≤ m.val then who = .cc0 else if m.val < 8 then who = .pcie ∨ who = .qspi else who = .cc1 := by
  revert m; cases who <;> decide

theorem mbxDomain_eq : mbxDomain m = if 4 ≤ m.val ∧ m.val < 8 then 9 else 1 := by decide +revert

end

/-! ### A notice is posted -/

section
variable (b : Blk) (m : Fin 16) (tag : Nat)

theorem mbxFill_rd_ne {a : Nat} (h : a ∉ [Reg.MBX_m_TAG m, Reg.MBX_m_STATUS m, Reg.MBX_m_POSTS m, Reg.MBX_INT_STATUS]) :
    (mbxFill b m tag).rd a = b.rd a := by
  obtain ⟨htag, hstatus, hposts, hint⟩ :
      a ≠ Reg.MBX_m_TAG m ∧ a ≠ Reg.MBX_m_STATUS m ∧ a ≠ Reg.MBX_m_POSTS m ∧ a ≠ Reg.MBX_INT_STATUS := by simpa using h
  rw [mbxFill, Blk.rd_irq_ne _ _ hint, Blk.rd_count_ne _ _ hposts, Blk.rd_setFlag_ne _ _ _ hstatus, Blk.rd_wrN_ne _ _ htag]

theorem mbxFill_out : (mbxFill b m tag).out = b.out := by rw [mbxFill, Blk.irq_out, Blk.count_out, Blk.setFlag_out, Blk.wrN_out]

theorem mbxFill_tag : (mbxFill b m tag).rdN (Reg.MBX_m_TAG m) = tag % 65536 := by
  have hwritten : (mbxFill b m tag).rd (Reg.MBX_m_TAG m) = (b.wrN (Reg.MBX_m_TAG m) (tag % 65536)).rd (Reg.MBX_m_TAG m) := by
    rw [mbxFill, Blk.rd_irq_ne _ _ (mbxReg_ne_shared (by decide)), Blk.rd_count_ne _ _ (mbxReg_ne (by decide)),
      Blk.rd_setFlag_ne _ _ _ (mbxReg_ne (by decide))]
  rw [Blk.rdN_congr hwritten, Blk.rdN_wrN_self _ _ (by omega)]

theorem mbxFill_status : (mbxFill b m tag).rdN (Reg.MBX_m_STATUS m) = putBits (b.rdN (Reg.MBX_m_STATUS m)) 0 0 1 := by
  have hset : (mbxFill b m tag).rd (Reg.MBX_m_STATUS m) =
      ((b.wrN (Reg.MBX_m_TAG m) (tag % 65536)).setFlag (Reg.MBX_m_STATUS m) 0 true).rd (Reg.MBX_m_STATUS m) := by
    rw [mbxFill, Blk.rd_irq_ne _ _ (mbxReg_ne_shared (by decide)), Blk.rd_count_ne _ _ (mbxReg_ne (by decide))]
  rw [Blk.rdN_congr hset, Blk.setFlag, Blk.rdN_setFld_self _ _ _ _ _ (by decide) (by decide),
    Blk.rdN_congr (Blk.rd_wrN_ne b _ (mbxReg_ne (by decide))), b2n]
  rfl

theorem mbxFill_posts : (mbxFill b m tag).rdN (Reg.MBX_m_POSTS m) = min (2 ^ 32 - 1) (b.rdN (Reg.MBX_m_POSTS m) + 1) := by
  rw [mbxFill, Blk.rdN_congr (Blk.rd_irq_ne _ _ (mbxReg_ne_shared (by decide))), Blk.rdN_count_self, sat32_eq_min,
    Blk.rdN_congr (Blk.rd_setFlag_ne _ _ _ (mbxReg_ne (by decide))), Blk.rdN_congr (Blk.rd_wrN_ne _ _ (mbxReg_ne (by decide)))]

theorem mbxFill_int : (mbxFill b m tag).rdN Reg.MBX_INT_STATUS = putBits (b.rdN Reg.MBX_INT_STATUS) m m 1 := by
  rw [mbxFill, Blk.rdN_irq_self _ _ _ (by omega), Blk.rdN_congr (Blk.rd_count_ne _ _ (mbxShared_ne (by decide))),
    Blk.rdN_congr (Blk.rd_setFlag_ne _ _ _ (mbxShared_ne (by decide))), Blk.rdN_congr (Blk.rd_wrN_ne _ _ (mbxShared_ne (by decide)))]

/-! ### A full mailbox refuses a post -/

variable (host : List Byte)

theorem mbxOver_rd_ne {a : Nat} (h : a ∉ [Reg.MBX_m_STATUS m, Reg.MBX_ERR_COUNT]) : (mbxOver b m tag host).rd a = b.rd a := by
  obtain ⟨hstatus, herr⟩ : a ≠ Reg.MBX_m_STATUS m ∧ a ≠ Reg.MBX_ERR_COUNT := by simpa using h
  rw [mbxOver, Blk.rd_irq_ne _ _ hstatus, Blk.rd_count_ne _ _ herr]
  rfl

theorem mbxOver_out : (mbxOver b m tag host).out = b.out := by
  rw [mbxOver, Blk.irq_out, Blk.count_out]

theorem mbxOver_status : (mbxOver b m tag host).rdN (Reg.MBX_m_STATUS m) = putBits (b.rdN (Reg.MBX_m_STATUS m)) 2 2 1 := by
  rw [mbxOver, Blk.rdN_irq_self _ _ _ (by decide), Blk.rdN_congr (Blk.rd_count_ne _ _ (mbxReg_ne_shared (by decide)))]
  rfl

theorem mbxOver_err : (mbxOver b m tag host).rdN Reg.MBX_ERR_COUNT = min (2 ^ 32 - 1) (b.rdN Reg.MBX_ERR_COUNT + 1) := by
  rw [mbxOver, Blk.rdN_congr (Blk.rd_irq_ne _ _ (mbxShared_ne (by decide))), Blk.rdN_count_self, sat32_eq_min]
  rfl

end

/-! ### A notice is taken -/

/-- FULL cleared and ACKED set are one field written (Table 12-20). -/
theorem putBits_full_to_acked (n : Nat) : putBits (putBits n 0 0 0) 1 1 1 = putBits n 1 0 2 := by
  simp only [putBits_eq, Nat.le_refl, Nat.zero_le]
  omega

section
variable (b : Blk) (m : Fin 16) (code : Nat)

theorem mbxTake_rd_ne {a : Nat} (h : a ∉ [Reg.MBX_m_STATUS m, Reg.MBX_m_RCODE m, Reg.MBX_INT_STATUS]) :
    (mbxTake b m code).rd a = b.rd a := by
  obtain ⟨hstatus, hrcode, hint⟩ : a ≠ Reg.MBX_m_STATUS m ∧ a ≠ Reg.MBX_m_RCODE m ∧ a ≠ Reg.MBX_INT_STATUS := by simpa using h
  rw [mbxTake, Blk.rd_irq_ne _ _ hint, Blk.rd_wrN_ne _ _ hrcode, Blk.rd_irq_ne _ _ hstatus, Blk.rd_setFlag_ne _ _ _ hstatus]

theorem mbxTake_sameButRegs : SameButRegs b (mbxTake b m code) :=
  (((sameButRegs_wrN b _ _).trans (sameButRegs_irq _ _ 1)).trans (sameButRegs_wrN _ _ _)).trans (sameButRegs_irq _ _ _)

theorem mbxTake_status : (mbxTake b m code).rdN (Reg.MBX_m_STATUS m) = putBits (b.rdN (Reg.MBX_m_STATUS m)) 1 0 2 := by
  rw [mbxTake, Blk.rdN_congr (Blk.rd_irq_ne _ _ (mbxReg_ne_shared (by decide))), Blk.rdN_congr (Blk.rd_wrN_ne _ _ (mbxReg_ne (by decide))),
    Blk.rdN_irq_self _ _ _ (by decide), Blk.setFlag, Blk.rdN_setFld_self _ _ _ _ _ (by decide) (by decide)]
  exact putBits_full_to_acked _

theorem mbxTake_rcode : (mbxTake b m code).rdN (Reg.MBX_m_RCODE m) = code % 65536 := by
  rw [mbxTake, Blk.rdN_congr (Blk.rd_irq_ne _ _ (mbxReg_ne_shared (by decide))), Blk.rdN_wrN_self _ _ (by omega)]

theorem mbxTake_int : (mbxTake b m code).rdN Reg.MBX_INT_STATUS = putBits (b.rdN Reg.MBX_INT_STATUS) (16 + m) (16 + m) 1 := by
  rw [mbxTake, Blk.rdN_irq_self _ _ _ (by omega), Blk.rdN_congr (Blk.rd_wrN_ne _ _ (mbxShared_ne (by decide))),
    Blk.rdN_congr (Blk.rd_irq_ne _ _ (mbxShared_ne (by decide))), Blk.rdN_congr (Blk.rd_setFlag_ne _ _ _ (mbxShared_ne (by decide)))]

end

/-! ### A post that was refused in this clock counts after all (R321) -/

/-- `x` is a post that mailbox `m` has refused in this clock. -/
abbrev LateFor (m : Nat) (b : Blk) (x : LatePost) : Prop := x.clock = b.now ∧ x.mbx = m

theorem decide_lateFor (b : Blk) (m : Nat) (x : LatePost) : (x.clock == b.now && x.mbx == m) = decide (LateFor m b x) :=
  (Bool.decide_and (x.clock = b.now) (x.mbx = m)).symm

theorem mbxLateOf_eq (b : Blk) (m : Nat) : mbxLateOf b m = b.mbxLate.find? (fun x => decide (LateFor m b x)) :=
  congrArg (b.mbxLate.find? ·) (funext (decide_lateFor b m))

theorem mbxLateOf_isSome (b : Blk) (m : Nat) : (mbxLateOf b m).isSome = true ↔ ∃ x ∈ b.mbxLate, LateFor m b x := by
  rw [mbxLateOf_eq, List.find?_isSome]
  simp

/-- The error count without the post `x`: it is taken back, but for one that stays at the limit. -/
def errWithout (b : Blk) (x : LatePost) : Nat :=
  if b.rdN Reg.MBX_ERR_COUNT + 1 = 2 ^ 32 ∧ 2 ^ 32 ≤ x.errs + b.mbxLate.length then b.rdN Reg.MBX_ERR_COUNT
  else b.rdN Reg.MBX_ERR_COUNT - 1

/-- The refused post `x` is none any more: its error is taken back, and OVERRUN where no other post was refused (`mbxLatePost_of_late`). -/
def mbxForgive (b : Blk) (m : Nat) (x : LatePost) : Blk :=
  let c := { b with mbxLate := b.mbxLate.erase x }.wrN Reg.MBX_ERR_COUNT (errWithout b x)
  if (mbxLateOf c m).isSome then c else c.setFlag (Reg.MBX_m_STATUS m) 2 x.was

theorem mbxLatePost_of_none {b : Blk} {m : Nat} (h : ∀ x ∈ b.mbxLate, ¬ LateFor m b x) : mbxLatePost b m = b := by
  have hnone : mbxLateOf b m = none := by
    rw [mbxLateOf_eq, List.find?_eq_none]
    simpa using h
  simp [mbxLatePost, hnone]

theorem mbxLatePost_of_late {b : Blk} {m : Nat} {x : LatePost} (h : b.mbxLate.find? (fun x => decide (LateFor m b x)) = some x) :
    mbxLatePost b m = mbxFill (mbxForgive b m x) m x.tag := by
  have hlate : mbxLateOf b m = some x := (mbxLateOf_eq b m).trans h
  simp [mbxLatePost, hlate, mbxForgive, errWithout]

section
variable (b : Blk) (m : Fin 16) (x : LatePost)

theorem mbxForgive_rd_ne {a : Nat} (h : a ∉ [Reg.MBX_m_STATUS m, Reg.MBX_ERR_COUNT]) : (mbxForgive b m x).rd a = b.rd a := by
  obtain ⟨hstatus, herr⟩ : a ≠ Reg.MBX_m_STATUS m ∧ a ≠ Reg.MBX_ERR_COUNT := by simpa using h
  rw [mbxForgive]
  split
  · exact Blk.rd_wrN_ne _ _ herr
  · exact (Blk.rd_setFlag_ne _ _ _ hstatus).trans (Blk.rd_wrN_ne _ _ herr)

theorem errWithout_lt : errWithout b x < 2 ^ 32 := by
  have hlt := b.rdN_lt Reg.MBX_ERR_COUNT
  rw [errWithout]
  split <;> omega

theorem mbxForgive_err : (mbxForgive b m x).rdN Reg.MBX_ERR_COUNT = errWithout b x := by
  rw [mbxForgive]
  split
  · exact Blk.rdN_wrN_self _ _ (errWithout_lt b x)
  · exact (Blk.rdN_congr (Blk.rd_setFlag_ne _ _ _ (mbxShared_ne (by decide)))).trans
      (Blk.rdN_wrN_self _ _ (errWithout_lt b x))

theorem mbxForgive_overrun : (mbxForgive b m x).flag (Reg.MBX_m_STATUS m) 2 =
    if ∃ y ∈ b.mbxLate.erase x, LateFor m b y then b.flag (Reg.MBX_m_STATUS m) 2 else x.was := by
  simp only [mbxForgive, mbxLateOf_isSome]
  refine (apply_ite (fun c : Blk => c.flag (Reg.MBX_m_STATUS m) 2) _ _ _).trans (ite_congr rfl (fun _ => ?_) fun _ => ?_)
  · exact Blk.flag_congr (Blk.rd_wrN_ne _ _ (mbxReg_ne_shared (by decide))) 2
  · exact Blk.flag_setFlag_self _ _ 2 x.was (by decide)

end

/-! ### A notice is taken, and the post `x` that the mailbox has refused in this clock is the next -/

theorem rcode_not_filled (m : Fin 16) :
    Reg.MBX_m_RCODE m ∉ [Reg.MBX_m_TAG m, Reg.MBX_m_STATUS m, Reg.MBX_m_POSTS m, Reg.MBX_INT_STATUS] := by decide +revert

theorem err_not_filled (m : Fin 16) :
    Reg.MBX_ERR_COUNT ∉ [Reg.MBX_m_TAG m, Reg.MBX_m_STATUS m, Reg.MBX_m_POSTS m, Reg.MBX_INT_STATUS] := by decide +revert

theorem rcode_not_forgiven (m : Fin 16) : Reg.MBX_m_RCODE m ∉ [Reg.MBX_m_STATUS m, Reg.MBX_ERR_COUNT] := by decide +revert

theorem err_not_taken (m : Fin 16) : Reg.MBX_ERR_COUNT ∉ [Reg.MBX_m_STATUS m, Reg.MBX_m_RCODE m, Reg.MBX_INT_STATUS] := by
  decide +revert

theorem mbxFill_full (b : Blk) (m : Fin 16) (tag : Nat) : (mbxFill b m tag).flag (Reg.MBX_m_STATUS m) 0 = true := by
  rw [Blk.flag, mbxFill_status, bit_eq_bits, bits_putBits_self _ _ _ _ (Nat.le_refl 0)]
  rfl

theorem mbxFill_overrun (b : Blk) (m : Fin 16) (tag : Nat) :
    (mbxFill b m tag).flag (Reg.MBX_m_STATUS m) 2 = b.flag (Reg.MBX_m_STATUS m) 2 := by
  rw [Blk.flag, mbxFill_status, bit_eq_bits, bits_putBits_above _ _ _ _ _ _ (by decide) (by decide), ← bit_eq_bits, Blk.flag]

theorem mbxTake_overrun (b : Blk) (m : Fin 16) (code : Nat) :
    (mbxTake b m code).flag (Reg.MBX_m_STATUS m) 2 = b.flag (Reg.MBX_m_STATUS m) 2 := by
  rw [Blk.flag, mbxTake_status, bit_eq_bits, bits_putBits_above _ _ _ _ _ _ (by decide) (by decide), ← bit_eq_bits, Blk.flag]

/-- The notice is taken with `code`, and the mailbox then holds the post `x` (`mbxAck_late`). -/
def mbxRefill (b : Blk) (m code : Nat) (x : LatePost) : Blk := mbxFill (mbxForgive (mbxTake b m code) m x) m x.tag

section
variable (b : Blk) (m : Fin 16) (code : Nat) (x : LatePost)

theorem mbxRefill_rd_ne {a : Nat} (h : a ∉ [Reg.MBX_m_STATUS m, Reg.MBX_m_RCODE m, Reg.MBX_m_TAG m, Reg.MBX_m_POSTS m,
    Reg.MBX_INT_STATUS, Reg.MBX_ERR_COUNT]) : (mbxRefill b m code x).rd a = b.rd a := by
  simp only [List.mem_cons, List.not_mem_nil, or_false, not_or] at h
  obtain ⟨hstatus, hrcode, htag, hposts, hint, herr⟩ := h
  rw [mbxRefill, mbxFill_rd_ne _ _ _ (by simp [*]), mbxForgive_rd_ne _ _ _ (by simp [*]), mbxTake_rd_ne _ _ _ (by simp [*])]

theorem mbxRefill_full : (mbxRefill b m code x).flag (Reg.MBX_m_STATUS m) 0 = true := mbxFill_full _ m x.tag

theorem mbxRefill_tag : (mbxRefill b m code x).rdN (Reg.MBX_m_TAG m) = x.tag % 65536 := mbxFill_tag _ m x.tag

theorem mbxRefill_overrun : (mbxRefill b m code x).flag (Reg.MBX_m_STATUS m) 2 =
    if ∃ y ∈ b.mbxLate.erase x, LateFor m b y then b.flag (Reg.MBX_m_STATUS m) 2 else x.was := by
  rw [mbxRefill, mbxFill_overrun, mbxForgive_overrun, mbxTake_overrun]
  rfl

theorem mbxRefill_rcode : (mbxRefill b m code x).rdN (Reg.MBX_m_RCODE m) = code % 65536 := by
  rw [mbxRefill, Blk.rdN_congr (mbxFill_rd_ne _ m _ (rcode_not_filled m)), Blk.rdN_congr (mbxForgive_rd_ne _ m _ (rcode_not_forgiven m)),
    mbxTake_rcode]

theorem mbxRefill_err : (mbxRefill b m code x).rdN Reg.MBX_ERR_COUNT = errWithout b x := by
  rw [mbxRefill, Blk.rdN_congr (mbxFill_rd_ne _ m _ (err_not_filled m)), mbxForgive_err, errWithout,
    Blk.rdN_congr (mbxTake_rd_ne b m code (err_not_taken m))]
  rfl

end

/-! ### A post and an acknowledgement, by who makes it and what stands in the mailbox -/

section
variable {m : Fin 16} {who : Requester} {b : Blk}

theorem mbxPost_not_sender (tag : Nat) (host : List Byte) (mem : Mem) (hsender : mbxSender m who = false) :
    mbxPost m who tag host mem b = (b.count Reg.MBX_ERR_COUNT, false) := by
  simp [mbxPost, hsender]

theorem mbxAck_not_receiver (code : Nat) (hreceiver : mbxReceiver m who = false) :
    mbxAck m who code b = (b.count Reg.MBX_ERR_COUNT, false) := by
  simp [mbxAck, hreceiver]

section
variable (tag : Nat) (host : List Byte) (mem : Mem) (hsender : mbxSender m who = true)
include hsender

theorem mbxPost_off (hoff : domOn b (mbxDomain m) = false) : mbxPost m who tag host mem b = (b, false) := by
  simp [mbxPost, hsender, hoff]

variable (hon : domOn b (mbxDomain m) = true)
include hon

theorem mbxPost_full (hfull : b.flag (Reg.MBX_m_STATUS m) 0 = true) :
    mbxPost m who tag host mem b = (mbxOver b m (tag % 65536) host, true) := by
  simp [mbxPost, hsender, hon, hfull]

/-- Mailboxes 12 to 15, which hardware takes, answer a notice further (R322). -/
theorem mbxPost_empty (hm : m.val < 12) (hempty : b.flag (Reg.MBX_m_STATUS m) 0 = false) :
    mbxPost m who tag host mem b = (mbxFill b m tag, true) := by
  have hdrive : ¬ (m.val = 12 ∨ m.val = 13) := by omega
  have hlink : ¬ 14 ≤ m.val := by omega
  simp [mbxPost, hsender, hon, hempty, hdrive, hlink]

end

section
variable (code : Nat) (hreceiver : mbxReceiver m who = true)
include hreceiver

theorem mbxAck_empty (hempty : b.flag (Reg.MBX_m_STATUS m) 0 = false) : mbxAck m who code b = (b, true) := by
  simp [mbxAck, hreceiver, hempty]

variable (hfull : b.flag (Reg.MBX_m_STATUS m) 0 = true)
include hfull

theorem mbxAck_taken (hnone : ∀ x ∈ b.mbxLate, ¬ LateFor m b x) : mbxAck m who code b = (mbxTake b m code, true) := by
  have hlate : mbxLatePost (mbxTake b m code) m = mbxTake b m code := mbxLatePost_of_none hnone
  simp [mbxAck, hreceiver, hfull, hlate]

theorem mbxAck_late {x : LatePost} (hx : b.mbxLate.find? (fun x => decide (LateFor m b x)) = some x) :
    mbxAck m who code b = (mbxRefill b m code x, true) := by
  have hlate : mbxLatePost (mbxTake b m code) m = mbxRefill b m code x := mbxLatePost_of_late hx
  simp [mbxAck, hreceiver, hfull, hlate]

end

end

/-- A post answers its completion on the block of `mbxPost`; the lines towards the host and what leaves for them come after it. -/
theorem answers_mbxPost {m : Fin 16} {who : Requester} {w : Word} {host : List Byte} {s : State} {b : Blk} {ok : Bool} {P : State → Prop}
    (hon : domFor s.blk 1 who = true) (hpost : mbxPost m who w.toNat host s.mem s.blk = (b, ok))
    (hp : ∀ os x, P { s with blk := { b with out := b.out ++ Output.writeDone who (Reg.MBX_m_TAG m) (!ok) :: os, host := x } }) :
    Answers (.mbxPost m who w host) s P := by
  obtain ⟨os, x, hsettle⟩ := intSettle_eq (writeDone (b, ok) who (Reg.MBX_m_TAG m))
  refine ⟨_, inDomWrite_on (act := onView _) hon, ?_⟩
  have hdone : intSettle (writeDone (b, ok) who (Reg.MBX_m_TAG m)) =
      { b with out := b.out ++ Output.writeDone who (Reg.MBX_m_TAG m) (!ok) :: os, host := x } := by
    rw [hsettle]
    simp [writeDone, Blk.emit]
  simpa only [hpost, hdone] using hp os x

theorem answers_mbxAck {m : Fin 16} {who : Requester} {w : Word} {s : State} {b : Blk} {ok : Bool} {P : State → Prop}
    (hon : domFor s.blk 1 who = true) (hack : mbxAck m who w.toNat s.blk = (b, ok))
    (hp : P { s with blk := b.emit (.writeDone who (Reg.MBX_m_ACK m) (!ok)) }) : Answers (.mbxAck m who w) s P := by
  refine ⟨_, inDomWrite_on (act := onBlk _) hon, ?_⟩
  simpa only [hack, writeDone] using hp

/-- Settles O29: who posts and who takes is Table 12-18's; each branch of a post and of an ACK leaves the block of its lemma, and an ACK that
comes after a refused post of its clock takes the notice and then holds that post. -/
theorem mailboxNotice : Obligations.MailboxNotice := by
  intro s m who w host hon hm sender receiver home err more late done
  have hsender : sender → mbxSender m who = true := (mbxSender_iff hm who).mpr
  have hnotSender : ¬ sender → mbxSender m who = false := fun h => Bool.eq_false_iff.mpr (mt (mbxSender_iff hm who).mp h)
  have hreceiver : receiver → mbxReceiver m who = true := (mbxReceiver_iff hm who).mpr
  have hnotReceiver : ¬ receiver → mbxReceiver m who = false := fun h => Bool.eq_false_iff.mpr (mt (mbxReceiver_iff hm who).mp h)
  have hhome : mbxDomain m = home := mbxDomain_eq hm
  have hcounted : (s.blk.count err).rdN err = more := (Blk.rdN_count_self s.blk err 1).trans (sat32_eq_min _)
  refine ⟨fun hsends hdom hempty => ?posted, fun hsends hdom hfull => ?overrun, fun hsends hoff => ?homeOff, fun hother => ?notSender,
    fun htakes hfull hnone => ?taken, fun x htakes hfull hx => ?late, fun htakes hempty => ?empty, fun hother => ?notReceiver⟩
  case posted =>
    rw [← hhome] at hdom
    exact answers_mbxPost hon (mbxPost_empty w.toNat host s.mem (hsender hsends) hdom hm hempty) fun os _ =>
      ⟨rfl, ⟨os, congrArg (· ++ _) (mbxFill_out s.blk m w.toNat)⟩, fun _ ha => mbxFill_rd_ne s.blk m w.toNat ha,
        mbxFill_tag s.blk m w.toNat, mbxFill_status s.blk m w.toNat, mbxFill_posts s.blk m w.toNat, mbxFill_int s.blk m w.toNat⟩
  case overrun =>
    rw [← hhome] at hdom
    exact answers_mbxPost hon (mbxPost_full w.toNat host s.mem (hsender hsends) hdom hfull) fun os _ =>
      ⟨rfl, ⟨os, congrArg (· ++ _) (mbxOver_out s.blk m _ host)⟩, fun _ ha => mbxOver_rd_ne s.blk m _ host ha,
        mbxOver_status s.blk m _ host, mbxOver_err s.blk m _ host⟩
  case homeOff =>
    rw [← hhome] at hoff
    exact answers_mbxPost hon (mbxPost_off w.toNat host s.mem (hsender hsends) hoff) fun os _ => ⟨rfl, ⟨os, rfl⟩, fun _ _ => rfl⟩
  case notSender =>
    exact answers_mbxPost hon (mbxPost_not_sender w.toNat host s.mem (hnotSender hother)) fun os _ =>
      ⟨rfl, ⟨os, rfl⟩, fun _ ha => Blk.rd_count_ne s.blk 1 (List.ne_of_not_mem_cons ha), hcounted⟩
  case taken =>
    exact answers_mbxAck hon (mbxAck_taken w.toNat (hreceiver htakes) hfull hnone)
      ⟨(mbxTake_sameButRegs s.blk m w.toNat).onlyRegs_emit _ fun _ ha => mbxTake_rd_ne s.blk m w.toNat ha,
        mbxTake_status s.blk m w.toNat, mbxTake_rcode s.blk m w.toNat, mbxTake_int s.blk m w.toNat⟩
  case late =>
    exact answers_mbxAck hon (mbxAck_late w.toNat (hreceiver htakes) hfull hx)
      ⟨rfl, fun _ ha => mbxRefill_rd_ne s.blk m w.toNat x ha, mbxRefill_full s.blk m w.toNat x, mbxRefill_overrun s.blk m w.toNat x,
        mbxRefill_tag s.blk m w.toNat x, mbxRefill_rcode s.blk m w.toNat x, mbxRefill_err s.blk m w.toNat x⟩
  case empty => exact answers_mbxAck hon (mbxAck_empty w.toNat (hreceiver htakes) hempty) (onlyRegs_out s _)
  case notReceiver =>
    exact answers_mbxAck hon (mbxAck_not_receiver w.toNat (hnotReceiver hother))
      ⟨onlyRegs_wr s err _ _, hcounted⟩

end Sys2Proof.Machine
end

section
/-!
GO of a DMA channel (R335, R342): a channel that the canvas does not own starts from IDLE and HALTED alone. That the start clears the code
and the LATE flag of the last error is the model's choice (log entry 52).
-/
namespace Sys2Proof.Machine

theorem Blk.flag_setFld_apart (b : Blk) (a : Nat) {hi lo i : Nat} (v : Nat) (hl : lo ≤ hi) (hw : hi < 32) (hapart : i < lo ∨ hi < i) :
    (b.setFld a hi lo v).flag a i = b.flag a i := by
  have hfld : (b.setFld a hi lo v).fld a i i = b.fld a i i := Blk.fld_setFld_apart b a v hl hw hapart
  rw [Blk.flag, Blk.flag, bit_eq_bits, bit_eq_bits]
  exact congrArg (· == 1) hfld

/-- Channel `n` after a GO that it takes. -/
def dmaStarted (n : Nat) (b : Blk) : Blk :=
  dmaTo (((b.setDma n { dmaChan b n with asked := false, wrote := [] }).setFlag (Reg.DMA_CHn_STATUS n) 6 false).setFld
    (Reg.DMA_CHn_STATUS n) 15 8 0) n 2

section
variable {n : Nat} {b : Blk}

theorem dmaGo_of_owned (howned : dmaOwned b n = true) : dmaGo n b = b := if_pos (by simp [howned])

theorem dmaGo_of_state_ne (hidle : dmaState b n ≠ 1) (hhalted : dmaState b n ≠ 6) : dmaGo n b = b := if_pos (by simp [hidle, hhalted])

theorem dmaGo_of_stopped (hfree : dmaOwned b n = false) (hstopped : dmaState b n = 1 ∨ dmaState b n = 6) :
    dmaGo n b = dmaStarted n b := if_neg (by rcases hstopped with h | h <;> simp [hfree, h])

end

section
variable (n : Nat) (b : Blk)

theorem dmaStarted_state : (dmaStarted n b).fld (Reg.DMA_CHn_STATUS n) 2 0 = 2 :=
  Blk.fld_setFld_self _ (Reg.DMA_CHn_STATUS n) 2 0 2 (by decide) (by decide)

theorem dmaStarted_code : (dmaStarted n b).fld (Reg.DMA_CHn_STATUS n) 15 8 = 0 := by
  rw [dmaStarted, dmaTo, Blk.fld_setFld_apart _ _ _ (by decide) (by decide) (by decide),
    Blk.fld_setFld_self _ _ _ _ _ (by decide) (by decide), Nat.zero_mod]

theorem dmaStarted_late : (dmaStarted n b).flag (Reg.DMA_CHn_STATUS n) 6 = false := by
  rw [dmaStarted, dmaTo, Blk.flag_setFld_apart _ _ _ (by decide) (by decide) (by decide),
    Blk.flag_setFld_apart _ _ _ (by decide) (by decide) (by decide), Blk.flag_setFlag_self _ _ _ _ (by decide)]

theorem dmaStarted_rd_ne {a : Nat} (h : a ≠ Reg.DMA_CHn_STATUS n) : (dmaStarted n b).rd a = b.rd a := by
  rw [dmaStarted, dmaTo, Blk.rd_setFld_ne _ _ _ _ h, Blk.rd_setFld_ne _ _ _ _ h, Blk.rd_setFlag_ne _ _ _ h]
  rfl

theorem dmaStarted_chan_ne {k : Nat} (h : k ≠ n) : dmaChan (dmaStarted n b) k = dmaChan b k := Tab.at_upd_ne _ b.dma _ h

/-- A start changes the STATUS of the channel and the copies of the descriptors alone. -/
theorem onlyRegs_dmaStarted (s : State) : OnlyRegs { s with blk := { s.blk with dma := (dmaStarted n s.blk).dma } }
    { s with blk := dmaStarted n s.blk } [Reg.DMA_CHn_STATUS n] [] := by
  refine ⟨?_, fun a ha => dmaStarted_rd_ne n s.blk (List.ne_of_not_mem_cons ha)⟩
  rw [List.append_nil]
  rfl

end

/-- Settles O31: a channel of the canvas and a channel in a state other than IDLE and HALTED have their branch of GO, which does nothing; the
other branch writes the three fields of STATUS one after another, each apart from the next. -/
theorem dmaGo_starts_stopped : Obligations.DmaGo := by
  intro s n hcore st
  refine ⟨fun howned => ?owned, fun hidle hhalted => ?otherState, fun hfree hstopped => ?started⟩
  case owned => exact exec_onBlk_unchanged hcore rfl (dmaGo_of_owned howned)
  case otherState => exact exec_onBlk_unchanged hcore rfl (dmaGo_of_state_ne hidle hhalted)
  case started =>
    have hgo : dmaGo n s.blk = dmaStarted n s.blk := dmaGo_of_stopped hfree hstopped
    refine answers_onBlk hcore rfl ?_
    rw [hgo]
    exact ⟨onlyRegs_dmaStarted n s, fun _ hk => dmaStarted_chan_ne n s.blk hk, dmaStarted_state n s.blk, dmaStarted_code n s.blk,
      dmaStarted_late n s.blk⟩

end Sys2Proof.Machine
end

section
/-!
The check-value units (R354, R356, R357): VALUE as the bytes of a clock run over it, and the steps of a unit's end.
-/
namespace Sys2Proof.Machine

/-! ### Registers -/

theorem Blk.rd_wr64_ne (b : Blk) {lo hi a : Nat} (n : Nat) (hlo : a ≠ lo) (hhi : a ≠ hi) : (b.wr64 lo hi n).rd a = b.rd a := by
  rw [Blk.wr64, Blk.rd_wrN_ne _ _ hhi, Blk.rd_wrN_ne _ _ hlo]

theorem Blk.rd64_wr64 (b : Blk) {lo hi n : Nat} (hne : lo ≠ hi) (hn : n < 2 ^ 64) : (b.wr64 lo hi n).rd64 lo hi = n := by
  have hlow : (b.wr64 lo hi n).rdN lo = n % 2 ^ 32 := by
    rw [Blk.wr64, Blk.rdN_congr (Blk.rd_wrN_ne _ _ hne), Blk.rdN, Blk.rd_wrN_self, BitVec.toNat_ofNat]
  have hhigh : (b.wr64 lo hi n).rdN hi = n / 2 ^ 32 := Blk.rdN_wrN_self _ _ (by omega)
  rw [Blk.rd64, hlow, hhigh]
  omega

theorem Blk.rd64_congr {b c : Blk} {lo hi : Nat} (hlo : c.rd lo = b.rd lo) (hhi : c.rd hi = b.rd hi) : c.rd64 lo hi = b.rd64 lo hi := by
  rw [Blk.rd64, Blk.rd64, Blk.rdN_congr hlo, Blk.rdN_congr hhi]

theorem Blk.flag_irq_ne (b : Blk) (a : Nat) {i j : Nat} (hi : i < 32) (hne : j ≠ i) : (b.irq a i).flag a j = b.flag a j :=
  (Blk.flag_congr (Blk.rd_congr (b.irq_regs a i) a) j).trans (Blk.flag_setFlag_ne b a true hi hne)

/-- A bit of the low two of a register under a write of the two. -/
theorem Blk.flag_setFld_pair (b : Blk) (a v : Nat) {i : Nat} (hi : i < 2) : (b.setFld a 1 0 v).flag a i = bit v i := by
  have hlow (x : Nat) : bit x i = bit (x % 4) i := by
    obtain rfl | rfl : i = 0 ∨ i = 1 := by omega
    · simp only [bit]; congr 1; omega
    · simp only [bit]; congr 1; omega
  have hfld : (b.setFld a 1 0 v).rdN a % 4 = v % 4 := by
    simpa [Blk.fld, bits] using Blk.fld_setFld_self b a 1 0 v (by decide) (by decide)
  rw [Blk.flag, hlow, hfld, ← hlow]

/-! ### The registers of a unit lie apart, above those that all units share -/

theorem crcReg_ne {n c d : Nat} (h : c ≠ d) : c + 0x80 * n ≠ d + 0x80 * n := fun he => h (Nat.add_right_cancel he)

theorem crcReg_ne_shared {n c d : Nat} (h : d < c) : c + 0x80 * n ≠ d := by omega

theorem crcShared_ne {n c d : Nat} (h : d < c) : d ≠ c + 0x80 * n := by omega

/-! ### Values over W bits -/

theorem reflect_succ (w v : Nat) : reflect (w + 1) v = (if bit v 0 then 2 ^ w else 0) + reflect w (v / 2) := by
  have hbit (i : Nat) : bit v (i + 1) = bit (v / 2) i := by rw [bit, bit, Nat.pow_succ', Nat.div_div_eq_div_mul]
  rw [reflect, List.range_succ_eq_map, List.map_cons, List.sum_cons, List.map_map]
  refine congrArg ((if bit v 0 then 2 ^ w else 0) + ·) (congrArg List.sum (List.map_congr_left fun i _ => ?_))
  rw [Function.comp_apply, Nat.succ_eq_add_one, hbit, Nat.add_sub_cancel, Nat.add_comm i 1, Nat.sub_add_eq]

theorem reflect_lt (w v : Nat) : reflect w v < 2 ^ w := by
  induction w generalizing v with
  | zero => exact Nat.one_pos
  | succ w ih =>
    have hrest : reflect w (v / 2) < 2 ^ w := ih (v / 2)
    rw [reflect_succ, Nat.pow_succ]
    split <;> omega

section
variable (b : Blk) (n : Nat)

theorem crcWidth_le : crcWidth b n ≤ 64 := by
  rw [crcWidth]
  split
  · exact Nat.le_refl 64
  · next h => exact (show _ ∧ _ by simpa using h).2

theorem two_pow_crcWidth_le : 2 ^ crcWidth b n ≤ 2 ^ 64 := Nat.pow_le_pow_right (by decide) (crcWidth_le b n)

theorem crcInitial_lt : crcInitial b n < 2 ^ 64 := Nat.lt_of_lt_of_le (Nat.mod_lt _ (Nat.two_pow_pos _)) (two_pow_crcWidth_le b n)

theorem crcResult_lt (v : Nat) : crcResult b n v < 2 ^ 64 := by
  refine Nat.lt_of_lt_of_le (Nat.xor_lt_two_pow ?_ (Nat.mod_lt _ (Nat.two_pow_pos _))) (two_pow_crcWidth_le b n)
  split
  · exact reflect_lt _ v
  · exact Nat.mod_lt _ (Nat.two_pow_pos _)

end

/-! ### VALUE and the bytes of the clock -/

/-- VALUE of unit `n` has not been written in this clock, so that the bytes of the clock run over VALUE itself. -/
abbrev CrcQuiet (b : Blk) (n : Nat) : Prop := ∀ c v, Tab.at none b.crcSet n = some (c, v) → c ≠ b.now

section
variable {b : Blk} {n : Nat}

theorem crcQuiet_or_set (b : Blk) (n : Nat) : CrcQuiet b n ∨ ∃ v, Tab.at none b.crcSet n = some (b.now, v) := by
  by_cases h : ∃ v, Tab.at none b.crcSet n = some (b.now, v)
  · exact .inr h
  · exact .inl fun c v hset hnow => h ⟨v, hnow ▸ hset⟩

theorem crcRunning_of_quiet (h : CrcQuiet b n) : crcRunning b n = crcValue b n := by
  unfold crcRunning
  split
  next c v hset => exact if_neg (h c v hset)
  next => rfl

theorem crcRunning_of_set {v : Nat} (h : Tab.at none b.crcSet n = some (b.now, v)) : crcRunning b n = v := by simp [crcRunning, h]

theorem crcRun_of_quiet (h : CrcQuiet b n) (v : Nat) : crcRun b n v = crcPut b n v := by
  unfold crcRun
  split
  next c x hset => exact if_neg (h c x hset)
  next => rfl

theorem crcRun_of_set {x : Nat} (h : Tab.at none b.crcSet n = some (b.now, x)) (v : Nat) :
    crcRun b n v = { b with crcSet := Tab.upd none b.crcSet n (some (b.now, v)) } := by simp [crcRun, h]

theorem crcPut_rd_ne (v : Nat) {a : Nat} (hlo : a ≠ Reg.CRC_n_VALUE_LO n) (hhi : a ≠ Reg.CRC_n_VALUE_HI n) :
    (crcPut b n v).rd a = b.rd a := Blk.rd_wr64_ne b v hlo hhi

theorem crcValue_crcPut {v : Nat} (hv : v < 2 ^ 64) : crcValue (crcPut b n v) n = v := Blk.rd64_wr64 b (crcReg_ne (by decide)) hv

theorem crcRun_rd_ne (v : Nat) {a : Nat} (hlo : a ≠ Reg.CRC_n_VALUE_LO n) (hhi : a ≠ Reg.CRC_n_VALUE_HI n) :
    (crcRun b n v).rd a = b.rd a := by
  rcases crcQuiet_or_set b n with hquiet | ⟨x, hset⟩
  · rw [crcRun_of_quiet hquiet, crcPut_rd_ne v hlo hhi]
  · rw [crcRun_of_set hset]; rfl

theorem crcValue_crcRun (h : CrcQuiet b n) {v : Nat} (hv : v < 2 ^ 64) : crcValue (crcRun b n v) n = v := by
  rw [crcRun_of_quiet h, crcValue_crcPut hv]

theorem crcRunning_crcRun {v : Nat} (hv : v < 2 ^ 64) : crcRunning (crcRun b n v) n = v := by
  rcases crcQuiet_or_set b n with hquiet | ⟨x, hset⟩
  · rw [crcRun_of_quiet hquiet, crcRunning_of_quiet (b := crcPut b n v) hquiet, crcValue_crcPut hv]
  · rw [crcRun_of_set hset]
    exact crcRunning_of_set (b := { b with crcSet := _ }) (Tab.at_upd_self none b.crcSet n (some (b.now, v)))

/-- A write of VALUE comes after the bytes of its clock, which run over the value from before. -/
theorem crcRunning_crcWritten (v : Nat) : crcRunning (crcWritten b n v) n = crcRunning b n :=
  crcRunning_of_set (b := crcWritten b n v) (Tab.at_upd_self none b.crcSet n (some (b.now, crcRunning b n)))

theorem crcValue_crcWritten {v : Nat} (hv : v < 2 ^ 64) : crcValue (crcWritten b n v) n = v := crcValue_crcPut hv

theorem crcWritten_rd_ne (v : Nat) {a : Nat} (h : a ∉ [Reg.CRC_n_VALUE_LO n, Reg.CRC_n_VALUE_HI n]) :
    (crcWritten b n v).rd a = b.rd a := by
  obtain ⟨hlo, hhi⟩ : a ≠ Reg.CRC_n_VALUE_LO n ∧ a ≠ Reg.CRC_n_VALUE_HI n := by simpa using h
  exact crcPut_rd_ne v hlo hhi

end

/-! ### The registers that W, RESULT, INIT and the comparison depend on -/

section
variable {b c : Blk} {n : Nat} (hcfg : c.rd (Reg.CRC_n_CFG n) = b.rd (Reg.CRC_n_CFG n))
include hcfg

theorem crcWidth_congr : crcWidth c n = crcWidth b n := by rw [crcWidth, crcWidth, Blk.fld_congr hcfg]

theorem crcInitial_congr (hlo : c.rd (Reg.CRC_n_INIT_LO n) = b.rd (Reg.CRC_n_INIT_LO n))
    (hhi : c.rd (Reg.CRC_n_INIT_HI n) = b.rd (Reg.CRC_n_INIT_HI n)) : crcInitial c n = crcInitial b n := by
  rw [crcInitial, crcInitial, crcWidth_congr hcfg, Blk.rd64_congr hlo hhi]

end

/-- RESULT `r` of unit `n` is the value expected. -/
def crcSame (b : Blk) (n r : Nat) : Bool := r == b.rd64 (Reg.CRC_n_EXPECT_LO n) (Reg.CRC_n_EXPECT_HI n) % 2 ^ crcWidth b n

theorem crcSame_iff (b : Blk) (n r : Nat) :
    crcSame b n r = true ↔ r = b.rd64 (Reg.CRC_n_EXPECT_LO n) (Reg.CRC_n_EXPECT_HI n) % 2 ^ crcWidth b n := beq_iff_eq

/-! ### The registers of a unit's end -/

/-- The registers of unit `n` that its end reads after it has begun to write. -/
abbrev crcInputs (n : Nat) : List Nat :=
  [Reg.CRC_n_CFG n, Reg.CRC_n_INIT_LO n, Reg.CRC_n_INIT_HI n, Reg.CRC_n_EXPECT_LO n, Reg.CRC_n_EXPECT_HI n]

/-- The registers that the end of a unit writes before AUTO_INIT. -/
abbrev crcOutputs (n : Nat) : List Nat :=
  [Reg.CRC_n_RESULT_LO n, Reg.CRC_n_RESULT_HI n, Reg.CRC_n_UNITS n, Reg.CRC_INT_STATUS, Reg.CRC_n_STATUS n, Reg.CRC_n_MISMATCHES n]

/-- The registers that the end writes first, with the result. -/
abbrev crcShownRegs (n : Nat) : List Nat := [Reg.CRC_n_RESULT_LO n, Reg.CRC_n_RESULT_HI n, Reg.CRC_n_UNITS n, Reg.CRC_INT_STATUS]

/-- The registers that the comparison and AUTO_INIT write. -/
abbrev crcLaterRegs (n : Nat) : List Nat :=
  [Reg.CRC_n_VALUE_LO n, Reg.CRC_n_VALUE_HI n, Reg.CRC_n_STATUS n, Reg.CRC_n_MISMATCHES n, Reg.CRC_INT_STATUS]

theorem crcShownReg_output (n : Fin 8) : ∀ a ∈ crcShownRegs n, a ∈ crcOutputs n := by decide +revert

theorem crcJudgedReg_output (n : Fin 8) : ∀ a ∈ [Reg.CRC_n_STATUS n, Reg.CRC_n_MISMATCHES n, Reg.CRC_INT_STATUS], a ∈ crcOutputs n := by
  decide +revert

theorem crcInputs_not_outputs (n : Fin 8) : ∀ a ∈ crcInputs n, a ∉ crcOutputs n := by decide +revert

theorem crcValue_not_output (n : Fin 8) : ∀ a ∈ [Reg.CRC_n_VALUE_LO n, Reg.CRC_n_VALUE_HI n], a ∉ crcOutputs n := by decide +revert

theorem crcReg_not_shown (n : Fin 8) : ∀ a ∈ Reg.CRC_n_MISMATCHES n :: crcInputs n, a ∉ crcShownRegs n := by decide +revert

theorem crcReg_not_later (n : Fin 8) : ∀ a ∈ [Reg.CRC_n_RESULT_LO n, Reg.CRC_n_RESULT_HI n, Reg.CRC_n_UNITS n], a ∉ crcLaterRegs n := by
  decide +revert

/-! ### The end shows the result -/

/-- RESULT `r` of unit `n` stands, and the unit is counted and DONE. -/
def crcShown (b : Blk) (n r : Nat) : Blk :=
  ((b.wr64 (Reg.CRC_n_RESULT_LO n) (Reg.CRC_n_RESULT_HI n) r).count (Reg.CRC_n_UNITS n)).irq Reg.CRC_INT_STATUS (8 + n)

section
variable (b : Blk) (n r : Nat)

theorem crcShown_sameButRegs : SameButRegs b (crcShown b n r) :=
  ((((sameButRegs_wrN b _ _).trans (sameButRegs_wrN _ _ _)).trans (sameButRegs_wrN _ _ _))).trans (sameButRegs_irq _ _ _)

theorem crcShown_rd_ne {a : Nat} (h : a ∉ crcShownRegs n) : (crcShown b n r).rd a = b.rd a := by
  obtain ⟨hlo, hhi, hunits, hint⟩ :
      a ≠ Reg.CRC_n_RESULT_LO n ∧ a ≠ Reg.CRC_n_RESULT_HI n ∧ a ≠ Reg.CRC_n_UNITS n ∧ a ≠ Reg.CRC_INT_STATUS := by simpa using h
  rw [crcShown, Blk.rd_irq_ne _ _ hint, Blk.rd_count_ne _ _ hunits, Blk.rd_wr64_ne _ _ hlo hhi]

theorem crcShown_result (hr : r < 2 ^ 64) : (crcShown b n r).rd64 (Reg.CRC_n_RESULT_LO n) (Reg.CRC_n_RESULT_HI n) = r := by
  have hkept {c : Nat} (hint : 0x400F0008 < c) (hunits : c ≠ 0x400F1048) :
      (crcShown b n r).rd (c + 0x80 * n) = (b.wr64 (Reg.CRC_n_RESULT_LO n) (Reg.CRC_n_RESULT_HI n) r).rd (c + 0x80 * n) := by
    rw [crcShown, Blk.rd_irq_ne _ _ (crcReg_ne_shared hint), Blk.rd_count_ne _ _ (crcReg_ne hunits)]
  rw [Blk.rd64_congr (hkept (by decide) (by decide)) (hkept (by decide) (by decide)), Blk.rd64_wr64 b (crcReg_ne (by decide)) hr]

theorem crcShown_units :
    (crcShown b n r).rdN (Reg.CRC_n_UNITS n) = min (2 ^ 32 - 1) (b.rdN (Reg.CRC_n_UNITS n) + 1) := by
  rw [crcShown, Blk.rdN_congr (Blk.rd_irq_ne _ _ (crcReg_ne_shared (by decide))), Blk.rdN_count_self, sat32_eq_min,
    Blk.rdN_congr (Blk.rd_wr64_ne b r (crcReg_ne (by decide)) (crcReg_ne (by decide)))]

theorem crcShown_done (hn : n < 8) : (crcShown b n r).flag Reg.CRC_INT_STATUS (8 + n) = true := Blk.flag_irq_self _ _ _ (by omega)

end

/-! ### The end compares the result -/

/-- Unit `n` says whether its result is the one expected, `same`, where COMPARE asks for it. -/
def crcJudged (b : Blk) (n : Nat) (same : Bool) : Blk :=
  if !b.flag (Reg.CRC_n_CFG n) 10 then b.setFld (Reg.CRC_n_STATUS n) 1 0 0
  else
    let b := b.setFld (Reg.CRC_n_STATUS n) 1 0 (2 + b2n same)
    if same then b else (b.count (Reg.CRC_n_MISMATCHES n)).irq Reg.CRC_INT_STATUS n

section
variable {b : Blk} {n : Nat} {same : Bool}

theorem crcJudged_of_not_compare (hcompare : b.flag (Reg.CRC_n_CFG n) 10 = false) :
    crcJudged b n same = b.setFld (Reg.CRC_n_STATUS n) 1 0 0 := if_pos (by simp [hcompare])

theorem crcJudged_of_match (hcompare : b.flag (Reg.CRC_n_CFG n) 10 = true) :
    crcJudged b n true = b.setFld (Reg.CRC_n_STATUS n) 1 0 3 := by simp [crcJudged, hcompare, b2n]

theorem crcJudged_of_mismatch (hcompare : b.flag (Reg.CRC_n_CFG n) 10 = true) :
    crcJudged b n false = ((b.setFld (Reg.CRC_n_STATUS n) 1 0 2).count (Reg.CRC_n_MISMATCHES n)).irq Reg.CRC_INT_STATUS n := by
  simp [crcJudged, hcompare, b2n]

/-- The three outcomes of an end: not compared, MATCH, and a mismatch. -/
theorem crcJudged_cases (b : Blk) (n : Nat) (same : Bool) :
    (∃ v, crcJudged b n same = b.setFld (Reg.CRC_n_STATUS n) 1 0 v) ∨
    crcJudged b n same = ((b.setFld (Reg.CRC_n_STATUS n) 1 0 2).count (Reg.CRC_n_MISMATCHES n)).irq Reg.CRC_INT_STATUS n := by
  cases hcompare : b.flag (Reg.CRC_n_CFG n) 10 with
  | false => exact .inl ⟨_, crcJudged_of_not_compare hcompare⟩
  | true =>
    cases same with
    | true => exact .inl ⟨_, crcJudged_of_match hcompare⟩
    | false => exact .inr (crcJudged_of_mismatch hcompare)

theorem crcJudged_sameButRegs (b : Blk) (n : Nat) (same : Bool) : SameButRegs b (crcJudged b n same) := by
  rcases crcJudged_cases b n same with ⟨v, h⟩ | h
  · rw [h]; exact sameButRegs_wrN b _ _
  · rw [h]; exact ((sameButRegs_wrN b _ _).trans (sameButRegs_wrN _ _ _)).trans (sameButRegs_irq _ _ _)

theorem crcJudged_rd_ne (b : Blk) (n : Nat) (same : Bool) {a : Nat}
    (h : a ∉ [Reg.CRC_n_STATUS n, Reg.CRC_n_MISMATCHES n, Reg.CRC_INT_STATUS]) : (crcJudged b n same).rd a = b.rd a := by
  obtain ⟨hstatus, hmis, hint⟩ : a ≠ Reg.CRC_n_STATUS n ∧ a ≠ Reg.CRC_n_MISMATCHES n ∧ a ≠ Reg.CRC_INT_STATUS := by simpa using h
  rcases crcJudged_cases b n same with ⟨v, h⟩ | h
  · rw [h, Blk.rd_setFld_ne _ _ _ _ hstatus]
  · rw [h, Blk.rd_irq_ne _ _ hint, Blk.rd_count_ne _ _ hmis, Blk.rd_setFld_ne _ _ _ _ hstatus]

theorem crcJudged_int_ne (b : Blk) {n : Nat} (hn : n < 32) (same : Bool) {j : Nat} (hj : j ≠ n) :
    (crcJudged b n same).flag Reg.CRC_INT_STATUS j = b.flag Reg.CRC_INT_STATUS j := by
  rcases crcJudged_cases b n same with ⟨v, h⟩ | h
  · rw [h, Blk.flag_congr (Blk.rd_setFld_ne _ _ _ _ (crcShared_ne (by decide)))]
  · rw [h, Blk.flag_irq_ne _ _ hn hj, Blk.flag_congr (Blk.rd_count_ne _ _ (crcShared_ne (by decide))),
      Blk.flag_congr (Blk.rd_setFld_ne _ _ _ _ (crcShared_ne (by decide)))]

theorem crcJudged_status (hcompare : b.flag (Reg.CRC_n_CFG n) 10 = true) {i : Nat} (hi : i < 2) :
    (crcJudged b n same).flag (Reg.CRC_n_STATUS n) i = bit (2 + b2n same) i := by
  cases same with
  | true => rw [crcJudged_of_match hcompare, Blk.flag_setFld_pair _ _ _ hi]; rfl
  | false =>
    rw [crcJudged_of_mismatch hcompare, Blk.flag_congr (Blk.rd_irq_ne _ _ (crcReg_ne_shared (by decide))),
      Blk.flag_congr (Blk.rd_count_ne _ _ (crcReg_ne (by decide))), Blk.flag_setFld_pair _ _ _ hi]
    rfl

theorem crcJudged_mismatch_raised (hcompare : b.flag (Reg.CRC_n_CFG n) 10 = true) (hn : n < 32) :
    (crcJudged b n false).flag Reg.CRC_INT_STATUS n = true := by
  rw [crcJudged_of_mismatch hcompare, Blk.flag_irq_self _ _ _ hn]

theorem crcJudged_mismatch_counted (hcompare : b.flag (Reg.CRC_n_CFG n) 10 = true) :
    (crcJudged b n false).rdN (Reg.CRC_n_MISMATCHES n) = min (2 ^ 32 - 1) (b.rdN (Reg.CRC_n_MISMATCHES n) + 1) := by
  rw [crcJudged_of_mismatch hcompare, Blk.rdN_congr (Blk.rd_irq_ne _ _ (crcReg_ne_shared (by decide))), Blk.rdN_count_self, sat32_eq_min,
    Blk.rdN_congr (Blk.rd_setFld_ne _ _ _ _ (crcReg_ne (by decide)))]

theorem crcJudged_mismatches_kept (h : b.flag (Reg.CRC_n_CFG n) 10 = false ∨ same = true) :
    (crcJudged b n same).rd (Reg.CRC_n_MISMATCHES n) = b.rd (Reg.CRC_n_MISMATCHES n) := by
  have hset (v : Nat) : (b.setFld (Reg.CRC_n_STATUS n) 1 0 v).rd (Reg.CRC_n_MISMATCHES n) = b.rd (Reg.CRC_n_MISMATCHES n) :=
    Blk.rd_setFld_ne _ _ _ _ (crcReg_ne (by decide))
  cases hcompare : b.flag (Reg.CRC_n_CFG n) 10 with
  | false => rw [crcJudged_of_not_compare hcompare, hset]
  | true =>
    obtain rfl : same = true := h.resolve_left (by simp [hcompare])
    rw [crcJudged_of_match hcompare, hset]

end

/-! ### The end of a unit -/

/-- RESULT of unit `n` at the end of its unit. -/
def crcEndResult (b : Blk) (n : Nat) : Nat := crcResult b n (crcRunning b n)

theorem crcEndResult_lt (b : Blk) (n : Nat) : crcEndResult b n < 2 ^ 64 := crcResult_lt b n (crcRunning b n)

/-- Unit `n` at the end of its unit, before AUTO_INIT. -/
def crcClosed (b : Blk) (n : Nat) : Blk := crcJudged (crcShown b n (crcEndResult b n)) n (crcSame b n (crcEndResult b n))

/-- VALUE takes INIT where AUTO_INIT is set. -/
def crcReloaded (b : Blk) (n : Nat) : Blk := if b.flag (Reg.CRC_n_CFG n) 11 then crcRun b n (crcInitial b n) else b

section
variable (b : Blk) (n : Fin 8)

theorem crcSame_crcShown (r : Nat) : crcSame (crcShown b n r) n r = crcSame b n r := by
  have hkept : ∀ a ∈ crcInputs n, (crcShown b n r).rd a = b.rd a := fun a ha =>
    crcShown_rd_ne b n r (crcReg_not_shown n a (List.mem_cons_of_mem _ ha))
  rw [crcSame, crcSame, crcWidth_congr (hkept _ (by simp)), Blk.rd64_congr (hkept _ (by simp)) (hkept _ (by simp))]

theorem crcEnd_eq : crcEnd b n =
    { crcReloaded (crcClosed b n) n with crcCount := Tab.upd 0 (crcReloaded (crcClosed b n) n).crcCount n 0 } := by
  rw [crcClosed, ← crcSame_crcShown]
  rfl

theorem crcClosed_rd_ne {a : Nat} (h : a ∉ crcOutputs n) : (crcClosed b n).rd a = b.rd a := by
  have hjudged : a ∉ [Reg.CRC_n_STATUS n, Reg.CRC_n_MISMATCHES n, Reg.CRC_INT_STATUS] := mt (crcJudgedReg_output n a) h
  rw [crcClosed, crcJudged_rd_ne _ _ _ hjudged, crcShown_rd_ne _ _ _ (mt (crcShownReg_output n a) h)]

theorem crcClosed_rd_input {a : Nat} (h : a ∈ crcInputs n) : (crcClosed b n).rd a = b.rd a :=
  crcClosed_rd_ne b n (crcInputs_not_outputs n a h)

theorem crcClosed_sameButRegs : SameButRegs b (crcClosed b n) := (crcShown_sameButRegs b n _).trans (crcJudged_sameButRegs _ n _)

theorem crcReloaded_rd_ne {a : Nat} (hlo : a ≠ Reg.CRC_n_VALUE_LO n) (hhi : a ≠ Reg.CRC_n_VALUE_HI n) :
    (crcReloaded b n).rd a = b.rd a := by
  rw [crcReloaded]
  split
  · exact crcRun_rd_ne _ hlo hhi
  · rfl

theorem crcEnd_rd (a : Nat) : (crcEnd b n).rd a = (crcReloaded (crcClosed b n) n).rd a := by rw [crcEnd_eq]; rfl

theorem crcEnd_rd_closed {a : Nat} (hlo : a ≠ Reg.CRC_n_VALUE_LO n) (hhi : a ≠ Reg.CRC_n_VALUE_HI n) :
    (crcEnd b n).rd a = (crcClosed b n).rd a := (crcEnd_rd b n a).trans (crcReloaded_rd_ne _ n hlo hhi)

theorem crcEnd_rd_ne {a : Nat} (h : a ∉ crcOutputs n ++ [Reg.CRC_n_VALUE_LO n, Reg.CRC_n_VALUE_HI n]) : (crcEnd b n).rd a = b.rd a := by
  obtain ⟨hout, hvalue⟩ := not_or.mp (mt List.mem_append.mpr h)
  obtain ⟨hlo, hhi⟩ : a ≠ Reg.CRC_n_VALUE_LO n ∧ a ≠ Reg.CRC_n_VALUE_HI n := by simpa using hvalue
  rw [crcEnd_rd_closed b n hlo hhi, crcClosed_rd_ne b n hout]

/-- What the comparison and AUTO_INIT do not write is as the end has shown it. -/
theorem crcEnd_rd_shown {a : Nat} (h : a ∉ crcLaterRegs n) : (crcEnd b n).rd a = (crcShown b n (crcEndResult b n)).rd a := by
  obtain ⟨hlo, hhi, hjudged⟩ : a ≠ Reg.CRC_n_VALUE_LO n ∧ a ≠ Reg.CRC_n_VALUE_HI n ∧
      a ∉ [Reg.CRC_n_STATUS n, Reg.CRC_n_MISMATCHES n, Reg.CRC_INT_STATUS] := by simpa using h
  rw [crcEnd_rd_closed b n hlo hhi, crcClosed, crcJudged_rd_ne _ _ _ hjudged]

/-! ### What the end of a unit leaves in its registers -/

theorem crcEnd_result : (crcEnd b n).rd64 (Reg.CRC_n_RESULT_LO n) (Reg.CRC_n_RESULT_HI n) = crcEndResult b n := by
  rw [Blk.rd64_congr (crcEnd_rd_shown b n (crcReg_not_later n _ (by simp))) (crcEnd_rd_shown b n (crcReg_not_later n _ (by simp))),
    crcShown_result b n _ (crcEndResult_lt b n)]

theorem crcEnd_units : (crcEnd b n).rdN (Reg.CRC_n_UNITS n) = min (2 ^ 32 - 1) (b.rdN (Reg.CRC_n_UNITS n) + 1) := by
  rw [Blk.rdN_congr (crcEnd_rd_shown b n (crcReg_not_later n _ (by simp))), crcShown_units]

theorem crcEnd_int (j : Nat) : (crcEnd b n).flag Reg.CRC_INT_STATUS j = (crcClosed b n).flag Reg.CRC_INT_STATUS j :=
  Blk.flag_congr (crcEnd_rd_closed b n (crcShared_ne (by decide)) (crcShared_ne (by decide))) j

theorem crcEnd_done : (crcEnd b n).flag Reg.CRC_INT_STATUS (8 + n) = true := by
  rw [crcEnd_int, crcClosed, crcJudged_int_ne _ (by omega) _ (by omega), crcShown_done b n _ n.isLt]

theorem crcShown_flag_cfg (r i : Nat) : (crcShown b n r).flag (Reg.CRC_n_CFG n) i = b.flag (Reg.CRC_n_CFG n) i :=
  Blk.flag_congr (crcShown_rd_ne b n r (crcReg_not_shown n _ (by simp))) i

theorem crcEnd_status (hcompare : b.flag (Reg.CRC_n_CFG n) 10 = true) {i : Nat} (hi : i < 2) :
    (crcEnd b n).flag (Reg.CRC_n_STATUS n) i = bit (2 + b2n (crcSame b n (crcEndResult b n))) i := by
  rw [Blk.flag_congr (crcEnd_rd_closed b n (crcReg_ne (by decide)) (crcReg_ne (by decide))), crcClosed,
    crcJudged_status ((crcShown_flag_cfg b n _ 10).trans hcompare) hi]

theorem crcShown_rd_mismatches (r : Nat) : (crcShown b n r).rd (Reg.CRC_n_MISMATCHES n) = b.rd (Reg.CRC_n_MISMATCHES n) :=
  crcShown_rd_ne b n r (crcReg_not_shown n _ (by simp))

theorem crcEnd_rd_mismatches : (crcEnd b n).rd (Reg.CRC_n_MISMATCHES n) = (crcClosed b n).rd (Reg.CRC_n_MISMATCHES n) :=
  crcEnd_rd_closed b n (crcReg_ne (by decide)) (crcReg_ne (by decide))

theorem crcEnd_mismatches_kept (h : b.flag (Reg.CRC_n_CFG n) 10 = false ∨ crcSame b n (crcEndResult b n) = true) :
    (crcEnd b n).rd (Reg.CRC_n_MISMATCHES n) = b.rd (Reg.CRC_n_MISMATCHES n) := by
  rw [crcEnd_rd_mismatches, crcClosed, crcJudged_mismatches_kept (by rwa [crcShown_flag_cfg]), crcShown_rd_mismatches]

section
variable {b n} (hcompare : b.flag (Reg.CRC_n_CFG n) 10 = true) (hdiffer : crcSame b n (crcEndResult b n) = false)
include hcompare hdiffer

theorem crcEnd_mismatch_raised : (crcEnd b n).flag Reg.CRC_INT_STATUS n = true := by
  rw [crcEnd_int, crcClosed, hdiffer, crcJudged_mismatch_raised ((crcShown_flag_cfg b n _ 10).trans hcompare) (by omega)]

theorem crcEnd_mismatch_counted :
    (crcEnd b n).rdN (Reg.CRC_n_MISMATCHES n) = min (2 ^ 32 - 1) (b.rdN (Reg.CRC_n_MISMATCHES n) + 1) := by
  rw [Blk.rdN_congr (crcEnd_rd_mismatches b n), crcClosed, hdiffer,
    crcJudged_mismatch_counted ((crcShown_flag_cfg b n _ 10).trans hcompare), Blk.rdN_congr (crcShown_rd_mismatches b n _)]

end

/-! ### AUTO_INIT -/

theorem crcClosed_flag_cfg (i : Nat) : (crcClosed b n).flag (Reg.CRC_n_CFG n) i = b.flag (Reg.CRC_n_CFG n) i :=
  Blk.flag_congr (crcClosed_rd_input b n (by simp)) i

theorem crcInitial_crcClosed : crcInitial (crcClosed b n) n = crcInitial b n :=
  crcInitial_congr (crcClosed_rd_input b n (by simp)) (crcClosed_rd_input b n (by simp)) (crcClosed_rd_input b n (by simp))

/-- No register is part of whether VALUE has been written in this clock. -/
theorem crcQuiet_crcClosed (h : CrcQuiet b n) : CrcQuiet (crcClosed b n) n := by
  obtain ⟨_, _, _, he⟩ := crcClosed_sameButRegs b n
  rw [he]
  exact h

theorem crcReloaded_crcClosed (hauto : b.flag (Reg.CRC_n_CFG n) 11 = true) :
    crcReloaded (crcClosed b n) n = crcRun (crcClosed b n) n (crcInitial b n) := by
  rw [crcReloaded, if_pos ((crcClosed_flag_cfg b n 11).trans hauto), crcInitial_crcClosed]

theorem crcEnd_running (hauto : b.flag (Reg.CRC_n_CFG n) 11 = true) : crcRunning (crcEnd b n) n = crcInitial b n := by
  have hrunning : crcRunning (crcEnd b n) n = crcRunning (crcReloaded (crcClosed b n) n) n := by rw [crcEnd_eq]; rfl
  rw [hrunning, crcReloaded_crcClosed b n hauto, crcRunning_crcRun (crcInitial_lt b n)]

theorem crcEnd_value (hauto : b.flag (Reg.CRC_n_CFG n) 11 = true) (hquiet : CrcQuiet b n) :
    crcValue (crcEnd b n) n = crcInitial b n := by
  have hvalue : crcValue (crcEnd b n) n = crcValue (crcReloaded (crcClosed b n) n) n :=
    Blk.rd64_congr (crcEnd_rd b n _) (crcEnd_rd b n _)
  rw [hvalue, crcReloaded_crcClosed b n hauto, crcValue_crcRun (crcQuiet_crcClosed b n hquiet) (crcInitial_lt b n)]

theorem crcEnd_rd_not_auto (hauto : b.flag (Reg.CRC_n_CFG n) 11 = false) {a : Nat} (ha : a ∉ crcOutputs n) :
    (crcEnd b n).rd a = b.rd a := by
  have hkept : crcReloaded (crcClosed b n) n = crcClosed b n := if_neg (by rw [crcClosed_flag_cfg, hauto]; exact Bool.false_ne_true)
  rw [crcEnd_rd, hkept, crcClosed_rd_ne b n ha]

/-! ### The command END -/

/-- Unit `n` with what the bytes of the clock would need to reopen the unit that END is about to close (R357). -/
def crcMarked : Blk :=
  { b with crcEnded := Tab.upd none b.crcEnded n (some
      { clock := b.now, value := crcRunning b n, units := b.rd (Reg.CRC_n_UNITS n), mismatches := b.rd (Reg.CRC_n_MISMATCHES n),
        mismatch := b.flag Reg.CRC_INT_STATUS n }) }

theorem crcEndCmd_ignored (h : b.fld (Reg.CRC_n_CFG n) 17 16 ≠ 3 ∨ bit (b.raisedNow Reg.CRC_INT_STATUS) (8 + n) = true) :
    crcEndCmd n b = b := by
  rw [crcEndCmd, crcEndOnce]
  rcases h with hunit | hended
  · rw [if_neg hunit]
  · rw [if_pos hended, ite_self]

theorem crcEndCmd_ends (hunit : b.fld (Reg.CRC_n_CFG n) 17 16 = 3) (hended : bit (b.raisedNow Reg.CRC_INT_STATUS) (8 + n) = false) :
    crcEndCmd n b = crcEnd (crcMarked b n) n := by
  rw [crcEndCmd, if_pos hunit, crcEndOnce, if_neg (Bool.eq_false_iff.mp hended)]
  rfl

end

/-- Settles O33: END is the end of a unit, its result shown, then compared, then INIT loaded, each step writing registers that the others do
not; it starts from the block with the mark that lets the bytes of the clock reopen the unit, which changes no register. INIT is a write of
VALUE. -/
theorem checkValueUnit : Obligations.CheckValueUnit := by
  intro s n hcore cfg ini res quiet same
  refine ⟨fun hquiet => crcRunning_of_quiet hquiet, ?_⟩
  intro ended
  refine ⟨fun h => ?ignored, fun hunit hended => ?ends, ?init⟩
  case ignored => exact exec_onBlk_unchanged hcore rfl (crcEndCmd_ignored s.blk n h)
  case ends =>
    refine answers_onBlk hcore rfl ?_
    rw [crcEndCmd_ends s.blk n hunit hended]
    have hsame : crcSame (crcMarked s.blk n) n (crcEndResult (crcMarked s.blk n) n) = true ↔ same := crcSame_iff _ _ _
    refine ⟨rfl, crcEnd_result _ n, crcEnd_units _ n, crcEnd_done _ n, fun hcompare => ?compared, fun hcompare hdiffer => ?mismatch,
      fun h => ?kept, fun hauto => ?reloads, fun hauto => ?stays, fun a ha => ?frame⟩
    case compared =>
      have hstatus (i : Nat) (hi : i < 2) := crcEnd_status (crcMarked s.blk n) n hcompare hi
      rw [hstatus 1 (by decide), hstatus 0 (by decide), ← hsame]
      cases crcSame (crcMarked s.blk n) n (crcEndResult (crcMarked s.blk n) n) <;> decide
    case mismatch =>
      have hfalse := Bool.eq_false_iff.mpr (mt hsame.mp hdiffer)
      exact ⟨crcEnd_mismatch_raised hcompare hfalse, crcEnd_mismatch_counted hcompare hfalse⟩
    case kept => exact crcEnd_mismatches_kept _ n (h.imp_right hsame.mpr)
    case reloads => exact ⟨crcEnd_running _ n hauto, fun hquiet => crcEnd_value _ n hauto hquiet⟩
    case stays =>
      have hkept : ∀ a ∈ [Reg.CRC_n_VALUE_LO n, Reg.CRC_n_VALUE_HI n], (crcEnd (crcMarked s.blk n) n).rd a = s.blk.rd a :=
        fun a ha => crcEnd_rd_not_auto (crcMarked s.blk n) n hauto (crcValue_not_output n a ha)
      exact ⟨hkept _ (by simp), hkept _ (by simp)⟩
    case frame => exact crcEnd_rd_ne (crcMarked s.blk n) n ha
  case init =>
    exact answers_onBlk hcore rfl ⟨rfl, fun a ha => crcWritten_rd_ne _ ha, crcRunning_crcWritten _,
      crcValue_crcWritten (crcInitial_lt s.blk n)⟩

end Sys2Proof.Machine
end

section
/-!
A full tail stage that moves to the middle (R346; log entry 52) takes the lowest cell that no queue uses. The cells in use are those of every
entry of the Skein table, and a push writes its queue's entry before it looks for a cell.
-/
namespace Sys2Proof.Machine

/-- Queue 3 runs in shared-cell mode and holds seven entries in its two stages, and its table has a second, shadowed entry for it, whose
middle names the lowest cell: a table that is not in canonical form. -/
def twiceListed : State :=
  let b := (((State.reset.blk.wrN Reg.SKN_CTRL 1).wrN (Reg.SKN_Qn_CTRL 3) 1).wrN Reg.SKN_CELLS 64).setFlag Reg.SKN_STATUS 0 true
  { State.reset with blk := { b with
      skn := [(3, { head := [1, 2, 3, 4], tail := [5, 6, 7] }), (3, { mid := [0x10800000] })] } }

theorem twiceListed_not_canonical : Tab.wf (fun _ => {}) twiceListed.blk.skn = false := by decide +kernel

/-- Before the push the shadowed entry's cell counts as used, so that the block of the middle is the second cell. -/
theorem twiceListed_block : sknBlock twiceListed.blk 3 = some 0x10800040 := by decide +kernel

/-- The push writes the queue's entry, which removes both that stood for it, and then the lowest cell is free. -/
theorem twiceListed_push : (sknQ (skeinPush 3 false .cc0 0 twiceListed.mem twiceListed.blk).1 3).mid = [0x10800000] := by decide +kernel

theorem twiceListed_quotaWas : (sknQ twiceListed.blk 3).quotaWas = none := rfl

/-- The queues that an executed push leaves are those that `skeinPush` leaves. -/
theorem sknQ_exec_skeinPush {q : Fin 256} {hostWin : Bool} {who : Requester} {v : Word} {s t : State} (hon : domFor s.blk 1 who = true)
    (hexec : exec (.skeinPush q hostWin who v) s = .next t) (k : Nat) :
    sknQ t.blk k = sknQ (skeinPush q hostWin who v.toNat s.mem s.blk).1 k := by
  have hstep : execSkeinPush q hostWin who v s = .next t := hexec
  rw [execSkeinPush, inDomWrite_on hon, onMem_eq] at hstep
  cases hstep
  rfl

/-- Refutes O32: in a state whose Skein table lists queue 3 twice, the push that fills the tail stage moves it to cell 0 and not to cell 1,
the block of the middle before the push, since the write of the queue's entry removes the shadowed one, and with it the use of cell 0. -/
theorem not_skeinFifo : ¬ Obligations.SkeinFifo := by
  intro h
  have hon : domFor twiceListed.blk 1 .cc0 = true := by decide +kernel
  obtain ⟨hpush, -⟩ := h twiceListed 3 false .cc0 0#32 hon
  obtain ⟨-, hspill⟩ := hpush (by decide +kernel) (by decide +kernel) (by decide +kernel) (by decide +kernel)
    (fun _ _ hwas => absurd (twiceListed_quotaWas.symm.trans hwas) (by simp)) (by decide +kernel) (by decide +kernel)
  obtain ⟨t, hexec, -, hmid, -⟩ := hspill 0x10800040 (by decide +kernel) twiceListed_block
  rw [sknQ_exec_skeinPush hon hexec] at hmid
  exact absurd (twiceListed_push.symm.trans hmid) (by decide)

end Sys2Proof.Machine
end

section
/-!
Kicks of the watchdogs (R368): what a kick answers, by who gives it and what it finds (log entry 44 on ALTERNATE; R405 on the debug port).
-/
namespace Sys2Proof.Machine

/-- Whose kicks watchdog `w` takes: its own core's, and either core's where it is the hardware watchdog. -/
def wdtTakes (w : Nat) (who : Requester) : Bool :=
  if w = 0 then who == .cc0 else if w = 1 then who == .cc1 else who = .cc0 || who = .cc1

theorem wdtTakes_core_iff (c : Fin 2) (who : Requester) : wdtTakes c who = true ↔ who = if c = 0 then .cc0 else .cc1 := by
  fin_cases c <;> simp [wdtTakes]

theorem wdtTakes_hardware_iff (who : Requester) : wdtTakes 2 who = true ↔ who = .cc0 ∨ who = .cc1 := by simp [wdtTakes]

theorem wdtRegs_core (c : Fin 2) : wdtRegs c = (Reg.RST_WDTc_CTRL c, Reg.RST_WDTc_REMAIN c, 1) := if_pos c.isLt

/-! ### A watchdog starts over -/

theorem wdtRestart_enabled {b : Blk} {w : Nat} (hen : b.flag (wdtRegs w).1 0 = true) :
    wdtRestart b w = b.wrN (wdtRegs w).2.1 (max (wdtRegs w).2.2 (b.fld (wdtRegs w).1 31 8)) := if_pos hen

/-- TIMEOUT has 24 bits, so that REMAIN holds it whole, raised to the lowest that counts. -/
theorem wdtTimeout_lt (b : Blk) (ctrl : Nat) {least : Nat} (h : least < 2 ^ 24) : max least (b.fld ctrl 31 8) < 2 ^ 32 := by
  have hfld : b.fld ctrl 31 8 < 2 ^ 24 := bits_lt _ 31 8
  omega

/-! ### The branches of a kick -/

section
variable {b : Blk} {w : Nat} {who : Requester}

theorem wdtKick_shutOut (v : Nat) (hshut : shutOut b who = true) : wdtKick w who v b = b := if_pos hshut

theorem shutOut_of_wdtTakes (b : Blk) (htakes : wdtTakes w who = true) : shutOut b who = false := by
  refine shutOut_of_ne_debug b ?_
  rintro rfl
  simp [wdtTakes] at htakes

theorem wdtKick_bad {v : Nat} (hopen : shutOut b who = false) (hbad : v ≠ 0x7740 ∨ wdtTakes w who = false) :
    wdtKick w who v b = b.count Reg.RST_WDT_BADKICK := by
  have hcounts : (v != 0x7740 || !wdtTakes w who) = true := by simpa using hbad
  exact (if_neg (by simp [hopen])).trans (if_pos hcounts)

/-- A kick that the watchdog takes restarts it, but where the count has ended or ALTERNATE awaits the other core. -/
theorem wdtKick_good (htakes : wdtTakes w who = true) :
    wdtKick w who 0x7740 b =
      if b.flag (wdtRegs w).1 0 && b.rdN (wdtRegs w).2.1 == 0 then b
      else if w < 2 then wdtRestart b w
      else if b.flag Reg.RST_WDTHW_CTRL 1 && b.pwr.kicker == some who then b
      else wdtRestart (b.setPwr { b.pwr with kicker := some who }) 2 := by
  have hgood : ¬ (0x7740 != 0x7740 || !wdtTakes w who) = true := by simp [htakes]
  exact (if_neg (by simp [shutOut_of_wdtTakes b htakes])).trans (if_neg hgood)

theorem wdtKick_late (htakes : wdtTakes w who = true) (hen : b.flag (wdtRegs w).1 0 = true) (hzero : b.rdN (wdtRegs w).2.1 = 0) :
    wdtKick w who 0x7740 b = b := by
  simp [wdtKick_good htakes, hen, hzero]

theorem wdtKick_core (c : Fin 2) (htakes : wdtTakes c who = true) (hleft : b.rdN (Reg.RST_WDTc_REMAIN c) ≠ 0) :
    wdtKick c who 0x7740 b = wdtRestart b c := by
  simp [wdtKick_good htakes, wdtRegs_core, hleft, c.isLt]

theorem wdtKick_repeated (htakes : wdtTakes 2 who = true) (halternate : b.flag Reg.RST_WDTHW_CTRL 1 = true)
    (hkicker : b.pwr.kicker = some who) : wdtKick 2 who 0x7740 b = b := by
  simp [wdtKick_good htakes, halternate, hkicker]

theorem wdtKick_hardware (htakes : wdtTakes 2 who = true) (hleft : b.rdN Reg.RST_WDTHW_REMAIN ≠ 0)
    (hcounts : b.flag Reg.RST_WDTHW_CTRL 1 = false ∨ b.pwr.kicker ≠ some who) :
    wdtKick 2 who 0x7740 b = wdtRestart (b.setPwr { b.pwr with kicker := some who }) 2 := by
  have hother : (b.flag Reg.RST_WDTHW_CTRL 1 && b.pwr.kicker == some who) = false := by
    rcases hcounts with hany | hother
    · simp [hany]
    · simp [hother]
  simp [wdtKick_good htakes, wdtRegs, hleft, hother]

end

/-! ### The command WDT_KICK -/

section
variable {s : State} {w : Fin 3} {who : Requester} {v : Word}

theorem exec_wdtKick_unchanged (h : wdtKick w who v.toNat s.blk = s.blk) : exec (.wdtKick w who v) s = .next s := by
  change onBlk (wdtKick w who v.toNat) s = _
  rw [onBlk_eq, h]

theorem answers_wdtKick {b : Blk} {P : State → Prop} (h : wdtKick w who v.toNat s.blk = b) (hp : P { s with blk := b }) :
    Answers (.wdtKick w who v) s P := ⟨_, rfl, h ▸ hp⟩

theorem answers_wdtKick_bad (hopen : shutOut s.blk who = false) (hbad : v ≠ 0x00007740#32 ∨ wdtTakes w who = false) :
    Answers (.wdtKick w who v) s (fun t => OnlyRegs s t [Reg.RST_WDT_BADKICK] [] ∧
      t.blk.rdN Reg.RST_WDT_BADKICK = min (2 ^ 32 - 1) (s.blk.rdN Reg.RST_WDT_BADKICK + 1)) := by
  have hvalue : v.toNat ≠ 0x7740 ∨ wdtTakes w who = false := hbad.imp_left fun hv he => hv (BitVec.eq_of_toNat_eq he)
  exact answers_wdtKick (wdtKick_bad hopen hvalue)
    ⟨onlyRegs_count s _ 1, by rw [Blk.rdN_count_self, sat32_eq_min]⟩

theorem answers_wdtKick_core (c : Fin 2) (htakes : wdtTakes c who = true) (hen : s.blk.flag (Reg.RST_WDTc_CTRL c) 0 = true)
    (hleft : s.blk.rdN (Reg.RST_WDTc_REMAIN c) ≠ 0) :
    Answers (.wdtKick (c.castLE (by decide)) who 0x00007740#32) s (fun t => OnlyRegs s t [Reg.RST_WDTc_REMAIN c] [] ∧
      t.blk.rdN (Reg.RST_WDTc_REMAIN c) = max 1 (s.blk.fld (Reg.RST_WDTc_CTRL c) 31 8)) := by
  have hrestart := (wdtKick_core c htakes hleft).trans (wdtRestart_enabled (by rwa [wdtRegs_core]))
  rw [wdtRegs_core] at hrestart
  exact answers_wdtKick hrestart ⟨onlyRegs_wr_quiet s _ _, Blk.rdN_wrN_self _ _ (wdtTimeout_lt (least := 1) _ _ (by decide))⟩

theorem answers_wdtKick_hardware (htakes : wdtTakes 2 who = true) (hen : s.blk.flag Reg.RST_WDTHW_CTRL 0 = true)
    (hleft : s.blk.rdN Reg.RST_WDTHW_REMAIN ≠ 0) (hcounts : s.blk.flag Reg.RST_WDTHW_CTRL 1 = false ∨ s.blk.pwr.kicker ≠ some who) :
    Answers (.wdtKick 2 who 0x00007740#32) s (fun t => t.mem = s.mem ∧ t.blk.pwr.kicker = some who ∧
      RegsKept s t [Reg.RST_WDTHW_REMAIN] ∧ t.blk.rdN Reg.RST_WDTHW_REMAIN = max 10 (s.blk.fld Reg.RST_WDTHW_CTRL 31 8)) := by
  have hrestart := (wdtKick_hardware htakes hleft hcounts).trans (wdtRestart_enabled hen)
  exact answers_wdtKick hrestart ⟨rfl, rfl, fun _ ha => Blk.rd_wrN_ne _ _ (List.ne_of_not_mem_cons ha),
    Blk.rdN_wrN_self _ _ (wdtTimeout_lt _ _ (by decide))⟩

end

/-- Settles O34: a kick of the wrong value or of a requester whose kicks the watchdog does not take is counted; one that it takes changes
nothing where the count is at 0 or ALTERNATE awaits the other core, and restarts an enabled watchdog otherwise. -/
theorem watchdogKicks : Obligations.WatchdogKicks := by
  intro s who v bad
  have hforeign (w : Fin 3) (h : ¬ wdtTakes w who = true) : bad w :=
    fun hopen => answers_wdtKick_bad hopen (.inr (Bool.eq_false_iff.mpr h))
  refine ⟨fun hshut w => exec_wdtKick_unchanged (wdtKick_shutOut _ hshut), fun hv w hopen => answers_wdtKick_bad hopen (.inl hv),
    fun h => hforeign 0 (mt (wdtTakes_core_iff 0 who).mp h), fun h => hforeign 1 (mt (wdtTakes_core_iff 1 who).mp h),
    fun h0 h1 => hforeign 2 fun h => ((wdtTakes_hardware_iff who).mp h).elim h0 h1, fun c hwho hv hen => ?core, fun hwho hv hen => ?hardware⟩
  case core =>
    subst hv
    have htakes := (wdtTakes_core_iff c who).mpr hwho
    refine ⟨fun hzero => exec_wdtKick_unchanged ?_, fun hleft => answers_wdtKick_core c htakes hen hleft⟩
    exact wdtKick_late (w := c) htakes (by rwa [wdtRegs_core]) (by rwa [wdtRegs_core])
  case hardware =>
    subst hv
    have htakes := (wdtTakes_hardware_iff who).mpr hwho
    exact ⟨fun hzero => exec_wdtKick_unchanged (wdtKick_late htakes hen hzero),
      fun halternate hkicker => exec_wdtKick_unchanged (wdtKick_repeated htakes halternate hkicker),
      fun hleft hcounts => answers_wdtKick_hardware htakes hen hleft hcounts⟩

end Sys2Proof.Machine
end

section
/-!
The shapes of the commands: every command that can be given is a change of the block, of cells of memory or of wiped ranges, behind the gates
of its domain and its requester. What every step keeps follows from the shape (log entries 1 and 4).
-/
namespace Sys2Proof.Machine

/-- The shape of an answer on `s`: gates around one change of the block; `stores` says whether the change may reach memory. -/
inductive Shaped (s : State) : Bool → Result → Prop
  | block (f : Blk → Blk) : Shaped s false (onBlk f s)
  | view (f : Mem → Blk → Blk) : Shaped s false (onView f s)
  | cells (f : Mem → Blk → Blk × List Host.Cell) : Shaped s true (onMem f s)
  | wipe (f : Mem → Blk → Blk × List (Nat × Nat)) : Shaped s true (onWipe f s)
  | domain (d : Nat) {stores : Bool} {act : State → Result} : Shaped s stores (act s) → Shaped s stores (inDom d act s)
  | trigger (d : Nat) (who : Requester) {stores : Bool} {act : State → Result} :
      Shaped s stores (act s) → Shaped s stores (inDomBy d who act s)
  | read (d : Nat) (who : Requester) (a : Nat) {stores : Bool} {act : State → Result} :
      Shaped s stores (act s) → Shaped s stores (inDomRead d who a act s)
  | write (d : Nat) (who : Requester) (a : Nat) {stores : Bool} {act : State → Result} :
      Shaped s stores (act s) → Shaped s stores (inDomWrite d who a act s)
  | firmware {stores : Bool} {act : State → Result} : Shaped s stores (act s) → Shaped s stores (inFw act s)

namespace Shaped
variable {s : State} {stores : Bool} {o : Result}

theorem keeps (h : Shaped s stores o) : Keeps o s := by
  induction h with
  | block f => exact keeps_onBlk f s
  | view f => exact keeps_onView f s
  | cells f => exact keeps_onMem f s
  | wipe f => exact keeps_onWipe f s
  | domain d _ ih => exact keeps_inDom d ih
  | trigger d who _ ih => exact keeps_inDomBy d who ih
  | read d who a _ ih => exact keeps_inDomRead d who a ih
  | write d who a _ ih => exact keeps_inDomWrite d who a ih
  | firmware _ ih => exact keeps_inFw ih

theorem goes (h : Shaped s stores o) : Goes o := by
  induction h with
  | block f => exact ⟨_, rfl⟩
  | view f => exact ⟨_, rfl⟩
  | cells f => exact ⟨_, rfl⟩
  | wipe f => exact ⟨_, rfl⟩
  | domain d _ ih => unfold inDom; split <;> [exact ih; exact ⟨_, rfl⟩]
  | trigger d who _ ih => unfold inDomBy; split <;> [exact ih; exact ⟨_, rfl⟩]
  | read d who a _ ih => unfold inDomRead; split <;> [exact ih; exact ⟨_, rfl⟩]
  | write d who a _ ih => unfold inDomWrite; split <;> [exact ih; exact ⟨_, rfl⟩]
  | firmware _ ih => unfold inFw; split <;> [exact ih; exact ⟨_, rfl⟩]

/-- A shape without stores leaves the memory of every next state alone. -/
theorem mem_of_quiet (h : Shaped s false o) : ∀ t, o = .next t → t.mem = s.mem := by
  generalize hq : false = stores at h
  induction h with
  | block f => rintro t ⟨⟩; rfl
  | view f => rintro t ⟨⟩; rfl
  | cells f => cases hq
  | wipe f => cases hq
  | domain d _ ih => unfold inDom; split <;> [exact ih hq; (rintro t ⟨⟩; rfl)]
  | trigger d who _ ih => unfold inDomBy; split <;> [exact ih hq; (rintro t ⟨⟩; rfl)]
  | read d who a _ ih => unfold inDomRead; split <;> [exact ih hq; (rintro t ⟨⟩; rfl)]
  | write d who a _ ih => unfold inDomWrite; split <;> [exact ih hq; (rintro t ⟨⟩; rfl)]
  | firmware _ ih => unfold inFw; split <;> [exact ih hq; (rintro t ⟨⟩; rfl)]

end Shaped

theorem exec_shaped {i : Instr} (s : State) (hw : i.wellFormed = true) : Shaped s (canStore i) (exec i s) := by
  cases i
  case dmaError n code late addr sgDone host fixed => rw [exec_dmaError_wellFormed s hw]; exact .domain 1 (.cells _)
  case swatchRunDone n los bins =>
    rw [show exec (.swatchRunDone n los bins) s = _ from if_pos (by simpa [Instr.wellFormed] using hw)]; exact .domain 1 (.block _)
  case drvOffsetEstimate c samples =>
    rw [show exec (.drvOffsetEstimate c samples) s = _ from if_pos (by simpa [Instr.wellFormed] using hw)]; exact .domain 1 (.block _)
  case strandRxLosRelease rx =>
    cases rx with
    | port n => exact .domain _ (.block _)
    | node _ _ _ => exact .block id
  case trunkLinkUp p speedOk => exact .block (fun b => if domOn b 3 then portUp p speedOk b else wakeLink p true b)
  case trunkLinkDown p => exact .block (fun b => if domOn b 3 then portDown b p else wakeLink p false b)
  case rstNHigh => exact .block (fun b => b.setPwr { b.pwr with rstLow := false })
  -- Every other command is its gates around its change, which the constructors of `Shaped` follow.
  all_goals repeat' constructor

/-- The three commands whose operands can fail to come together fault by name where they do (log entry 1). -/
theorem exec_illFormed {i : Instr} (s : State) (hw : i.wellFormed = false) : ∃ name, exec i s = .fault (.illFormed name) := by
  cases i
  case dmaError n code late addr sgDone host fixed =>
    have hbad : (code.val = 0 || code.val = 7 || 8 < code.val || (late && code.val != 2)) = true := by
      cases late <;> simpa [Instr.wellFormed, dmaErrorOk, imp_iff_not_or, or_assoc] using hw
    exact ⟨_, if_pos hbad⟩
  case swatchRunDone n los bins => exact ⟨_, if_neg (by simpa [Instr.wellFormed] using hw)⟩
  case drvOffsetEstimate c samples => exact ⟨_, if_neg (by simpa [Instr.wellFormed] using hw)⟩
  all_goals cases hw

/-- What a command answers, it answers with the queue as it was and the memory in its canonical form. -/
theorem exec_keeps (i : Instr) (s : State) : Keeps (exec i s) s := by
  cases hw : i.wellFormed with
  | true => exact (exec_shaped s hw).keeps
  | false => obtain ⟨name, h⟩ := exec_illFormed s hw; rw [h]; exact keeps_fault _ s

theorem step_empty {s : State} (h : s.pending = []) : step s = onMem fabTick s := by rw [step, h]

theorem step_cons {s : State} {c : Instr} {cs : List Instr} (h : s.pending = c :: cs) : step s = exec c { s with pending := cs } := by
  rw [step, h]

/-- Settles O1: a step is one of the two branches of `step`, the idle one being `onMem` of a fabric clock. -/
theorem stepRunsFront : Obligations.StepRunsFront := ⟨fun _ _ _ => step_cons rfl, fun _ h => step_empty h⟩

/-- Settles O5: the state that a step hands to `exec` has the memory of the one before it, and `exec` and the clock keep its form. -/
theorem memoryFormKept : Obligations.MemoryFormKept := by
  intro s t hwf hstep
  cases hq : s.pending with
  | nil => exact (keeps_onMem fabTick s).mem hwf t (step_empty hq ▸ hstep)
  | cons c cs => exact (exec_keeps c { s with pending := cs }).mem hwf t (step_cons hq ▸ hstep)

/-- Settles O4: `exec` keeps the queue of the state it is given, which is the rest of the queue; the idle clock keeps the empty one. -/
theorem stepTakesOne : Obligations.StepTakesOne := by
  intro s t hstep
  cases hq : s.pending with
  | nil => exact ((keeps_onMem fabTick s).queue t (step_empty hq ▸ hstep)).trans hq
  | cons c cs => exact (exec_keeps c { s with pending := cs }).queue t (step_cons hq ▸ hstep)

/-- Settles O6: a command that can be given has a shape, which answers; the others fault by name; so a step faults at an ill-formed front
alone. -/
theorem wellFormedGoes : Obligations.WellFormedGoes := by
  refine ⟨fun i s hw => (exec_shaped s hw).goes, fun i s hw => exec_illFormed s hw, fun s hok => ?_⟩
  cases hq : s.pending with
  | nil => exact ⟨_, step_empty hq⟩
  | cons c cs =>
    have hc : c.wellFormed = true := by
      rw [State.queueOk, hq] at hok
      exact List.all_eq_true.mp hok c List.mem_cons_self
    exact step_cons hq ▸ (exec_shaped _ hc).goes

/-- Settles O10: a command that cannot store has a shape without stores, or answers no next state. -/
theorem memoryUntouched : Obligations.MemoryUntouched := by
  intro i s t hstore hnext
  have hmem : t.mem = s.mem := by
    cases hw : i.wellFormed with
    | true => exact (hstore ▸ exec_shaped s hw).mem_of_quiet t hnext
    | false => obtain ⟨name, h⟩ := exec_illFormed s hw; rw [h] at hnext; cases hnext
  exact ⟨hmem, fun a => by rw [hmem]⟩

end Sys2Proof.Machine
end


section
/-!
Each row of the opcode table answers with its effect (tables of chapters 1 to 16): behind the gate that its row names, the effect is the
one the statement gives, so that an open gate is all there is to show.
-/
namespace Sys2Proof.Machine

/-- Settles O42: the register accesses and a finished wipe have no gate of their own; the three events of the fabric stand behind CORE. -/
theorem registerAndFabricRows : Obligations.RegisterAndFabricRows :=
  ⟨fun _ _ _ _ _ => rfl, fun _ _ _ => rfl, fun _ _ => inDom_on, fun _ _ _ _ => inDom_on, fun _ _ => rfl, fun _ _ => inDom_on⟩

/-- Settles O43: SET, STEP and OFFSET stand behind the gate of their requester, a pop behind that of its read, the events behind their
domain. -/
theorem timeBaseRows : Obligations.TimeBaseRows :=
  ⟨fun _ _ _ => inDomBy_on, fun _ _ _ => inDomBy_on, fun _ _ => inDom_on, fun _ _ => inDom_on, fun _ _ _ _ => inDomBy_on,
   fun _ _ => inDom_on, fun _ _ => inDom_on, fun _ _ => inDom_on, fun _ _ => inDom_on, fun _ _ => inDom_on, fun _ _ _ => inDomRead_on,
   fun _ _ => inDom_on⟩

/-- Settles O44: every row stands behind MER but the two of Bearings, which firmware makes. -/
theorem meridianRows : Obligations.MeridianRows :=
  ⟨fun _ _ _ => inDom_on, fun _ _ => inDom_on, fun _ _ _ => inDom_on, fun _ _ _ => inDom_on, fun _ _ _ => inDom_on, fun _ _ => inDom_on,
   fun _ _ _ => inDom_on, fun _ _ => inDom_on, fun _ _ => inDom_on, fun _ _ hfw h => (inFw_on hfw).trans (inDom_on h),
   fun _ _ => inFw_on, fun _ _ => inDom_on, fun _ _ => inDom_on, fun _ _ _ => inDom_on, fun _ _ => inDom_on, fun _ _ => inDom_on,
   fun _ _ => inDom_on, fun _ _ => inDom_on⟩

/-- Settles O45: every row stands behind MER, a pop of a capture queue behind the gate of its read. -/
theorem waypointRows : Obligations.WaypointRows :=
  ⟨fun _ => inDom_on, fun _ => inDom_on, fun _ => inDom_on, fun _ => inDom_on, fun _ _ => inDom_on, fun _ _ => inDom_on,
   fun _ _ => inDom_on, fun _ _ => inDom_on, fun _ _ => inDom_on, fun _ _ _ _ => inDom_on, fun _ _ _ => inDomRead_on,
   fun _ _ _ => inDom_on⟩

/-- Settles O46: each row stands behind its domain, CANVAS or TRUNK. -/
theorem canvasRows : Obligations.CanvasRows := by and_intros <;> intros <;> exact inDom_on ‹_›

/-- Settles O47: each row stands behind its domain, STITCH but for TRACE_CLEAR. -/
theorem stitchRows : Obligations.StitchRows := by and_intros <;> intros <;> exact inDom_on ‹_›

/-- Settles O48: a row of a port stands behind the port's domain; those of nodes and receivers have no gate. -/
theorem strandRows : Obligations.StrandRows :=
  ⟨fun _ _ _ _ => inDom_on, fun _ _ _ _ => inDom_on, fun _ _ => inDom_on, fun _ _ => inDom_on, fun _ _ _ _ => inDom_on,
   fun _ _ => inDom_on, fun _ _ => inDom_on, fun _ _ => inDom_on, fun _ _ => inDom_on, fun _ _ => inDom_on, fun _ _ => inDom_on,
   fun _ _ => inDom_on, fun _ _ => inDom_on, fun _ _ _ => inDom_on, fun _ _ => rfl, fun _ _ _ _ _ _ => rfl, fun _ _ _ => rfl,
   fun _ _ _ _ => rfl, fun _ _ _ => rfl, fun _ _ _ => rfl, fun _ _ _ => rfl, fun _ _ _ => rfl, fun _ _ _ => rfl⟩

/-- Settles O49: each row stands behind its domain, the port's or TRUNK. -/
theorem alternateFunctionRows : Obligations.AlternateFunctionRows := by and_intros <;> intros <;> exact inDom_on ‹_›

/-- Settles O50: each row stands behind DRIVE. -/
theorem driveRows : Obligations.DriveRows := by and_intros <;> intros <;> exact inDom_on ‹_›

/-- Settles O51: every row stands behind TRUNK but the two of links, whose effect looks at the domain itself. -/
theorem trunkRows : Obligations.TrunkRows :=
  ⟨fun _ _ _ _ _ _ => inDom_on, fun _ _ _ _ _ _ => inDom_on, fun _ _ _ => rfl, fun _ _ => rfl, fun _ _ _ => inDom_on,
   fun _ _ _ => inDom_on, fun _ _ => inDom_on, fun _ _ => inDom_on, fun _ _ => inDom_on, fun _ => inDom_on, fun _ _ => inDom_on,
   fun _ _ => inDom_on, fun _ _ _ _ _ => inDom_on, fun _ _ => inDom_on, fun _ _ => inDom_on, fun _ _ _ => inDom_on, fun _ _ => inDom_on,
   fun _ _ _ _ _ => inDom_on⟩

/-- Settles O52: each row stands behind CORE. -/
theorem pairRows : Obligations.PairRows := by and_intros <;> intros <;> exact inDom_on ‹_›

/-- Settles O53: accesses stand behind the gate of their requester, events of CORE behind CORE; those of PCIe and QSPI have no gate. -/
theorem mailboxAndHostRows : Obligations.MailboxAndHostRows :=
  ⟨fun _ _ _ _ _ => inDomWrite_on, fun _ _ _ _ => inDomWrite_on, fun _ _ => inDom_on, fun _ _ => inDom_on, fun _ _ _ => inDomRead_on,
   fun _ _ _ _ => inDomBy_on, fun _ _ _ => inDomBy_on, fun _ _ _ => rfl, fun _ _ _ => rfl, fun _ => rfl, fun _ => rfl, fun _ => rfl,
   fun _ => rfl, fun _ _ => rfl, fun _ _ _ _ _ => rfl, fun _ _ _ _ _ => rfl, fun _ => rfl⟩

/-- Settles O54: each row stands behind CORE, DMA_ERROR where its cause is one that the table gives it. -/
theorem dmaRows : Obligations.DmaRows :=
  ⟨fun _ _ => inDom_on, fun _ _ _ _ => inDom_on, fun _ _ _ => inDom_on, fun _ _ _ => inDom_on, fun _ _ => inDom_on, fun _ => inDom_on,
   fun _ _ _ _ => inDom_on, fun _ _ _ _ => inDom_on, fun _ _ _ _ => inDom_on,
   fun _ _ _ _ _ _ _ s hok h => (exec_dmaError_wellFormed s hok).trans (inDom_on h), fun _ _ _ _ _ _ => inDom_on⟩

/-- Settles O55: a push and a pop stand behind the gates of their accesses, the other rows behind CORE. -/
theorem skeinAndCheckValueRows : Obligations.SkeinAndCheckValueRows :=
  ⟨fun _ _ _ _ _ => inDomWrite_on, fun _ _ _ _ => inDomRead_on, fun _ _ _ _ => inDom_on, fun _ _ _ => inDom_on, fun _ _ => inDom_on,
   fun _ => inDom_on, fun _ _ => inDom_on, fun _ _ => inDom_on, fun _ => inDom_on⟩

/-- Settles O56: no row but RESET_FRAME_CHECK has a gate: they are AON's. -/
theorem powerAndResetRows : Obligations.PowerAndResetRows :=
  ⟨fun _ _ => rfl, fun _ => rfl, fun _ _ => rfl, fun _ _ => rfl, fun _ _ => rfl, fun _ => rfl, fun _ => rfl, fun _ _ _ _ => rfl,
   fun _ _ => rfl, fun _ _ _ _ => rfl, fun _ _ => rfl, fun _ => rfl, fun _ => rfl, fun _ => inDom_on, fun _ _ => rfl, fun _ _ _ => rfl,
   fun _ => rfl, fun _ => rfl, fun _ _ _ _ _ => rfl, fun _ _ => rfl, fun _ => rfl, fun _ => rfl, fun _ => rfl, fun _ => rfl,
   fun _ => rfl, fun _ => rfl, fun _ _ => rfl, fun _ _ => rfl, fun _ => rfl, fun _ => rfl⟩

/-- Settles O57: the rows of the FWU block stand behind CORE, the steps of the ROM behind nothing. -/
theorem firmwareImageRows : Obligations.FirmwareImageRows :=
  ⟨fun _ _ _ => rfl, fun _ _ => inDom_on, fun _ => inDom_on, fun _ _ => inDom_on, fun _ _ => inDom_on, fun _ _ => inDom_on,
   fun _ _ => inDom_on, fun _ => inDom_on, fun _ => inDom_on, fun _ _ => inDom_on, fun _ _ => inDom_on, fun _ _ => inDom_on,
   fun _ => inDom_on, fun _ => inDom_on, fun _ _ => inDom_on, fun _ _ => inDom_on, fun _ _ => inDom_on, fun _ _ => rfl, fun _ => rfl,
   fun _ => rfl, fun _ => rfl, fun _ => rfl, fun _ => rfl, fun _ => rfl, fun _ => rfl, fun _ _ => inDom_on⟩

/-- Settles O58: the rows stand behind their domain, those with a list once its length is a run's; a flush and a node's receiver have no
gate. -/
theorem lifelogAndSwatchRows : Obligations.LifelogAndSwatchRows :=
  ⟨fun _ => inDom_on, fun _ => rfl, fun _ _ => inDom_on, fun _ _ _ _ hl h => (if_pos hl).trans (inDom_on h),
   fun _ _ _ hl h => (if_pos hl).trans (inDom_on h), fun _ _ => inDom_on, fun _ _ _ => inDom_on, fun _ _ _ _ => inDom_on,
   fun _ => inDom_on, fun _ _ => inDom_on, fun _ _ _ _ => rfl⟩

/-- Settles O59: each event stands behind firmware's control tasks. -/
theorem firmwareEventRows : Obligations.FirmwareEventRows := by and_intros <;> intros <;> exact inFw_on ‹_›

end Sys2Proof.Machine
end


section
/-!
Reset: what the machine holds right after it.
-/
namespace Sys2Proof.Machine

/-- Settles O2: nothing is listed after reset, so that each claim is of an empty list. -/
theorem resetHoldsForm : Obligations.ResetHoldsForm := ⟨rfl, rfl, rfl, rfl, rfl, rfl, rfl, rfl⟩

theorem rd_reset (a : Nat) : State.reset.blk.rd a = Reg.resetAt a := rfl

/-- Settles O3: after reset no register is listed, so that each holds the value of its row of the register map. -/
theorem resetRegisters : Obligations.ResetRegisters := by
  simp only [Obligations.ResetRegisters, rd_reset]
  and_intros <;> decide +kernel

end Sys2Proof.Machine
end


section
/-!
Fuses: the anti-rollback counter (R385) and the root keys' revoke bits (R384).
-/
namespace Sys2Proof.Machine

/-! ### The anti-rollback counter (R385) -/

section
variable {b : Blk} {v : Nat}

theorem rollbackSet_of_low (h : min 64 (v % 128) ≤ b.otp.rollback) : rollbackSet v b = b := if_pos h

theorem rollbackSet_of_high (h : b.otp.rollback < min 64 (v % 128)) : rollbackSet v b =
    { b with otp := { b.otp with rollback := min 64 (v % 128) } }.wrN Reg.FWU_ROLLBACK (min 64 (v % 128)) := if_neg (Nat.not_le.mpr h)

end

/-! ### Root keys revoked (R384) -/

theorem rootKeyGood_iff (b : Blk) (k : Nat) :
    rootKeyGood b k = true ↔ k < 4 ∧ bit b.otp.rootKeys k = true ∧ bit b.otp.revoked k = false := by
  simp [rootKeyGood, and_assoc]

section
variable {b : Blk} {v : Nat}

theorem otpRevoke_without_key (h : bits v 31 16 ≠ 0x7740) : otpRevoke v b = b := if_pos (by simpa using h)

/-- A key other than the one named is programmed and not revoked. -/
theorem other_rootKeyGood_iff (b : Blk) (k : Nat) : (List.range 4).any (fun j => j != k && rootKeyGood b j) = true ↔
    ∃ j, j < 4 ∧ j ≠ k ∧ bit b.otp.rootKeys j = true ∧ bit b.otp.revoked j = false := by
  simp [rootKeyGood_iff]
  grind

theorem otpRevoke_of_last (hkey : bits v 31 16 = 0x7740) (hlast : (List.range 4).any (fun j => j != v % 4 && rootKeyGood b j) = false) :
    otpRevoke v b = b.irq Reg.FWU_INT_STATUS 6 := by
  simp [otpRevoke, hkey, hlast]

theorem otpRevoke_of_other (hkey : bits v 31 16 = 0x7740) (hother : (List.range 4).any (fun j => j != v % 4 && rootKeyGood b j) = true) :
    otpRevoke v b = { b with otp := { b.otp with revoked := b.otp.revoked ||| 2 ^ (v % 4) } }.wrN Reg.FWU_OTP_KEYS
      (b.otp.rootKeys + 16 * (b.otp.revoked ||| 2 ^ (v % 4))) := by
  rw [otpRevoke, if_neg (by simpa using hkey), if_neg (by rw [hother]; decide)]

end

/-- Settles O36: each write has a branch that changes nothing, and one that writes the fuse word and the register that shows it. -/
theorem fusesOnlyRise : Obligations.FusesOnlyRise := by
  intro s v hon target key good
  have htarget : target < 2 ^ 32 := by omega
  refine ⟨fun hlow => exec_onBlk_unchanged hon rfl (rollbackSet_of_low hlow), fun hhigh => ?_,
    fun hkey => exec_onBlk_unchanged hon rfl (otpRevoke_without_key hkey), fun hkey hlast => ?_, fun hkey hother => ?_⟩
  · refine answers_onBlk hon rfl ?_
    rw [rollbackSet_of_high hhigh]
    exact ⟨rfl, fun a ha => Blk.rd_wrN_ne _ _ (by simpa using ha), Blk.rdN_wrN_self _ _ htarget, rfl⟩
  · refine answers_onBlk hon rfl ?_
    rw [otpRevoke_of_last hkey (Bool.eq_false_iff.mpr fun h => hlast ((other_rootKeyGood_iff _ _).mp h))]
    exact ⟨onlyRegs_irq s _ 6, Blk.rdN_irq_self _ _ 6 (by decide)⟩
  · refine answers_onBlk hon rfl ?_
    rw [otpRevoke_of_other hkey ((other_rootKeyGood_iff _ _).mpr hother)]
    exact ⟨rfl, rfl, fun a ha => Blk.rd_wrN_ne _ _ (by simpa using ha)⟩

end Sys2Proof.Machine
end


section
/-!
User keys (R406): the slot a key command names, the key an incoming write spells out of the data registers, and what each command leaves in the slots.
-/
namespace Sys2Proof.Machine

theorem leNat_append (xs ys : List Byte) : leNat (xs ++ ys) = leNat xs + 256 ^ xs.length * leNat ys := by
  induction xs with
  | nil => simp [leNat]
  | cons x xs ih => rw [List.cons_append, leNat, ih, leNat, List.length_cons]; ring

theorem length_toLE (k n : Nat) : (toLE k n).length = k := by
  induction k generalizing n with
  | zero => rfl
  | succ k ih => rw [toLE, List.length_cons, ih]

theorem leNat_toLE (k n : Nat) : leNat (toLE k n) = n % 256 ^ k := by
  induction k generalizing n with
  | zero => simp [toLE, leNat, Nat.mod_one]
  | succ k ih =>
    have hbyte : (BitVec.ofNat 8 n).toNat = n % 256 := BitVec.toNat_ofNat n 8
    rw [toLE, leNat, ih, hbyte, Nat.pow_succ', Nat.mod_mul]

/-- The four words of a clear key, word 0 least significant. -/
theorem keyData_four (b : Blk) : keyData b 4 = b.rdN (Reg.FWU_KEY_DATAx 0) + 2 ^ 32 * b.rdN (Reg.FWU_KEY_DATAx 1)
    + 2 ^ 64 * b.rdN (Reg.FWU_KEY_DATAx 2) + 2 ^ 96 * b.rdN (Reg.FWU_KEY_DATAx 3) := by
  have hword (a : Nat) : leNat (toLE 4 (b.rdN a)) = b.rdN a := by rw [leNat_toLE]; exact Nat.mod_eq_of_lt (b.rdN_lt a)
  have hlist : (List.range 4).flatMap (fun j => toLE 4 (b.rdN (Reg.FWU_KEY_DATAx j))) =
      toLE 4 (b.rdN (Reg.FWU_KEY_DATAx 0)) ++ (toLE 4 (b.rdN (Reg.FWU_KEY_DATAx 1)) ++ (toLE 4 (b.rdN (Reg.FWU_KEY_DATAx 2))
        ++ toLE 4 (b.rdN (Reg.FWU_KEY_DATAx 3)))) := rfl
  rw [keyData, hlist]
  simp only [leNat_append, length_toLE, hword]
  ring

/-! ### Registers written one after another -/

section
variable {α : Type} {l : List α} {at' val : α → Nat} {b : Blk}

theorem foldl_wrN_rd_ne {a : Nat} (h : ∀ x ∈ l, a ≠ at' x) : (l.foldl (fun b x => b.wrN (at' x) (val x)) b).rd a = b.rd a := by
  induction l generalizing b with
  | nil => rfl
  | cons x xs ih =>
    rw [List.foldl_cons, ih fun y hy => h y (List.mem_cons_of_mem _ hy), Blk.rd_wrN_ne _ _ (h x List.mem_cons_self)]

theorem foldl_wrN_keys : (l.foldl (fun b x => b.wrN (at' x) (val x)) b).keys = b.keys := by
  induction l generalizing b with
  | nil => rfl
  | cons x xs ih => rw [List.foldl_cons, ih, Blk.wrN_keys]

end

/-! ### Key slots (R406) -/

section
variable {b : Blk} {slot : Nat} {k : Option (BitVec 128)}

theorem keyPut_at_self : Tab.at none (keyPut b slot k).keys slot = k := Tab.at_upd_self none b.keys slot k

theorem keyPut_at_ne {j : Nat} (h : j ≠ slot) : Tab.at none (keyPut b slot k).keys j = Tab.at none b.keys j := Tab.at_upd_ne none b.keys k h

end

section
variable {b : Blk} {v : Nat} (m : Mem)

theorem keyWrite_refused (h : keyIncoming b (v % 8) (bit v 4) = none) : keyWrite v m b = (b.setFlag Reg.FWU_KEY_STATUS 9 true, []) := by
  rw [keyWrite, h]

/-- A write that brings the key `k` loads its slot with it and clears FAIL; the words of the store entry are shown beside. -/
theorem keyWrite_loaded {k : BitVec 128} (h : keyIncoming b (v % 8) (bit v 4) = some k) : ∃ c cells, keyWrite v m b = (c, cells) ∧
    c.keys = (keyPut b (v % 8) (some k)).keys ∧ c.flag Reg.FWU_KEY_STATUS 9 = false := by
  refine ⟨_, _, by rw [keyWrite, h], ?_, ?_⟩
  · rw [Blk.setFwu_keys, foldl_wrN_keys, Blk.setFlag_keys]
  · rw [Blk.flag_congr (Blk.rd_congr (Blk.setFwu_regs _ _) _),
      Blk.flag_congr (foldl_wrN_rd_ne fun j _ => Nat.ne_of_lt (Nat.lt_add_right _ (by decide)))]
    exact Blk.flag_setFlag_self _ _ 9 false (by decide)

theorem keyErase_keys : (keyErase v m b).1.keys = (keyPut b (v % 8) none).keys := rfl

theorem keyErase_fail : (keyErase v m b).1.flag Reg.FWU_KEY_STATUS 9 = false := Blk.flag_setFlag_self _ _ 9 false (by decide)

end

section
variable {b : Blk} {slot : Nat}

theorem keyIncoming_refused {wrapped : Bool}
    (h : b.fld Reg.FWU_LC 2 0 = 4 ∨ b.fld Reg.FWU_LC 2 0 = 2 ∧ wrapped = false ∧ (slot ≠ 0 ∨ (Tab.at none b.keys 0).isSome = true)) :
    keyIncoming b slot wrapped = none := by
  rcases h with h | ⟨h, rfl, hslot⟩
  · simp [keyIncoming, h]
  · have hfull : ¬ (slot = 0 ∧ Tab.at none b.keys 0 = none) := by
      rintro ⟨h0, hnone⟩
      rcases hslot with hslot | hslot
      · exact hslot h0
      · simp [hnone] at hslot
    simp [keyIncoming, h, hfull]

theorem keyIncoming_clear (hlc : b.fld Reg.FWU_LC 2 0 ≠ 4) (h : b.fld Reg.FWU_LC 2 0 ≠ 2 ∨ slot = 0 ∧ Tab.at none b.keys 0 = none) :
    keyIncoming b slot false = some (BitVec.ofNat 128 (keyData b 4)) := by
  rcases h with h | ⟨rfl, hnone⟩
  · simp [keyIncoming, hlc, h]
  · simp [keyIncoming, hlc, hnone]

end

/-- A row behind a domain that runs, whose effect is `f` on block and memory, answers the state after `f`. -/
theorem answers_onMem {d : Nat} {f : Mem → Blk → Blk × List Host.Cell} {s : State} {r : Blk × List Host.Cell} {P : State → Prop}
    {i : Instr} (h : domOn s.blk d = true) (he : exec i s = inDom d (onMem f) s) (hf : f s.mem s.blk = r)
    (hp : P { s with blk := r.1, mem := Mem.write s.mem r.2 }) : Answers i s P :=
  ⟨_, by rw [he, inDom_on h, onMem_eq, hf], hp⟩

/-- Settles O37: which writes bring a key is `keyIncoming`'s; one that brings none sets FAIL alone, any other puts its key into the slot. -/
theorem keyWriteRefused : Obligations.KeyWriteRefused := by
  intro s v hon slot lc has
  refine ⟨fun hrefused => ?_, fun hlc hclear hfree => ?_, ?_⟩
  · refine answers_onMem hon rfl (keyWrite_refused s.mem (keyIncoming_refused hrefused)) ⟨?_, ?_⟩
    · exact (onlyRegs_setFld s Reg.FWU_KEY_STATUS 9 9 1)
    · exact Blk.rdN_setFld_self _ _ 9 9 1 (by decide) (by decide)
  · have hkey := keyIncoming_clear hlc hfree
    rw [← hclear, keyData_four] at hkey
    obtain ⟨c, cells, hwrite, hkeys, hfail⟩ := keyWrite_loaded s.mem hkey
    refine answers_onMem (f := keyWrite v.toNat) hon rfl hwrite ?_
    refine ⟨?_, fun k hk => ?_, hfail⟩
    · exact (congrArg (Tab.at none · slot) hkeys).trans keyPut_at_self
    · exact (congrArg (Tab.at none · k) hkeys).trans (keyPut_at_ne hk)
  · exact answers_onMem (f := keyErase v.toNat) hon rfl rfl
      ⟨(congrArg (Tab.at none · slot) (keyErase_keys s.mem)).trans keyPut_at_self,
        fun k hk => (congrArg (Tab.at none · k) (keyErase_keys s.mem)).trans (keyPut_at_ne hk), keyErase_fail s.mem⟩

end Sys2Proof.Machine
end


section
/-!
The Lifelog: the snapshot of the accumulators (R409).
-/
namespace Sys2Proof.Machine

/-- Each snapshot register holds what its accumulator held before this clock; `new` is what this clock added. -/
def lifeShown (l : List Nat) (new : Tab Nat) (b : Blk) : Blk :=
  l.foldl (fun b a => b.wrN a (Tab.get (fun _ => 0) b.life a - Tab.get (fun _ => 0) new a)) b

theorem lifeShown_rd (l : List Nat) (new : Tab Nat) (b : Blk) (c : Nat) : (lifeShown l new b).rd c =
    if c ∈ l then BitVec.ofNat 32 (Tab.get (fun _ => 0) b.life c - Tab.get (fun _ => 0) new c) else b.rd c := by
  induction l generalizing b with
  | nil => rfl
  | cons a as ih =>
    rw [lifeShown, List.foldl_cons]
    refine (ih _).trans ?_
    rw [Blk.wrN_life]
    by_cases hc : c ∈ as
    · simp [hc]
    · by_cases ha : c = a
      · simp [ha]
      · simp [hc, ha, Blk.rd_wrN_ne]

/-- What the accumulators have added in this clock. -/
def lifeAdded (b : Blk) : Tab Nat := if b.lifeNow.1 = b.now then b.lifeNow.2 else []

theorem lifeAdded_get (b : Blk) (a : Nat) :
    Tab.get (fun _ => 0) (lifeAdded b) a = if b.lifeNow.1 = b.now then Tab.get (fun _ => 0) b.lifeNow.2 a else 0 := by
  unfold lifeAdded
  split <;> rfl

theorem logSnap_eq (b : Blk) : logSnap b =
    let c := lifeShown lifeRegs (lifeAdded b) b
    { c with life := lifeAdded b }.setFld Reg.LOG_STATUS 15 0 (c.fld Reg.LOG_STATUS 15 0 + 1) := by
  unfold logSnap lifeShown
  generalize lifeRegs = l
  rfl

theorem rd_withLife (b : Blk) (l : Tab Nat) (a : Nat) : { b with life := l }.rd a = b.rd a := rfl

theorem logSnap_life (b : Blk) : (logSnap b).life = lifeAdded b := by
  rw [logSnap_eq]
  exact Blk.setFld_life ..

theorem logStatus_not_lifeReg : Reg.LOG_STATUS ∉ lifeRegs := by decide +kernel

theorem logSnap_rd_ne (b : Blk) {a : Nat} (h : a ≠ Reg.LOG_STATUS) :
    (logSnap b).rd a = (lifeShown lifeRegs (lifeAdded b) b).rd a := by
  rw [logSnap_eq, Blk.rd_setFld_ne _ _ _ _ h, rd_withLife]

theorem logSnap_rd_lifeReg (b : Blk) {a : Nat} (h : a ∈ lifeRegs) :
    (logSnap b).rd a = BitVec.ofNat 32 (Tab.get (fun _ => 0) b.life a - Tab.get (fun _ => 0) (lifeAdded b) a) := by
  rw [logSnap_rd_ne b (fun he => logStatus_not_lifeReg (he ▸ h)), lifeShown_rd, if_pos h]

theorem logSnap_rd_other (b : Blk) {a : Nat} (h : a ∉ Reg.LOG_STATUS :: lifeRegs) : (logSnap b).rd a = b.rd a := by
  rw [List.mem_cons, not_or] at h
  rw [logSnap_rd_ne b h.1, lifeShown_rd, if_neg h.2]

theorem logSnap_count (b : Blk) : (logSnap b).fld Reg.LOG_STATUS 15 0 = (b.fld Reg.LOG_STATUS 15 0 + 1) % 65536 := by
  have hkept : (lifeShown lifeRegs (lifeAdded b) b).rd Reg.LOG_STATUS = b.rd Reg.LOG_STATUS := by
    rw [lifeShown_rd, if_neg logStatus_not_lifeReg]
  rw [logSnap_eq, ← Blk.fld_congr hkept]
  exact Blk.fld_setFld_self _ _ 15 0 _ (by decide) (by decide)

/-- Settles O39: each register of `lifeRegs` is written with what its accumulator held less what this clock has added. -/
theorem lifelogSnap : Obligations.LifelogSnap := by
  intro s hon new
  have hnew (a : Nat) : Tab.get (fun _ => 0) (lifeAdded s.blk) a = new a := lifeAdded_get s.blk a
  exact answers_onBlk hon rfl ⟨rfl, fun a ha => (logSnap_rd_lifeReg _ ha).trans (by rw [hnew]),
    fun a => (congrArg (Tab.get _ · a) (logSnap_life _)).trans (hnew a), fun _ ha => logSnap_rd_other _ ha, logSnap_count _⟩

end Sys2Proof.Machine
end


section
/-!
The life cycle (R403): its permitted transitions, and that the warm reset which follows a change leaves fuses and key slots as the change made
them (R366).
-/
namespace Sys2Proof.Machine

/-! ### What a reset leaves alone: the fuses and the key slots -/

/-- `c` has the fuses and the key slots of `b`. -/
def KeepsFuses (b c : Blk) : Prop := c.otp = b.otp ∧ c.keys = b.keys

namespace KeepsFuses
variable {b c d : Blk} {a : Nat}

theorem refl (b : Blk) : KeepsFuses b b := ⟨rfl, rfl⟩

theorem trans (h : KeepsFuses b c) (hd : KeepsFuses c d) : KeepsFuses b d := ⟨hd.1.trans h.1, hd.2.trans h.2⟩

theorem of_rfl (ho : c.otp = b.otp) (hk : c.keys = b.keys) : KeepsFuses b c := ⟨ho, hk⟩

theorem wr (a : Nat) (v : Word) (h : KeepsFuses b c) : KeepsFuses b (c.wr a v) := h

theorem wrN (a n : Nat) (h : KeepsFuses b c) : KeepsFuses b (c.wrN a n) := h

theorem setFld (a hi lo v : Nat) (h : KeepsFuses b c) : KeepsFuses b (c.setFld a hi lo v) := h

theorem setFlag (a i : Nat) (v : Bool) (h : KeepsFuses b c) : KeepsFuses b (c.setFlag a i v) := h

theorem count (a n : Nat) (h : KeepsFuses b c) : KeepsFuses b (c.count a n) := h

theorem irq (a i : Nat) (h : KeepsFuses b c) : KeepsFuses b (c.irq a i) := h

theorem emit (o : Output) (h : KeepsFuses b c) : KeepsFuses b (c.emit o) := h

theorem drawn (h : KeepsFuses b c) : KeepsFuses b c.drawn := h

theorem setCal (x : Cal) (h : KeepsFuses b c) : KeepsFuses b (c.setCal x) := h

theorem setPwr (x : Power) (h : KeepsFuses b c) : KeepsFuses b (c.setPwr x) := h

theorem zero (as : List Nat) (h : KeepsFuses b c) : KeepsFuses b (c.zero as) := by rw [Blk.zero_eq]; exact h

theorem ite {p : Prop} [Decidable p] (hc : KeepsFuses b c) (hd : KeepsFuses b d) : KeepsFuses b (if p then c else d) := by
  split
  · exact hc
  · exact hd

theorem foldl {α : Type} {f : Blk → α → Blk} (hf : ∀ b x, KeepsFuses b (f b x)) (l : List α) (b : Blk) : KeepsFuses b (l.foldl f b) :=
  List.foldlRecOn l f (motive := KeepsFuses b) (refl b) (fun c hc x _ => hc.trans (hf c x))

end KeepsFuses

theorem keepsFuses_pinsTo (ps : List Pin) (level : Bool) (b : Blk) : KeepsFuses b (pinsTo b ps level) :=
  .foldl (fun b _ => (KeepsFuses.refl b).emit _) ps b

theorem keepsFuses_padsBack (ns : List Nat) (b : Blk) : KeepsFuses b (padsBack b ns) :=
  .foldl (fun b _ => .ite ((KeepsFuses.refl b).emit _) (.refl b)) ns b

theorem keepsFuses_domPins (b : Blk) (d : Nat) : KeepsFuses b (domPins b d) := by
  unfold domPins
  split
  case h_1 => exact keepsFuses_padsBack _ b
  case h_2 => exact keepsFuses_padsBack _ b
  case h_3 => exact (keepsFuses_pinsTo _ _ b).trans (keepsFuses_pinsTo _ _ _)
  case h_4 => exact keepsFuses_pinsTo _ _ b
  case h_5 => exact .foldl (fun b _ => (KeepsFuses.refl b).emit _) _ b
  case h_6 => exact keepsFuses_pinsTo _ _ b
  case h_7 => exact (KeepsFuses.refl b).emit _
  case h_8 => exact .refl b

/-! ### Jobs of the CAL block end -/

theorem keepsFuses_calEnded (b : Blk) (job code : Nat) : KeepsFuses b (calEnded b job code) :=
  .ite (.irq _ _ (.wrN _ _ (.refl b))) (.irq _ _ (.irq _ _ (.wrN _ _ (.refl b))))

theorem keepsFuses_swEnd (b : Blk) (n code : Nat) (apply : Bool) : KeepsFuses b (swEnd b n code apply) := by
  have hresult : KeepsFuses b ((setSwJob b n none).wrN (Reg.CAL_STRn_RESULT n) code) := .wrN _ _ (.setFlag _ _ _ (.setCal _ (.refl b)))
  exact .trans (.ite hresult (hresult.count _ _)) (keepsFuses_calEnded _ _ _)

theorem keepsFuses_swAbort (b : Blk) (n : Nat) : KeepsFuses b (swAbort b n) := by
  unfold swAbort
  split
  · exact keepsFuses_swEnd b n 4 _
  · exact .refl b

theorem keepsFuses_drvJobAbort (b : Blk) (c : Nat) : KeepsFuses b (drvJobAbort b c) := by
  unfold drvJobAbort
  split
  · exact .trans (.wrN _ _ (.setFlag _ _ _ (.setCal _ (.refl b)))) (keepsFuses_calEnded _ _ _)
  · exact .refl b

theorem keepsFuses_calDomainReset (b : Blk) (d : Nat) : KeepsFuses b (calDomainReset b d) := by
  unfold calDomainReset
  split
  case h_1 => exact .foldl keepsFuses_swAbort _ b
  case h_2 => exact .foldl keepsFuses_swAbort _ b
  case h_3 => exact .trans (.setCal _ (.refl b)) (.foldl keepsFuses_drvJobAbort _ (b.setCal { b.cal with broken := [] }))
  case h_4 => exact .refl b

theorem keepsFuses_phyWritten (b : Blk) (n : Nat) : KeepsFuses b (phyWritten b n) := by
  unfold phyWritten
  extract_lets moved
  have hmoved : KeepsFuses b moved := .ite (.setFld _ _ _ _ (.refl b)) (.refl b)
  exact .setFld _ _ _ _ (.setFld _ _ _ _ (hmoved.setCal _))

theorem keepsFuses_calShow (b : Blk) (d : Nat) : KeepsFuses b (calShow b d) := by
  unfold calShow
  split
  case h_1 => exact .foldl keepsFuses_phyWritten _ b
  case h_2 => exact .foldl keepsFuses_phyWritten _ b
  case h_3 => exact .refl b

/-! ### A domain enters reset (R364, R367) -/

theorem keepsFuses_domRegs (b : Blk) (d : Nat) : KeepsFuses b (domRegs b d) := .of_rfl rfl rfl

theorem keepsFuses_evtDown (b : Blk) : KeepsFuses b (evtDown b) := by
  unfold evtDown
  extract_lets pins pps
  have hpins : KeepsFuses b pins := .foldl (fun b _ => .ite (.emit _ (.refl b)) (.refl b)) _ b
  have hpps : KeepsFuses b pps := .ite (hpins.emit _) hpins
  exact hpps.trans (.of_rfl rfl rfl)

theorem keepsFuses_hopsFollow (b : Blk) (n : Nat) : KeepsFuses b (hopsFollow b n) := .of_rfl rfl rfl

theorem keepsFuses_portsClear (ns : List Nat) (strs : Tab StrPort) (alts : Tab AltPort) (b : Blk) :
    KeepsFuses b { ns.foldl hopsFollow b with strs := strs, alts := alts } := by
  have hhops : KeepsFuses b (ns.foldl hopsFollow b) := .foldl keepsFuses_hopsFollow ns b
  generalize ns.foldl hopsFollow b = hops at hhops ⊢
  exact hhops

theorem keepsFuses_domState (b : Blk) (d : Nat) : KeepsFuses b (domState b d) := by
  unfold domState
  split
  case h_1 => exact .of_rfl rfl rfl
  case h_2 =>
    have hdown := keepsFuses_evtDown b
    generalize evtDown b = down at hdown ⊢
    exact hdown
  case h_3 => exact .of_rfl rfl rfl
  case h_4 => exact .of_rfl rfl rfl
  case h_5 => exact .of_rfl rfl rfl
  case h_6 => exact keepsFuses_portsClear _ _ _ b
  case h_7 => exact keepsFuses_portsClear _ _ _ b
  case h_8 => exact .of_rfl rfl rfl
  case h_9 =>
    extract_lets freed
    have hfreed : KeepsFuses b freed := .foldl (fun b _ => .ite (.wr _ _ (.refl b)) (.refl b)) _ b
    exact hfreed
  case h_10 => exact .refl b

theorem keepsFuses_strapsShow (b : Blk) : KeepsFuses b (strapsShow b) :=
  .setFlag _ _ _ (.setFlag _ _ _ (.wrN _ _ (.wrN _ _ (.wr _ _ (.setFld _ _ _ _ (.setFld _ _ _ _ (.refl b)))))))

theorem keepsFuses_newChallenge (b : Blk) : KeepsFuses b (newChallenge b) := .foldl (fun b _ => .drawn (.wrN _ _ (.refl b))) _ b

theorem keepsFuses_domReset (b : Blk) (d : Nat) : KeepsFuses b (domReset b d) := by
  have hregs := ((keepsFuses_domPins b d).trans (keepsFuses_calDomainReset _ d)).trans (keepsFuses_domRegs _ d)
  have hstate := (hregs.trans (keepsFuses_calShow _ d)).trans ((keepsFuses_domState _ d).trans (keepsFuses_strapsShow _))
  exact .ite (hstate.trans (keepsFuses_newChallenge _)) hstate

/-! ### A warm reset of the life cycle's change (R364, R403) -/

theorem keepsFuses_aonFields (b : Blk) : KeepsFuses b (aonFields b) :=
  .setPwr _ (.setFlag _ _ _ (.zero _ (.foldl (fun b _ => .setFlag _ _ _ (.refl b)) _ b)))

theorem keepsFuses_loadCut (b : Blk) : KeepsFuses b (loadCut b) := .ite (.setFld _ _ _ _ (.setFlag _ _ _ (.count _ _ (.refl b)))) (.refl b)

theorem keepsFuses_withWiping (b : Blk) (l : List SramArray) : KeepsFuses b { b with wiping := l } := .of_rfl rfl rfl

/-- Where no drive channel holds, every domain but AON enters reset. -/
theorem keepsFuses_domainsDown (b : Blk) : KeepsFuses b (domainsDown b false) := by
  unfold domainsDown
  extract_lets ctrl held ds down flags wiped
  have hdown : KeepsFuses b down := .trans (.wr _ _ (.foldl keepsFuses_domReset _ _)) (keepsFuses_aonFields _)
  have hflags : KeepsFuses b flags := hdown.trans (.trans (.wr _ _ (.refl _)) (.foldl (fun b _ => .setFlag _ _ _ (.refl b)) _ _))
  have hwiped : KeepsFuses b wiped := .setFlag _ _ _ (hflags.trans (keepsFuses_withWiping _ _))
  exact .trans (hwiped.setPwr _) (keepsFuses_pinsTo _ _ _)

/-- While a change of the life cycle is under way no drive channel holds. -/
theorem keepsFuses_resetAssert {b : Blk} (h : b.pwr.lcChange = true) (srcs : List Nat) : KeepsFuses b (resetAssert b srcs false) := by
  have hawake : KeepsFuses b (if isDormant b then pinsTo ((b.setFld Reg.PWR_STATUS 21 20 0)) [.dormantOut] false else b) :=
    .ite (.trans (.setFld _ _ _ _ (.refl b)) (keepsFuses_pinsTo _ _ _)) (.refl b)
  have hdown := (hawake.trans (keepsFuses_loadCut _)).trans (keepsFuses_domainsDown _)
  simpa only [resetAssert, h, Bool.not_true, Bool.and_false, Bool.false_and, Bool.false_eq_true, if_false] using hdown.setPwr _

/-- The reset of a life-cycle change is a warm one: it asserts, joins one in progress, or finds the device in Dormant. -/
theorem resetRaise_warm (b : Blk) : (∃ p, resetRaise 7 b = b.setPwr p) ∨ resetRaise 7 b = b ∨ resetRaise 7 b = resetAssert b [7] false := by
  unfold resetRaise
  split
  · by_cases hdormant : (isDormant b && !decide (7 ≤ 2)) = true
    · exact .inr (.inl (if_pos hdormant))
    · exact .inr (.inr (if_neg hdormant))
  · exact .inl ⟨_, rfl⟩

theorem keepsFuses_resetRaise {b : Blk} (h : b.pwr.lcChange = true) : KeepsFuses b (resetRaise 7 b) := by
  obtain ⟨p, hp⟩ | hb | hassert := resetRaise_warm b
  · exact hp ▸ .setPwr p (.refl b)
  · exact hb.symm ▸ .refl b
  · exact hassert ▸ keepsFuses_resetAssert h [7]

/-! ### The write that changes the life cycle -/

theorem lcCmd_of_noKey {b : Blk} {v : Nat} (h : bits v 31 16 ≠ 0x7740) : lcCmd v b = b := if_pos (by simpa using h)

/-- The block with the fuses at their new state and no key slot loaded. -/
def lcBlown (b : Blk) (v : Nat) : Blk := { b with otp := { b.otp with lifeCycle := min 4 (v % 8) }, keys := [] }

theorem lcCmd_of_key {b : Blk} {v : Nat} (h : bits v 31 16 = 0x7740) :
    ∃ c l, KeepsFuses (lcBlown b v) c ∧ lcCmd v b = { c with wiping := l ++ [SramArray.retained] } := by
  have hgo : ¬ (bits v 31 16 != 0x7740) = true := by simp [h]
  have hreset := keepsFuses_resetRaise (b := (lcBlown b v).setPwr { b.pwr with lcChange := true }) rfl
  exact ⟨_, _, .trans (.setPwr _ (.refl _)) hreset, if_neg hgo⟩

/-- Settles O38: the transitions are decided pair by pair; the fuses and the slots are those of the change itself, the reset keeping both. -/
theorem lifeCycleSteps : Obligations.LifeCycleSteps := by
  refine ⟨by decide, fun s v hon => ⟨fun hkey => exec_onBlk_unchanged hon rfl (lcCmd_of_noKey hkey), fun hkey => ?_⟩⟩
  obtain ⟨c, l, ⟨hotp, hkeys⟩, heq⟩ := lcCmd_of_key hkey
  refine answers_onBlk (f := lcCmd v.toNat) hon rfl ?_
  rw [heq]
  exact ⟨congrArg Otp.lifeCycle hotp, hkeys, List.mem_append_right _ (List.mem_singleton_self _), rfl⟩

end Sys2Proof.Machine
end


section
/-!
CLR_COUNTS: the registers each block's command clears are those its chapter lists (O11).
-/
namespace Sys2Proof.Machine

/-! ### The registers that each command clears, named one by one -/

theorem cnvCounts_names : (List.range 12).map (fun i => Reg.CNV_COMMIT_COUNT + 4 * i) =
    [Reg.CNV_COMMIT_COUNT, Reg.CNV_FLIP_COUNT, Reg.CNV_INCOMPLETE_COUNT, Reg.CNV_SKIP_COUNT, Reg.CNV_PKT_COUNT,
      Reg.CNV_PKT_DROP, Reg.CNV_MERGE_DUP, Reg.CNV_MERGE_LATE, Reg.CNV_PATH_A_ONLY, Reg.CNV_PATH_B_ONLY, Reg.CNV_RE_PKT_COUNT,
      Reg.CNV_RE_DROP] := by decide

theorem strCounts_names : ∀ n : Fin 32, (List.range 17).map (fun i => Reg.STR_n_FRAMES_TX n + 4 * i) =
    [Reg.STR_n_FRAMES_TX n, Reg.STR_n_LINES_TX n, Reg.STR_n_UNDERRUN n, Reg.STR_n_BG_BYTES n, Reg.STR_n_LINE_SKIP n,
      Reg.STR_n_LINE_UNCHANGED n, Reg.STR_n_LATCHES n, Reg.STR_n_LATCH_LATE n, Reg.STR_n_RB_FRAMES n, Reg.STR_n_RB_MISMATCH n,
      Reg.STR_n_RX_FRAMES n, Reg.STR_n_RX_CRC_ERR n, Reg.STR_n_RX_LOS_COUNT n, Reg.STR_n_REPLY_TIMEOUT n, Reg.STR_n_RATE_CHANGES n,
      Reg.STR_n_LATE_BYTES n, Reg.STR_n_RING_SWITCH n] := by decide +kernel

theorem e131Counts_names : (List.range 8).map (fun k => Reg.E131_RX_PKTS + 4 * k) = e131Counts := by decide

theorem drvCounts_names : ∀ c : Fin 16, (List.range 7).map (fun i => Reg.DRV_c_LATE_COUNT c + 4 * i) = drvCounts c := by decide +kernel

theorem portCounters_names : ∀ p : Fin 5, portCounters p = trunkPortCounts p := by decide +kernel

theorem pairCounts_names : (List.range 9).map (fun k => Reg.PAIR_TAKEOVERS + 4 * k) ++ [Reg.PAIR_WKR_SWITCHES] =
    [Reg.PAIR_TAKEOVERS, Reg.PAIR_YIELDS, Reg.PAIR_BEACON_TX, Reg.PAIR_BEACON_RX, Reg.PAIR_BEACON_BAD, Reg.PAIR_ALIVE_LOSS,
      Reg.PAIR_SHADOW_COMPARED, Reg.PAIR_SHADOW_MISMATCH, Reg.PAIR_SHADOW_SKIPPED, Reg.PAIR_WKR_SWITCHES] := by decide

theorem drvCounts_all : (List.range 16).flatMap (fun c => (List.range 7).map (fun i => Reg.DRV_c_LATE_COUNT c + 4 * i)) =
    (List.range 16).flatMap drvCounts := by decide +kernel

/-! ### Commands that clear counters alone -/

/-- A command that clears the registers `as` answers for any list that names them. -/
theorem answers_cleared {d : Nat} {s : State} {i : Instr} {as cs : List Nat} {f : Blk → Blk} (hon : domOn s.blk d = true)
    (hexec : exec i s = inDom d (onBlk f) s) (hf : f s.blk = s.blk.zero as) (hnames : as = cs) :
    Answers i s (fun t => Cleared s t cs) :=
  answers_onBlk (f := f) hon hexec (hf ▸ hnames ▸ cleared_zero s as)

theorem pairClrCounts_eq (b : Blk) : pairClrCounts b =
    b.zero ((List.range 9).map (fun k => Reg.PAIR_TAKEOVERS + 4 * k) ++ [Reg.PAIR_WKR_SWITCHES]) :=
  Blk.zero_zero b _ [Reg.PAIR_WKR_SWITCHES]

/-! ### The Stitch engine: the smallest slack goes back to its reset value -/

/-- The counters of the Stitch engine that CLR_COUNTS takes to 0 (R142). -/
def stcCounterRegs : List Nat :=
  [Reg.STC_BATCH_COUNT, Reg.STC_RETIRE_COUNT, Reg.STC_CANCEL_COUNT, Reg.STC_LATE_COUNT, Reg.STC_RACE_COUNT,
    Reg.STC_ECC_CANCEL_COUNT, Reg.STC_EMIT_SKIP_COUNT, Reg.STC_DELAY_OVF_COUNT, Reg.STC_DELAY_EXPIRE_COUNT, Reg.STC_CUE_BAD_COUNT,
    Reg.STC_INFLIGHT_FULL_CYCLES, Reg.STC_EMIT_WAIT_CYCLES, Reg.STC_INFLIGHT_MAX, Reg.STC_ROW_BUSY_MAX]
    ++ (List.range 8).map Reg.STC_LANEl_BUSY

theorem stcCleared_perm : ((List.range 15).map (fun i => Reg.STC_BATCH_COUNT + 4 * i) ++ (List.range 8).map Reg.STC_LANEl_BUSY).Perm
    (Reg.STC_ROW_SLACK_MIN :: stcCounterRegs) := by decide +kernel

theorem slackMin_not_stcCount : Reg.STC_ROW_SLACK_MIN ∉ stcCounterRegs := by decide

theorem stcClrCounts_rd (b : Blk) (a : Nat) : (stcClrCounts b).rd a =
    if a = Reg.STC_ROW_SLACK_MIN then 0xFFFFFFFF#32 else if a ∈ stcCounterRegs then 0#32 else b.rd a := by
  rw [stcClrCounts]
  by_cases h : a = Reg.STC_ROW_SLACK_MIN
  · simp [h]
  · rw [Blk.rd_wrN_ne _ _ h, Blk.rd_zero, if_neg h]
    simp only [stcCleared_perm.mem_iff, List.mem_cons, h, false_or]

theorem Blk.wrN_zero_eq (as : List Nat) (b : Blk) (a v : Nat) :
    (b.zero as).wrN a v = { b with regs := ((b.zero as).wrN a v).regs } := by
  rw [Blk.zero_eq]
  rfl

theorem stcClrCounts_eq (b : Blk) : stcClrCounts b = { b with regs := (stcClrCounts b).regs } := Blk.wrN_zero_eq ..

/-! ### The trunk: the free cell registers follow the cells -/

/-- The counters of the trunk block (R283). -/
def trkCounts : List Nat :=
  (List.range 5).flatMap trunkPortCounts ++ e131Counts ++ [Reg.TRK_LEARN_FULL, Reg.TRK_SYNCE_SWITCH_COUNT]
    ++ (List.range 2).flatMap (fun i => [Reg.TRK_RINGi_CHANGES i, Reg.TRK_RINGi_FLUSHES i, Reg.TRK_RINGi_LINKDOWN_RX i])
    ++ (List.range 16).flatMap (fun r => [Reg.TRK_RXr_FRAMES r, Reg.TRK_RXr_NOBUF r])
    ++ (List.range 4).flatMap (fun k => [Reg.TRK_TXt_FRAMES k, Reg.TRK_TXt_ERRORS k])

/-- The registers of `trkClrCounts none`, in the order it clears them. -/
def trkCleared : List Nat :=
  (List.range 5).flatMap portCounters ++ ([Reg.TRK_LEARN_FULL] ++ [0, 1].flatMap (fun i =>
      [Reg.TRK_RINGi_CHANGES i, Reg.TRK_RINGi_FLUSHES i, Reg.TRK_RINGi_LINKDOWN_RX i]))
    ++ ((List.range 16).flatMap (fun r => [Reg.TRK_RXr_FRAMES r, Reg.TRK_RXr_NOBUF r])
      ++ (List.range 4).flatMap (fun t => [Reg.TRK_TXt_FRAMES t, Reg.TRK_TXt_ERRORS t])
      ++ [Reg.TRK_SYNCE_SWITCH_COUNT] ++ (List.range 8).map (fun k => Reg.E131_RX_PKTS + 4 * k))

theorem trkCleared_perm : trkCleared.Perm trkCounts := by decide +kernel

theorem free_not_trkCount : Reg.TRK_BUF_FREE ∉ trkCounts ∧ Reg.TRK_BUF_MIN ∉ trkCounts := by decide +kernel

theorem trkClrCounts_none (b : Blk) : trkClrCounts none b =
    trkCells ((b.zero trkCleared).setTrk { (b.zero trkCleared).trk with minFree := none }) := by
  simp only [trkClrCounts, Blk.zero_zero, trkCleared]

theorem trkRefill_regs (b : Blk) : (trkRefill b).regs = b.regs :=
  List.foldlRecOn _ _ (motive := fun c : Blk => c.regs = b.regs) rfl (fun _ h _ _ => h)

theorem trkRefill_minFree (b : Blk) : (trkRefill b).trk.minFree = b.trk.minFree :=
  List.foldlRecOn _ _ (motive := fun c : Blk => c.trk.minFree = b.trk.minFree) rfl (fun _ h _ _ => h)

/-- Where no smallest number of free cells has been noted, both registers show the cells that are free. -/
theorem trkCells_eq_of_noMin {b : Blk} (h : b.trk.minFree = none) : ∃ (c : Blk) (n : Nat), c.regs = b.regs ∧
    trkCells b = (c.wrN Reg.TRK_BUF_FREE n).wrN Reg.TRK_BUF_MIN n := by
  refine ⟨(trkRefill b).setTrk { (trkRefill b).trk with minFree := some (trkFree (trkRefill b)) }, trkFree (trkRefill b),
    trkRefill_regs b, ?_⟩
  rw [trkCells, trkRefill_minFree, h]

theorem trkCells_restart (b : Blk) : ∃ (c : Blk) (n : Nat), c.regs = b.regs ∧
    trkCells (b.setTrk { b.trk with minFree := none }) = (c.wrN Reg.TRK_BUF_FREE n).wrN Reg.TRK_BUF_MIN n := by
  obtain ⟨c, n, hregs, heq⟩ := trkCells_eq_of_noMin (b := b.setTrk { b.trk with minFree := none }) rfl
  exact ⟨c, n, hregs, heq⟩

theorem trkClrCounts_none_eq (b : Blk) : ∃ (c : Blk) (n : Nat), c.regs = (b.zero trkCleared).regs ∧
    trkClrCounts none b = (c.wrN Reg.TRK_BUF_FREE n).wrN Reg.TRK_BUF_MIN n := by
  rw [trkClrCounts_none]
  exact trkCells_restart (b.zero trkCleared)

theorem trkClrCounts_none_rd {b : Blk} {a : Nat} (hfree : a ≠ Reg.TRK_BUF_FREE) (hmin : a ≠ Reg.TRK_BUF_MIN) :
    (trkClrCounts none b).rd a = if a ∈ trkCounts then 0#32 else b.rd a := by
  obtain ⟨c, n, hregs, heq⟩ := trkClrCounts_none_eq b
  rw [heq, Blk.rd_wrN_ne _ _ hmin, Blk.rd_wrN_ne _ _ hfree, Blk.rd_congr hregs, Blk.rd_zero]
  simp [trkCleared_perm.mem_iff]

theorem trkClrCounts_none_min (b : Blk) :
    (trkClrCounts none b).rd Reg.TRK_BUF_MIN = (trkClrCounts none b).rd Reg.TRK_BUF_FREE := by
  obtain ⟨c, n, -, heq⟩ := trkClrCounts_none_eq b
  rw [heq, Blk.rd_wrN_self, Blk.rd_wrN_ne _ _ (by decide), Blk.rd_wrN_self]

/-! ### The CAL block -/

/-- The counters of the CAL block (R427). -/
def calCounterRegs : List Nat :=
  Reg.CAL_JOB_DROP :: (List.range 32).flatMap (fun n => [Reg.CAL_STRn_RUNS n, Reg.CAL_STRn_PAUSE_US n, Reg.CAL_STRn_FAILS n])
    ++ (List.range 16).flatMap (fun c => [Reg.CAL_DRVc_INTERRUPTS c, Reg.CAL_DRVc_UNSETTLED c])

theorem Blk.rd_zero_setCal (as : List Nat) (b : Blk) (x : Cal) (a : Nat) :
    ((b.setCal x).zero as).rd a = if a ∈ as then 0#32 else b.rd a := Blk.rd_zero ..

/-- The CAL block's command also forgets the fractions of its pauses, which are no register. -/
theorem calClrCounts_rd (b : Blk) (a : Nat) : (calClrCounts b).rd a = if a ∈ calCounterRegs then 0#32 else b.rd a :=
  Blk.rd_zero_setCal ..

/-- Settles O11: the registers that each command clears are those the tables list, named one by one. -/
theorem countersClear : Obligations.CountersClear := by
  intro s
  refine ⟨fun n hon => ?_, fun m hon => ?_, fun hon => ?_, fun hon => ?_, fun n hon => ?_, fun hon => ?_, fun c hon => ?_, fun hon => ?_,
    fun p hon => ?_, fun hon => ?_, fun hon => ?_, fun hon => ?_, fun hon => ?_, fun hon => ?_, fun hon => ?_⟩
  · exact answers_cleared (f := tbClrCounts n) hon rfl rfl rfl
  · exact answers_cleared (f := merClrCounts m) hon rfl rfl rfl
  · exact answers_cleared hon rfl (Blk.zero_zero ..) (congrArg (· ++ _) cnvCounts_names)
  · refine answers_onBlk hon rfl ⟨⟨?_, fun a ha => ?_⟩, ?_, fun a ha => ?_⟩
    · rw [List.append_nil, stcClrCounts_eq]
    · rw [List.mem_cons, not_or] at ha
      exact (stcClrCounts_rd _ a).trans ((if_neg ha.1).trans (if_neg ha.2))
    · exact stcClrCounts_rd _ _
    · exact (stcClrCounts_rd _ a).trans ((if_neg (by rintro rfl; exact slackMin_not_stcCount ha)).trans (if_pos ha))
  · exact answers_cleared (f := strClrCounts n) hon rfl rfl (strCounts_names n)
  · exact answers_cleared hon rfl rfl e131Counts_names
  · exact answers_cleared (f := drvClrCounts (some c)) hon rfl rfl ((List.append_nil _).trans (drvCounts_names c))
  · exact answers_cleared (f := drvClrCounts none) hon rfl rfl drvCounts_all
  · exact answers_cleared (f := trkClrCounts (some p)) hon rfl rfl (portCounters_names p)
  · refine answers_onBlk (f := trkClrCounts none) hon rfl ⟨rfl, fun a ha => ?_, fun a ha => ?_, trkClrCounts_none_min _⟩
    · rw [List.mem_cons, List.mem_cons, not_or, not_or] at ha
      obtain ⟨hfree, hmin, hcount⟩ := ha
      exact (trkClrCounts_none_rd hfree hmin).trans (if_neg hcount)
    · refine (trkClrCounts_none_rd ?_ ?_).trans (if_pos ha)
      · rintro rfl; exact free_not_trkCount.1 ha
      · rintro rfl; exact free_not_trkCount.2 ha
  · exact answers_cleared hon rfl (pairClrCounts_eq _) pairCounts_names
  · exact answers_cleared hon rfl rfl rfl
  · exact answers_cleared hon rfl rfl rfl
  · exact answers_cleared hon rfl rfl rfl
  · refine answers_onBlk (f := calClrCounts) hon rfl ⟨rfl, fun a ha => ?_, fun a ha => ?_⟩
    · exact (calClrCounts_rd s.blk a).trans (if_neg ha)
    · exact (calClrCounts_rd s.blk a).trans (if_pos ha)

end Sys2Proof.Machine
end


section
/-!
Staged Meridian modes (R78) and the Waypoint table (R80, R84).
-/
namespace Sys2Proof.Machine

/-! ### The commits of a Meridian that wait (R78) -/

theorem Blk.mer_setMer_self (b : Blk) (m : Nat) (x : Meridian) : (b.setMer m x).mer m = x := Tab.at_upd_self ..

section
variable (b : Blk) (m : Nat) (cs : List Nat)

theorem merCommits_mem_staged : (merCommits b m cs).staged = b.staged := by simp [merCommits]

theorem merCommits_mer : (merCommits b m cs).mer m = { b.mer m with commits := cs } := by
  rw [merCommits, Blk.mer, Blk.setFlag_mers]
  exact Blk.mer_setMer_self ..

theorem merCommits_flag : (merCommits b m cs).flag (Reg.MERm_STATUS m) 3 = !cs.isEmpty := Blk.flag_setFlag_self _ _ _ _ (by decide)

theorem merCommits_rd_ne {a : Nat} (h : a ∉ [Reg.MERm_STATUS m]) : (merCommits b m cs).rd a = b.rd a := by
  rw [merCommits, Blk.rd_setFlag_ne _ _ _ (by simpa using h)]
  rfl

end

/-- What DISCARD drops lies from MERm_STAGE_SRC to below MERm_MODEL. -/
theorem mem_merDropStaged (b : Blk) (m : Nat) (e : Nat × StagedWord) : e ∈ (merDropStaged b m).staged ↔
    e ∈ b.staged ∧ ¬ (Reg.MERm_STAGE_SRC m ≤ e.1 ∧ e.1 < Reg.MERm_MODEL_x m 0) := by
  rw [merDropStaged, merCommits_mem_staged]
  simp [merStageReg, imp_iff_not_or]

/-- Settles O15: both commands note the waiting commits; a discard also filters what is staged. -/
theorem meridianStaging : Obligations.MeridianStaging := by
  intro s m hon
  refine ⟨fun hen => ?_, ?_⟩
  · have hcommit : meridianCommit m s.blk = merCommits s.blk m ((s.blk.mer m).commits ++ [s.blk.now]) := if_pos hen
    refine answers_onBlk (f := meridianCommit m) hon rfl ?_
    rw [hcommit]
    exact ⟨rfl, merCommits_mem_staged .., merCommits_mer .., (merCommits_flag ..).trans (by simp), fun _ h => merCommits_rd_ne _ _ _ h⟩
  · exact answers_onBlk (f := fun b => merDropStaged b m) hon rfl ⟨rfl, congrArg Meridian.commits (merCommits_mer ..), merCommits_flag ..,
      fun _ h => merCommits_rd_ne _ _ _ h, mem_merDropStaged _ _⟩

/-! ### The Waypoint table (R80, R84) -/

section
variable (b : Blk) (i : Nat) (x : Option Waypoint)

theorem Blk.wpt_congr {b c : Blk} (h : c.wpts = b.wpts) (i : Nat) : c.wpt i = b.wpt i := by rw [Blk.wpt, h, Blk.wpt]

theorem Blk.setWpt_wpts : (b.setWpt i x).wpts = Tab.upd none b.wpts i x := Blk.setFld_wpts ..

theorem Blk.wpt_setWpt_self : (b.setWpt i x).wpt i = x := by rw [Blk.wpt, Blk.setWpt_wpts, Tab.at_upd_self]

theorem Blk.wpt_setWpt_ne {j : Nat} (h : j ≠ i) : (b.setWpt i x).wpt j = b.wpt j := by
  rw [Blk.wpt, Blk.setWpt_wpts, Tab.at_upd_ne _ _ _ h, Blk.wpt]

theorem Blk.setWpt_wptDue : (b.setWpt i x).wptDue = b.wptDue := Blk.setFld_wptDue ..
theorem Blk.setWpt_wptGone : (b.setWpt i x).wptGone = b.wptGone := Blk.setFld_wptGone ..
theorem Blk.setWpt_wptBusy : (b.setWpt i x).wptBusy = b.wptBusy := Blk.setFld_wptBusy ..

theorem Blk.rd_setWpt_ne {a : Nat} (h : a ≠ Reg.WPT_STATUS) : (b.setWpt i x).rd a = b.rd a := Blk.rd_setFld_ne _ _ _ _ h

end

theorem wptFull_cases (b : Blk) (n : Nat) : wptFull b n = b ∨ wptFull b n = b.irq Reg.WPT_INT_STATUS 3 := by
  unfold wptFull
  split
  · exact .inr rfl
  · exact .inl rfl

/-- The entry that WPT_CMD WRITE takes out of WPT_ENTRY0 to 3. -/
def wptWritten (b : Blk) : Waypoint :=
  { w0 := b.rdN (Reg.WPT_ENTRYx 0), w1 := b.rdN (Reg.WPT_ENTRYx 1), w2 := b.rdN (Reg.WPT_ENTRYx 2) % 2 ^ 27,
    w3 := b.rdN (Reg.WPT_ENTRYx 3) }

/-- The block with the entry named by WPT_INDEX taken out, waiting to be armed, replaced by `x`, and BUSY set. -/
def wptPlaced (b : Blk) (x : Option Waypoint) : Blk :=
  let i := b.fld Reg.WPT_INDEX 9 0
  ({ wptTakeOut i b with wptBusy := b.wptBusy.erase i ++ [i] }.setWpt i x).setFlag Reg.WPT_STATUS 16 true

section
variable (b : Blk) (x : Option Waypoint)

theorem wptPlaced_wpts : (wptPlaced b x).wpts = Tab.upd none b.wpts (b.fld Reg.WPT_INDEX 9 0) x :=
  (Blk.setFlag_wpts ..).trans (Blk.setWpt_wpts ..)

theorem wptPlaced_wptDue : (wptPlaced b x).wptDue = b.wptDue.filter (fun d => d.index != b.fld Reg.WPT_INDEX 9 0) :=
  (Blk.setFlag_wptDue ..).trans (Blk.setWpt_wptDue ..)

theorem wptPlaced_wptBusy : b.fld Reg.WPT_INDEX 9 0 ∈ (wptPlaced b x).wptBusy := by
  have h : (wptPlaced b x).wptBusy = b.wptBusy.erase (b.fld Reg.WPT_INDEX 9 0) ++ [b.fld Reg.WPT_INDEX 9 0] :=
    (Blk.setFlag_wptBusy ..).trans (Blk.setWpt_wptBusy ..)
  simp [h]

theorem wptPlaced_busy : (wptPlaced b x).flag Reg.WPT_STATUS 16 = true := Blk.flag_setFlag_self _ _ _ _ (by decide)

theorem wptPlaced_rd_ne {a : Nat} (h : a ≠ Reg.WPT_STATUS) : (wptPlaced b x).rd a = b.rd a :=
  (Blk.rd_setFlag_ne _ _ _ h).trans (Blk.rd_setWpt_ne _ _ _ h)

end

/-- VALID is a bit of the word that the table keeps. -/
theorem bit_mod_wptWord (n : Nat) : bit (n % 2 ^ 27) 24 = bit n 24 := by
  have h : n % 2 ^ 27 / 2 ^ 24 % 2 = n / 2 ^ 24 % 2 := by omega
  rw [bit, h, bit]

theorem wptWrite_eq (b : Blk) : wptWrite b =
    if b.flag (Reg.WPT_ENTRYx 2) 24 then wptFull (wptPlaced b (some (wptWritten b))) b.wpts.length else wptPlaced b none := by
  rw [Blk.flag, ← bit_mod_wptWord]
  rfl

/-- WRITE places the entry where VALID is set and none where it is clear; beside that it can only set FULL. -/
theorem wptWrite_cases (b : Blk) : ∃ x, x = (if b.flag (Reg.WPT_ENTRYx 2) 24 then some (wptWritten b) else none) ∧
    (wptWrite b = wptPlaced b x ∨ wptWrite b = (wptPlaced b x).irq Reg.WPT_INT_STATUS 3) := by
  rw [wptWrite_eq]
  split
  · exact ⟨_, rfl, wptFull_cases ..⟩
  · exact ⟨_, rfl, .inl rfl⟩

/-- What WRITE leaves in the table and its registers. -/
theorem wptWrite_leaves {b c : Blk} {x : Option Waypoint} (hc : c = wptPlaced b x ∨ c = (wptPlaced b x).irq Reg.WPT_INT_STATUS 3) :
    c.wpts = Tab.upd none b.wpts (b.fld Reg.WPT_INDEX 9 0) x ∧
    c.wptDue = b.wptDue.filter (fun e => e.index != b.fld Reg.WPT_INDEX 9 0) ∧ b.fld Reg.WPT_INDEX 9 0 ∈ c.wptBusy ∧
    c.flag Reg.WPT_STATUS 16 = true ∧ ∀ a, a ∉ [Reg.WPT_STATUS, Reg.WPT_INT_STATUS] → c.rd a = b.rd a := by
  have hkept (a : Nat) (ha : a ∉ [Reg.WPT_STATUS, Reg.WPT_INT_STATUS]) : (wptPlaced b x).rd a = b.rd a :=
    wptPlaced_rd_ne b x (by simp at ha; exact ha.1)
  obtain rfl | rfl := hc
  · exact ⟨wptPlaced_wpts b x, wptPlaced_wptDue b x, wptPlaced_wptBusy b x, wptPlaced_busy b x, hkept⟩
  · refine ⟨(Blk.irq_wpts ..).trans (wptPlaced_wpts b x), (Blk.irq_wptDue ..).trans (wptPlaced_wptDue b x),
      (Blk.irq_wptBusy _ _ _).symm ▸ wptPlaced_wptBusy b x, ?_, fun a ha => ?_⟩
    · exact (Blk.flag_congr (Blk.rd_irq_ne _ _ (by decide)) 16).trans (wptPlaced_busy b x)
    · exact (Blk.rd_irq_ne _ _ (by simp at ha; exact ha.2)).trans (hkept a ha)

/-- CANCEL keeps what it took out among the entries that can still fire in this clock. -/
theorem mem_wptTakeOut_gone {b : Blk} {i : Nat} {w : Waypoint} (h : b.wpt i = some w) :
    { clock := b.now, index := i, entry := w } ∈ (wptTakeOut i b).wptGone := by
  simp [wptTakeOut, h]

theorem wptRead_eq (b : Blk) : wptRead b =
    let e := (b.wpt (b.fld Reg.WPT_INDEX 9 0)).getD {}
    (((b.wrN (Reg.WPT_ENTRYx 0) e.w0).wrN (Reg.WPT_ENTRYx 1) e.w1).wrN (Reg.WPT_ENTRYx 2) e.w2).wrN (Reg.WPT_ENTRYx 3) e.w3 := rfl

/-- Settles O14: each command's block is named (`wptPlaced`, an entry taken out, the empty table, four words written). -/
theorem waypointTable : Obligations.WaypointTable := by
  intro s hon i w
  refine ⟨?_, ?_, ?_, ?_⟩
  · obtain ⟨x, rfl, hcases⟩ := wptWrite_cases s.blk
    obtain ⟨hwpts, hdue, hbusy, hflag, hkept⟩ := wptWrite_leaves hcases
    refine answers_onBlk hon rfl ⟨rfl, hflag, ?_, fun j hj => ?_, hdue, hbusy, hkept⟩
    · exact (congrArg (Tab.at none · i) hwpts).trans (Tab.at_upd_self ..)
    · exact (congrArg (Tab.at none · j) hwpts).trans (Tab.at_upd_ne _ _ _ hj)
  · refine answers_onBlk (f := wptCancel) hon rfl ⟨rfl, Blk.wpt_setWpt_self .., fun j hj => ?_, Blk.setWpt_wptDue .., fun x hx => ?_,
      fun a ha => ?_⟩
    · exact Blk.wpt_setWpt_ne _ _ _ hj
    · exact (Blk.setWpt_wptGone (wptTakeOut i s.blk) i none).symm ▸ mem_wptTakeOut_gone hx
    · exact Blk.rd_setWpt_ne _ _ _ (by simpa using ha)
  · refine answers_onBlk (f := wptClearAll) hon rfl ⟨rfl, fun j => ?_, Blk.setFld_wptDue .., ?_, fun a ha => ?_⟩
    · exact Blk.wpt_congr (Blk.setFld_wpts ..) j
    · exact Blk.fld_setFld_self _ _ 10 0 0 (by decide) (by decide)
    · exact Blk.rd_setFld_ne _ _ _ _ (by simpa using ha)
  · refine answers_onBlk (f := wptRead) hon rfl ?_
    rw [wptRead_eq]
    refine ⟨⟨?_, fun a ha => ?_⟩, ?_, ?_, ?_, ?_⟩
    · rw [List.append_nil]
      rfl
    · simp only [List.mem_cons, List.not_mem_nil, or_false, not_or] at ha
      obtain ⟨h0, h1, h2, h3⟩ := ha
      exact (Blk.rd_wrN_ne _ _ h3).trans ((Blk.rd_wrN_ne _ _ h2).trans ((Blk.rd_wrN_ne _ _ h1).trans (Blk.rd_wrN_ne _ _ h0)))
    · exact (Blk.rd_wrN_ne _ _ (by decide)).trans ((Blk.rd_wrN_ne _ _ (by decide)).trans ((Blk.rd_wrN_ne _ _ (by decide)).trans
        (Blk.rd_wrN_self ..)))
    · exact (Blk.rd_wrN_ne _ _ (by decide)).trans ((Blk.rd_wrN_ne _ _ (by decide)).trans (Blk.rd_wrN_self ..))
    · exact (Blk.rd_wrN_ne _ _ (by decide)).trans (Blk.rd_wrN_self ..)
    · exact Blk.rd_wrN_self ..

end Sys2Proof.Machine
end


section
/-!
A capture queue (R86) and the canvas flip (R107, R108).
-/
namespace Sys2Proof.Machine

/-! ### What a capture queue's update changes (R86) -/

section
variable (b : Blk) (j : Nat) (q : List EvtCapture)

theorem Blk.setEvtInQ_evtIn : (b.setEvtInQ j q).evtIn = Tab.upd [] b.evtIn j q := Blk.setFld_evtIn ..
theorem Blk.setEvtInQ_out : (b.setEvtInQ j q).out = b.out := Blk.setFld_out ..
theorem Blk.rd_setEvtInQ_ne {a : Nat} (h : a ≠ Reg.EVT_INj_STATUS j) : (b.setEvtInQ j q).rd a = b.rd a := Blk.rd_setFld_ne _ _ _ _ h
theorem Blk.fld_setEvtInQ : (b.setEvtInQ j q).fld (Reg.EVT_INj_STATUS j) 3 0 = q.length % 16 :=
  Blk.fld_setFld_self _ _ 3 0 _ (by decide) (by decide)

end

section
variable (b : Blk) (a i : Nat)

theorem unirq_sameButRegs : SameButRegs b (b.unirq a i) := by
  unfold Blk.unirq
  split
  · exact ⟨_, _, _, rfl⟩
  · exact ⟨_, _, _, rfl⟩

theorem uncount_sameButRegs (was k : Nat) : SameButRegs b (b.uncount a was k) := by
  unfold Blk.uncount
  split
  · exact sameButRegs_wrN ..
  · exact ⟨_, _, _, rfl⟩

theorem Blk.rd_unirq_ne {c : Nat} (h : c ≠ a) : (b.unirq a i).rd c = b.rd c := by
  unfold Blk.unirq
  split
  · exact Blk.rd_setFlag_ne _ _ _ h
  · rfl

theorem Blk.rd_uncount_ne (was k : Nat) {c : Nat} (h : c ≠ a) : (b.uncount a was k).rd c = b.rd c := by
  unfold Blk.uncount
  split
  · exact Blk.rd_wrN_ne _ _ h
  · rfl

/-- A status bit that is taken back is a field of its own. -/
theorem Blk.fld_unirq_below {h l : Nat} (hi : i < 32) (hh : h < i) : (b.unirq a i).fld a h l = b.fld a h l := by
  unfold Blk.unirq
  split
  · exact Blk.fld_setFld_apart _ a _ (Nat.le_refl i) hi (.inl hh)
  · rfl

end

theorem SameButRegs.out {b c : Blk} (h : SameButRegs b c) : c.out = b.out := by obtain ⟨_, _, _, rfl⟩ := h; rfl
theorem SameButRegs.evtIn {b c : Blk} (h : SameButRegs b c) : c.evtIn = b.evtIn := by obtain ⟨_, _, _, rfl⟩ := h; rfl

/-! ### A read of F5 -/

/-- The registers by which a lost capture shows. -/
abbrev evtLossRegs (j : Nat) : List Nat := [Reg.EVT_INj_LOST j, Reg.EVT_INT_STATUS]

/-- The loss that is taken back: the counter, and the status bits where none is left. -/
def evtLossBack (j : Nat) (l : EvtLost) (r : List EvtCapture) (b : Blk) : Blk :=
  let b := b.uncount (Reg.EVT_INj_LOST j) l.lost l.items.length
  let b : Blk := { b with evtLost := Tab.upd none b.evtLost j (some { l with items := r }) }
  (onSet r.isEmpty (fun b => (b.unirq (Reg.EVT_INj_STATUS j) 8).unirq Reg.EVT_INT_STATUS (20 + j)) b).irq Reg.EVT_INT_STATUS (16 + j)

section
variable (j : Fin 4) (l : EvtLost) (r : List EvtCapture) (b : Blk)

theorem evtReg_apart : Reg.EVT_INj_STATUS j ≠ Reg.EVT_INj_LOST j ∧ Reg.EVT_INj_STATUS j ≠ Reg.EVT_INT_STATUS := by
  revert j; decide

theorem evtLossBack_out : (evtLossBack j l r b).out = b.out := by
  have hcount := (uncount_sameButRegs b (Reg.EVT_INj_LOST j) l.lost l.items.length).out
  unfold evtLossBack onSet
  split
  · exact (Blk.irq_out ..).trans ((unirq_sameButRegs ..).out.trans ((unirq_sameButRegs ..).out.trans hcount))
  · exact (Blk.irq_out ..).trans hcount

theorem evtLossBack_evtIn : (evtLossBack j l r b).evtIn = b.evtIn := by
  have hcount := (uncount_sameButRegs b (Reg.EVT_INj_LOST j) l.lost l.items.length).evtIn
  unfold evtLossBack onSet
  split
  · exact (Blk.irq_evtIn ..).trans ((unirq_sameButRegs ..).evtIn.trans ((unirq_sameButRegs ..).evtIn.trans hcount))
  · exact (Blk.irq_evtIn ..).trans hcount

theorem evtLossBack_rd_ne {a : Nat} (hstatus : a ≠ Reg.EVT_INj_STATUS j) (h : a ∉ evtLossRegs j) : (evtLossBack j l r b).rd a = b.rd a := by
  simp only [List.mem_cons, List.not_mem_nil, or_false, not_or] at h
  obtain ⟨hlost, hint⟩ := h
  have hcount := Blk.rd_uncount_ne b (Reg.EVT_INj_LOST j) l.lost l.items.length hlost
  unfold evtLossBack onSet
  split
  · exact (Blk.rd_irq_ne _ _ hint).trans ((Blk.rd_unirq_ne _ _ _ hint).trans ((Blk.rd_unirq_ne _ _ _ hstatus).trans hcount))
  · exact (Blk.rd_irq_ne _ _ hint).trans hcount

theorem evtLossBack_level : (evtLossBack j l r b).fld (Reg.EVT_INj_STATUS j) 3 0 = b.fld (Reg.EVT_INj_STATUS j) 3 0 := by
  obtain ⟨hlost, hint⟩ := evtReg_apart j
  have hcount := Blk.fld_congr (Blk.rd_uncount_ne b (Reg.EVT_INj_LOST j) l.lost l.items.length hlost) 3 0
  unfold evtLossBack onSet
  split
  · exact (Blk.fld_congr (Blk.rd_irq_ne _ _ hint) 3 0).trans ((Blk.fld_congr (Blk.rd_unirq_ne _ _ _ hint) 3 0).trans
      ((Blk.fld_unirq_below _ _ _ (by decide) (by decide)).trans hcount))
  · exact (Blk.fld_congr (Blk.rd_irq_ne _ _ hint) 3 0).trans hcount

end

/-- What a full queue has lost in this clock. -/
def evtLostItems (b : Blk) (j : Nat) : List EvtCapture := (b.evtLosses j).elim [] (fun l => l.items)

theorem evtRemove_of_noLoss {b : Blk} {j : Nat} (h : evtLostItems b j = []) : evtRemove j b = b.setEvtInQ j (b.evtInQ j).tail := by
  unfold evtRemove
  unfold evtLostItems at h
  split
  · next l hl =>
    rw [hl, Option.elim_some] at h
    rw [h]
  · rfl

theorem evtRemove_of_loss {b : Blk} {j : Nat} {x : EvtCapture} {r : List EvtCapture} (h : evtLostItems b j = x :: r) :
    ∃ l, evtRemove j b = evtLossBack j l r (b.setEvtInQ j ((b.evtInQ j).tail ++ [x])) := by
  unfold evtRemove
  unfold evtLostItems at h
  split
  · next l hl =>
    rw [hl, Option.elim_some] at h
    refine ⟨l, ?_⟩
    rw [evtLossBack, h]
  · next hl => simp [hl] at h

section
variable (b : Blk) (j : Fin 4)

/-- The queue that a removal leaves: without its head, and with the first capture lost in this clock. -/
def evtLeft (b : Blk) (j : Nat) : List EvtCapture := (b.evtInQ j).tail ++ (evtLostItems b j).take 1

theorem evtRemove_evtIn : (evtRemove j b).evtIn = Tab.upd [] b.evtIn j (evtLeft b j) := by
  unfold evtLeft
  cases h : evtLostItems b j with
  | nil => rw [evtRemove_of_noLoss h, Blk.setEvtInQ_evtIn, List.take_nil, List.append_nil]
  | cons x r =>
    obtain ⟨l, hl⟩ := evtRemove_of_loss h
    rw [hl, evtLossBack_evtIn, Blk.setEvtInQ_evtIn, List.take_succ_cons, List.take_zero]

theorem evtRemove_out : (evtRemove j b).out = b.out := by
  cases h : evtLostItems b j with
  | nil => rw [evtRemove_of_noLoss h, Blk.setEvtInQ_out]
  | cons x r =>
    obtain ⟨l, hl⟩ := evtRemove_of_loss h
    rw [hl, evtLossBack_out, Blk.setEvtInQ_out]

theorem evtRemove_level : (evtRemove j b).fld (Reg.EVT_INj_STATUS j) 3 0 = (evtLeft b j).length % 16 := by
  unfold evtLeft
  cases h : evtLostItems b j with
  | nil => rw [evtRemove_of_noLoss h, Blk.fld_setEvtInQ, List.take_nil, List.append_nil]
  | cons x r =>
    obtain ⟨l, hl⟩ := evtRemove_of_loss h
    rw [hl, evtLossBack_level, Blk.fld_setEvtInQ, List.take_succ_cons, List.take_zero]

theorem evtRemove_rd_ne {a : Nat}
    (ha : a ∉ [Reg.EVT_INj_STATUS j] ++ if evtLostItems b j = [] then [] else evtLossRegs j) : (evtRemove j b).rd a = b.rd a := by
  rw [List.mem_append, List.mem_singleton, not_or] at ha
  obtain ⟨hstatus, hloss⟩ := ha
  cases h : evtLostItems b j with
  | nil => rw [evtRemove_of_noLoss h, Blk.rd_setEvtInQ_ne _ _ _ hstatus]
  | cons x r =>
    obtain ⟨l, hl⟩ := evtRemove_of_loss h
    rw [h, if_neg (List.cons_ne_nil _ _)] at hloss
    rw [hl, evtLossBack_rd_ne _ _ _ _ hstatus hloss, Blk.rd_setEvtInQ_ne _ _ _ hstatus]

end

/-- Settles O16: the access completes with the head's word, and `evtRemove` leaves `evtLeft`. -/
theorem captureQueuePop : Obligations.CaptureQueuePop := by
  intro s j who hon more
  let c := s.blk.emit (.readDone who (Reg.EVT_INj_Fx j 5) (BitVec.ofNat 32 (evtInWord s.blk j 5)) false)
  have hpop : evtInPop j who s.blk = evtRemove j c := rfl
  have hq : (evtRemove j c).evtIn = Tab.upd [] s.blk.evtIn j (evtLeft s.blk j) := evtRemove_evtIn c j
  have hout : (evtRemove j c).out = c.out := evtRemove_out c j
  refine ⟨_, inDomRead_on hon, ?_, fun k hk => ?_, fun x r hx => hout.trans ?_, fun hempty => hout.trans ?_, fun a ha => ?_,
    evtRemove_level c j, fun hmore => ?_, rfl⟩
  · exact (congrArg (Tab.at [] · j.val) hq).trans (Tab.at_upd_self ..)
  · exact (congrArg (Tab.at [] · k) hq).trans (Tab.at_upd_ne _ _ _ hk)
  · simp [c, evtInWord, hx]
  · simp [c, evtInWord, hempty]
  · exact evtRemove_rd_ne c j ha
  · have hloss : evtLostItems c j = [] := hmore
    exact (congrArg (Blk.rdN · _) (evtRemove_of_noLoss hloss)).trans (Blk.rdN_setFld_self _ _ 3 0 _ (by decide) (by decide))

/-! ### The canvas flip (R107, R108) -/

theorem cnvNext_of_waiting {found : ReFound} {m : Mem} {b : Blk} (h : 2 ≤ cnvBack b ∨ b.flag Reg.CNV_STATUS 7 = true) :
    cnvNext found m b = b.irq Reg.CNV_INT_STATUS 4 := if_pos (by simpa using h)

theorem flipLatch_of_idle {b : Blk}
    (h : merState b (cnvMer b) = 0 ∨ b.cnv.latchDone = true ∨ merTick b (cnvMer b) < flipLine b) : flipLatch b = b :=
  if_pos (by simpa [or_assoc] using h)

section
variable {b : Blk} (hrun : merState b (cnvMer b) ≠ 0) (hfirst : b.cnv.latchDone = false) (hline : flipLine b ≤ merTick b (cnvMer b))
include hrun hfirst hline

theorem flipLatch_eq : flipLatch b =
    let c := b.setCnv { b.cnv with latchDone := true }
    if cnvBack b = 2 ∧ b.cnv.commitAt < b.now then (cnvSetBack c 3 3).wrN Reg.CNV_FLIP_FRAME ((merPos b (cnvMer b)).1 + 1) else c := by
  have hgo : ¬ (merState b (cnvMer b) = 0 || b.cnv.latchDone || decide (merTick b (cnvMer b) < flipLine b)) = true := by
    simp [hrun, hfirst, hline]
  rw [flipLatch, if_neg hgo]
  simp only [Bool.and_eq_true, decide_eq_true_eq]
  rfl

theorem flipLatch_of_pending (hback : cnvBack b = 2) (hbefore : b.cnv.commitAt < b.now) : flipLatch b =
    (cnvSetBack (b.setCnv { b.cnv with latchDone := true }) 3 3).wrN Reg.CNV_FLIP_FRAME ((merPos b (cnvMer b)).1 + 1) :=
  (flipLatch_eq hrun hfirst hline).trans (if_pos ⟨hback, hbefore⟩)

theorem flipLatch_of_other (h : cnvBack b ≠ 2 ∨ b.now ≤ b.cnv.commitAt) : flipLatch b = b.setCnv { b.cnv with latchDone := true } :=
  (flipLatch_eq hrun hfirst hline).trans (if_neg (by omega))

end

/-- A latched back buffer shows so, whatever FLIP_FRAME takes. -/
theorem cnvBack_latched (b : Blk) (n : Nat) : cnvBack ((cnvSetBack b 3 3).wrN Reg.CNV_FLIP_FRAME n) = 3 :=
  (Blk.fld_congr (Blk.rd_wrN_ne _ _ (by decide)) 5 4).trans
    ((Blk.fld_setFld_apart _ _ _ (by decide) (by decide) (.inr (by decide))).trans
      (Blk.fld_setFld_self _ _ 5 4 3 (by decide) (by decide)))

theorem cnvLatched_rd_ne (b : Blk) (n : Nat) {a : Nat} (h : a ∉ [Reg.CNV_STATUS, Reg.CNV_FLIP_FRAME]) :
    ((cnvSetBack b 3 3).wrN Reg.CNV_FLIP_FRAME n).rd a = b.rd a := by
  simp only [List.mem_cons, List.not_mem_nil, or_false, not_or] at h
  obtain ⟨hstatus, hframe⟩ := h
  exact (Blk.rd_wrN_ne _ _ hframe).trans ((Blk.rd_setFld_ne _ _ _ _ hstatus).trans (Blk.rd_setFld_ne _ _ _ _ hstatus))

theorem cnvLatched_cnv (b : Blk) (n : Nat) : ((cnvSetBack b 3 3).wrN Reg.CNV_FLIP_FRAME n).cnv = b.cnv := rfl

/-- Settles O17: a waiting buffer takes the branch that sets COMMIT_IGNORED alone; the latch cycle splits at a pending buffer. -/
theorem canvasCommitIgnored : Obligations.CanvasCommitIgnored := by
  intro s hon mer
  refine ⟨fun found hwait => ?_, fun hidle => exec_onBlk_unchanged hon rfl (flipLatch_of_idle hidle), fun hrun hfirst hline => ?_⟩
  · have hwaits : 2 ≤ cnvBack s.blk ∨ s.blk.flag Reg.CNV_STATUS 7 = true := by
      obtain hback | hback | hflag := hwait
      · exact .inl (by omega)
      · exact .inl (by omega)
      · exact .inr hflag
    refine ⟨{ s with blk := s.blk.irq Reg.CNV_INT_STATUS 4 }, (inDom_on (act := onView (cnvNext found)) hon).trans ?_, onlyRegs_irq s _ 4,
      Blk.rdN_irq_self _ _ 4 (by decide)⟩
    rw [onView_eq, cnvNext_of_waiting hwaits]
  · by_cases hpending : cnvBack s.blk = 2 ∧ s.blk.cnv.commitAt < s.blk.now
    · obtain ⟨hback, hbefore⟩ := hpending
      refine answers_onBlk (f := flipLatch) hon rfl ?_
      rw [flipLatch_of_pending hrun hfirst hline hback hbefore]
      exact ⟨cnvLatched_cnv .., rfl, fun _ _ => ⟨cnvBack_latched .., Blk.rd_wrN_self .., fun a ha => cnvLatched_rd_ne _ _ ha⟩,
        fun hother => absurd hother (by omega)⟩
    · have hother : cnvBack s.blk ≠ 2 ∨ s.blk.now ≤ s.blk.cnv.commitAt := by omega
      refine answers_onBlk (f := flipLatch) hon rfl ?_
      rw [flipLatch_of_other hrun hfirst hline hother]
      exact ⟨rfl, rfl, fun hback hbefore => absurd ⟨hback, hbefore⟩ hpending, fun _ _ _ => rfl⟩

end Sys2Proof.Machine
end


section
/-!
Timers of ports under FUNC 1 and 2 (R213, R214, R219), and of nodes (R196, R203, R204).
-/
namespace Sys2Proof.Machine

/-! ### Ports under FUNC 1 and 2 -/

theorem exec_onMem_unchanged {d : Nat} {f : Mem → Blk → Blk × List Host.Cell} {s : State} {i : Instr} (h : domOn s.blk d = true)
    (he : exec i s = inDom d (onMem f) s) (hf : f s.mem s.blk = (s.blk, [])) : exec i s = .next s := by
  rw [he, inDom_on h, onMem_eq, hf]
  rfl

section
variable {b : Blk} {n : Nat}

theorem dmxKeepalive_of_other (h : altRuns b n 1 = false) : dmxKeepalive n b = b := by simp [dmxKeepalive, h]

theorem rdmRequestStart_of_other (h : altRuns b n 1 = false) : rdmRequestStart n b = b := by
  unfold rdmRequestStart
  cases (b.alt n).rdm <;> simp [h]

theorem daliBusDown_of_other {rxp : Bool} (m : Mem) (h : altRuns b n 2 = false ∨ daliActive b n rxp = false) :
    daliBusDown n rxp m b = (b, []) := by
  have hidle : ¬ (altRuns b n 2 && daliActive b n rxp) = true := by simpa [← not_and_or, or_iff_not_imp_left] using h
  exact if_neg hidle

theorem rdmWaitExpiry_of_none (h : (b.alt n).rdm = none) : rdmWaitExpiry n b = b := by simp [rdmWaitExpiry, h]

variable {q : RdmReq} (hq : (b.alt n).rdm = some q)
include hq

theorem rdmWaitExpiry_of_early (h : b.now < q.asked + 1000000 * (b.alt n).cfg.rdmWait) : rdmWaitExpiry n b = b := by
  simp [rdmWaitExpiry, hq, h]

theorem rdmWaitExpiry_of_due (h : q.asked + 1000000 * (b.alt n).cfg.rdmWait ≤ b.now) (hreq : (b.alt n).line ≠ .request)
    (hresp : (b.alt n).line ≠ .response) :
    rdmWaitExpiry n b = b.setAlt n { b.alt n with rdm := some { q with take := true } } := by
  simp [rdmWaitExpiry, hq, hreq, hresp, Nat.not_lt.mpr h]

end

/-- Settles O24: each command is split at its own conditions; the one that acts writes the port's record alone. -/
theorem alternateWaits : Obligations.AlternateWaits := by
  intro s n hon
  refine ⟨fun hnone => ?_, fun q hq => ⟨fun hearly => ?_, fun hdue hreq hresp => ?_⟩, fun hother => ⟨?_, ?_⟩, fun d rxp hond hother => ?_⟩
  · exact exec_onBlk_unchanged hon rfl (rdmWaitExpiry_of_none hnone)
  · exact exec_onBlk_unchanged hon rfl (rdmWaitExpiry_of_early hq hearly)
  · refine answers_onBlk (f := rdmWaitExpiry n) hon rfl ?_
    rw [rdmWaitExpiry_of_due hq hdue hreq hresp]
    exact ⟨rfl, rfl, rfl, Tab.at_upd_self .., fun k hk => Tab.at_upd_ne _ _ _ hk⟩
  · exact exec_onBlk_unchanged hon rfl (dmxKeepalive_of_other hother)
  · exact exec_onBlk_unchanged hon rfl (rdmRequestStart_of_other hother)
  · exact exec_onMem_unchanged hond rfl (daliBusDown_of_other _ hother)

/-! ### One node's record and the others' -/

theorem nodeKey_inj {n n' : Fin 32} {k k' : Fin 2048} (h : 2048 * n'.val + k'.val = 2048 * n.val + k.val) : n' = n ∧ k' = k := by
  constructor <;> ext <;> omega

section
variable (b : Blk) (n : Fin 32) (k : Fin 2048) (x : Node)

theorem Blk.node_setNode_self : (b.setNode n k x).node n k = x := Tab.at_upd_self ..

theorem Blk.node_setNode_ne {n' : Fin 32} {k' : Fin 2048} (h : n' ≠ n ∨ k' ≠ k) : (b.setNode n k x).node n' k' = b.node n' k' :=
  Tab.at_upd_ne _ _ _ (fun he => by obtain ⟨hn, hk⟩ := nodeKey_inj he; simp [hn, hk] at h)

end

/-! ### What the light of a node changes: its count of clips, and what has left -/

/-- `c` is `b` but for the count of window clips of node `k` of strand `n` and the outputs that have left since. -/
structure OnlyLight (n : Fin 32) (k : Fin 2048) (b c : Blk) : Prop where
  regs : c.regs = b.regs
  node : ∃ clips, c.node n k = { b.node n k with windowClips := clips }
  others : ∀ (n' : Fin 32) (k' : Fin 2048), (n' ≠ n ∨ k' ≠ k) → c.node n' k' = b.node n' k'
  out : ∃ light, c.out = b.out ++ light

namespace OnlyLight
variable {n : Fin 32} {k : Fin 2048} {b c d : Blk}

theorem refl (b : Blk) : OnlyLight n k b b := ⟨rfl, ⟨_, rfl⟩, fun _ _ _ => rfl, [], (List.append_nil _).symm⟩

theorem trans (hc : OnlyLight n k b c) (hd : OnlyLight n k c d) : OnlyLight n k b d := by
  obtain ⟨clips, hclips⟩ := hc.node
  obtain ⟨clips', hclips'⟩ := hd.node
  obtain ⟨light, hlight⟩ := hc.out
  obtain ⟨light', hlight'⟩ := hd.out
  refine ⟨hd.regs.trans hc.regs, ⟨clips', ?_⟩, fun n' k' h => (hd.others n' k' h).trans (hc.others n' k' h), light ++ light', ?_⟩
  · rw [hclips', hclips]
  · rw [hlight', hlight, List.append_assoc]

theorem emit (b : Blk) (o : Output) : OnlyLight n k b (b.emit o) := ⟨rfl, ⟨_, rfl⟩, fun _ _ _ => rfl, [o], rfl⟩

theorem clipped (b : Blk) (clips : Nat) : OnlyLight n k b (b.setNode n k { b.node n k with windowClips := clips }) :=
  ⟨rfl, ⟨clips, Blk.node_setNode_self ..⟩, fun _ _ h => Blk.node_setNode_ne _ _ _ _ h, [], (List.append_nil _).symm⟩

theorem clippedIf (p : Prop) [Decidable p] (b : Blk) (clips : Nat) :
    OnlyLight n k b (if p then b.setNode n k { b.node n k with windowClips := clips } else b) := by
  split
  · exact clipped b clips
  · exact refl b

theorem foldl {α : Type} {f : Blk → α → Blk} (h : ∀ b a, OnlyLight n k b (f b a)) (l : List α) (b : Blk) : OnlyLight n k b (l.foldl f b) :=
  List.foldlRecOn l f (motive := OnlyLight n k b) (refl b) (fun c hc a _ => hc.trans (h c a))

end OnlyLight

theorem nodeLight_onlyLight (n : Fin 32) (k : Fin 2048) (t : Int) (b : Blk) : OnlyLight n k b (nodeLight n k t b) := by
  unfold nodeLight
  extract_lets
  split
  · exact .refl b
  · refine OnlyLight.foldl (fun c e => ?_) _ b
    exact (OnlyLight.clippedIf ..).trans (.emit _ _)

/-! ### The fail-safe scene (R203, R204) -/

/-- The record of a node that goes into fail-safe. -/
def Node.failed (x : Node) : Node := { x with shown := x.scene, state := 2, park := none, fails := satInc 16 x.fails }

section
variable (n : Fin 32) (k : Fin 2048) (b : Blk)

theorem nodeFailSafe_onlyLight :
    OnlyLight n k ((b.setNode n k (b.node n k).failed).emit (.nodeShow n k (b.node n k).scene)) (nodeFailSafe n k b) := nodeLight_onlyLight ..

/-- What fail-safe leaves: the record but for its count of clips, the other nodes, every register, and what it shows. -/
theorem nodeFailSafe_leaves :
    (nodeFailSafe n k b).regs = b.regs ∧
    (∀ (n' : Fin 32) (k' : Fin 2048), (n' ≠ n ∨ k' ≠ k) → (nodeFailSafe n k b).node n' k' = b.node n' k') ∧
    (∃ clips, (nodeFailSafe n k b).node n k = { (b.node n k).failed with windowClips := clips }) ∧
    ∃ light, (nodeFailSafe n k b).out = b.out ++ .nodeShow n k (b.node n k).scene :: light := by
  obtain ⟨hregs, ⟨clips, hnode⟩, hothers, light, hout⟩ := nodeFailSafe_onlyLight n k b
  refine ⟨hregs, fun n' k' h => (hothers n' k' h).trans (Blk.node_setNode_ne _ _ _ _ h), ⟨clips, ?_⟩, light, ?_⟩
  · rw [hnode]
    exact congrArg (fun x : Node => { x with windowClips := clips }) (Blk.node_setNode_self ..)
  · rw [hout, Blk.emit]
    simp [Blk.setNode]

end

section
variable {b : Blk} {n k : Nat}

theorem nodeHoldExpiry_of_idle
    (h : (b.node n k).state = 3 ∨ (b.node n k).state = 2 ∨ b.now < (b.node n k).holdFrom + (b.node n k).holdNs) : nodeHoldExpiry n k b = b :=
  if_pos (by simpa [or_assoc] using h)

theorem nodeHoldExpiry_of_due (hpark : (b.node n k).state ≠ 3) (hfail : (b.node n k).state ≠ 2)
    (hdue : (b.node n k).holdFrom + (b.node n k).holdNs ≤ b.now) : nodeHoldExpiry n k b = nodeFailSafe n k b :=
  if_neg (by simp [hpark, hfail, hdue])

theorem nodeParkLimitExpiry_of_idle (h : (b.node n k).state ≠ 3 ∨ (b.node n k).park = none) : nodeParkLimitExpiry n k b = b := by
  unfold nodeParkLimitExpiry
  obtain hstate | hnone := h
  · cases (b.node n k).park <;> simp [hstate]
  · simp [hnone]

theorem nodeParkLimitExpiry_of_early {since minutes : Nat} (hpark : (b.node n k).park = some (since, minutes))
    (h : b.now < since + minutes * 60 * 10 ^ 9) : nodeParkLimitExpiry n k b = b := by
  unfold nodeParkLimitExpiry
  rw [hpark]
  exact if_neg (by rw [Bool.and_eq_true, decide_eq_true_eq, decide_eq_true_eq]; omega)

theorem nodeParkLimitExpiry_of_due {since minutes : Nat} (hpark : (b.node n k).park = some (since, minutes))
    (hstate : (b.node n k).state = 3) (h : since + minutes * 60 * 10 ^ 9 ≤ b.now) : nodeParkLimitExpiry n k b = nodeFailSafe n k b := by
  unfold nodeParkLimitExpiry
  rw [hpark]
  exact if_pos (by rw [Bool.and_eq_true, decide_eq_true_eq, decide_eq_true_eq]; exact ⟨hstate, h⟩)

theorem nodeRateSwitch_of_none (h : (b.node n k).rateNext = none) : nodeRateSwitch n k b = b := by simp [nodeRateSwitch, h]

theorem nodeRateSwitch_of_some {r : Nat} (h : (b.node n k).rateNext = some r) :
    nodeRateSwitch n k b = b.setNode n k { b.node n k with rate := some r, rateNext := none } := by simp [nodeRateSwitch, h]

end

/-- Settles O22: the timers split at their conditions, and where one has run out the node's light is the only other change. -/
theorem nodeTimers : Obligations.NodeTimers := by
  intro s n k x others fails
  have hkept {i : Instr} {f : Blk → Blk} (he : exec i s = onBlk f s) (hf : f s.blk = s.blk) : exec i s = .next s := by
    rw [he, onBlk, hf]
  have hfails {i : Instr} {f : Blk → Blk} (he : exec i s = onBlk f s) (hf : f s.blk = nodeFailSafe n k s.blk) : fails i := by
    obtain ⟨hregs, hothers, ⟨clips, hnode⟩, hout⟩ := nodeFailSafe_leaves n k s.blk
    refine ⟨{ s with blk := nodeFailSafe n k s.blk }, by rw [he, onBlk, hf], rfl, hregs, hothers, ?_⟩
    rw [hnode]
    exact ⟨rfl, rfl, rfl, rfl, hout⟩
  refine ⟨fun hidle => hkept rfl (nodeHoldExpiry_of_idle hidle), fun hpark hfail hdue => hfails rfl (nodeHoldExpiry_of_due hpark hfail hdue),
    fun hidle => hkept rfl (nodeParkLimitExpiry_of_idle hidle), fun since minutes hpark => ⟨fun hearly => ?_, fun hstate hdue => ?_⟩,
    fun hnone => hkept rfl (nodeRateSwitch_of_none hnone), fun r hr => ?_⟩
  · exact hkept rfl (nodeParkLimitExpiry_of_early hpark hearly)
  · exact hfails rfl (nodeParkLimitExpiry_of_due hpark hstate hdue)
  · refine ⟨{ s with blk := s.blk.setNode n k { x with rate := some r, rateNext := none } }, ?_, rfl, rfl, Blk.node_setNode_self ..,
      fun _ _ h => Blk.node_setNode_ne _ _ _ _ h⟩
    rw [← nodeRateSwitch_of_some hr]
    rfl

end Sys2Proof.Machine
end


section
/-!
The hold limit and FAULT_CLR of the drive channels (R246, R250, R252, R253).
-/
namespace Sys2Proof.Machine

/-! ### A channel goes off (R228) -/

/-- The status register of a channel is none of those that a channel going off writes beside it, nor another channel's. -/
theorem drvStatus_apart : ∀ c k : Fin 16, Reg.DRV_c_STATUS k ≠ Reg.DRV_STATUS ∧ Reg.DRV_c_STATUS k ≠ Reg.DRV_c_STEP c ∧
    Reg.DRV_c_STATUS k ≠ Reg.DRV_c_WIDTH c ∧ Reg.DRV_c_STATUS k ≠ Reg.DRV_INT_STATUS ∧ Reg.DRV_c_STATUS k ≠ Reg.DRV_HOLD_REMAIN ∧
    (k ≠ c → Reg.DRV_c_STATUS k ≠ Reg.DRV_c_STATUS c) := by decide +kernel

section
variable (b : Blk) (c k : Fin 16)

/-- The registers of a channel that goes off; its record and its pins are none. -/
theorem drvOff_regs (st : Nat) : (drvOff b c st).regs =
    (((drvSetState b c st).zero [Reg.DRV_c_STEP c, Reg.DRV_c_WIDTH c]).setFld (Reg.DRV_c_STATUS c) 5 4 3).regs := rfl

theorem drvState_congr {b d : Blk} (h : d.rd (Reg.DRV_c_STATUS k) = b.rd (Reg.DRV_c_STATUS k)) : drvState d k = drvState b k :=
  Blk.fld_congr h 2 0

theorem rd_zero_stepWidth : (b.zero [Reg.DRV_c_STEP c, Reg.DRV_c_WIDTH c]).rd (Reg.DRV_c_STATUS k) = b.rd (Reg.DRV_c_STATUS k) := by
  obtain ⟨-, hstep, hwidth, -⟩ := drvStatus_apart c k
  rw [Blk.rd_zero, if_neg (by simp [hstep, hwidth])]

theorem drvState_drvOff_self : drvState (drvOff b c 0) c = 0 := by
  obtain ⟨hblock, -⟩ := drvStatus_apart c c
  calc drvState (drvOff b c 0) c
      = (((drvSetState b c 0).zero [Reg.DRV_c_STEP c, Reg.DRV_c_WIDTH c]).setFld (Reg.DRV_c_STATUS c) 5 4 3).fld (Reg.DRV_c_STATUS c) 2 0 :=
        drvState_congr c (Blk.rd_congr (drvOff_regs b c 0) _)
    _ = drvState ((drvSetState b c 0).zero [Reg.DRV_c_STEP c, Reg.DRV_c_WIDTH c]) c :=
        Blk.fld_setFld_apart _ _ _ (by decide) (by decide) (.inl (by decide))
    _ = drvState (drvSetState b c 0) c := drvState_congr c (rd_zero_stepWidth _ c c)
    _ = drvState (b.setFld (Reg.DRV_c_STATUS c) 2 0 0) c := drvState_congr c (Blk.rd_setFlag_ne _ _ _ hblock)
    _ = 0 := Blk.fld_setFld_self _ _ 2 0 0 (by decide) (by decide)

theorem drvState_drvOff_ne (st : Nat) (h : k ≠ c) : drvState (drvOff b c st) k = drvState b k := by
  obtain ⟨hblock, -, -, -, -, hother⟩ := drvStatus_apart c k
  refine drvState_congr k ((Blk.rd_congr (drvOff_regs b c st) _).trans ((Blk.rd_setFld_ne _ _ _ _ (hother h)).trans
    ((rd_zero_stepWidth _ c k).trans ((Blk.rd_setFlag_ne _ _ _ hblock).trans (Blk.rd_setFld_ne _ _ _ _ (hother h))))))

end

/-- Channels of a list go off, and no other. -/
theorem drvState_foldl_drvOff (l : List Nat) (b : Blk) (k : Fin 16) (hl : ∀ c ∈ l, c < 16) :
    drvState (l.foldl (fun b c => drvOff b c 0) b) k = if k.val ∈ l then 0 else drvState b k := by
  induction l generalizing b with
  | nil => simp
  | cons c cs ih =>
    obtain ⟨hc, hcs⟩ := List.forall_mem_cons.mp hl
    rw [List.foldl_cons, ih _ hcs]
    by_cases hk : k = ⟨c, hc⟩
    · simp [hk, drvState_drvOff_self b ⟨c, hc⟩]
    · have hkc : k.val ≠ c := fun he => hk (Fin.ext he)
      simp [hkc, drvState_drvOff_ne b ⟨c, hc⟩ k 0 hk]

/-! ### The hold limit (R252) -/

/-- The block in which no channel is left in HOLD and the hold is over. -/
def drvHoldGone (b : Blk) : Blk :=
  let c := ((List.range 16).filter (fun c => drvState b c == 2)).foldl (fun b c => drvOff b c 0) b
  { c with drv := { c.drv with holdEnd := none, reclaim := false } }

theorem drvState_drvHoldGone (b : Blk) (k : Fin 16) : drvState (drvHoldGone b) k = if drvState b k = 2 then 0 else drvState b k := by
  refine (drvState_foldl_drvOff _ b k (fun c hc => List.mem_range.mp (List.mem_of_mem_filter hc))).trans ?_
  simp [k.isLt]

/-- What shows that the hold is over: the remaining time is 0, HOLD_EXPIRED is set and HOLD_ACTIVE clear. -/
def drvHoldShown (b : Blk) : Blk := ((b.wr Reg.DRV_HOLD_REMAIN 0#32).setFld Reg.DRV_STATUS 17 16 2).irq Reg.DRV_INT_STATUS 1

section
variable (b : Blk)

theorem drvHoldShown_state (k : Fin 16) : drvState (drvHoldShown b) k = drvState b k := by
  obtain ⟨hblock, -, -, hint, hremain, -⟩ := drvStatus_apart k k
  exact drvState_congr k ((Blk.rd_irq_ne _ _ hint).trans ((Blk.rd_setFld_ne _ _ _ _ hblock).trans (Blk.rd_wr_ne _ _ hremain)))

theorem drvHoldShown_flag (i : Nat) : (drvHoldShown b).flag Reg.DRV_STATUS i =
    ((b.wr Reg.DRV_HOLD_REMAIN 0#32).setFld Reg.DRV_STATUS 17 16 2).flag Reg.DRV_STATUS i := Blk.flag_congr (Blk.rd_irq_ne _ _ (by decide)) i

/-- HOLD_EXPIRED is bit 17 and HOLD_ACTIVE bit 16 of DRV_STATUS. -/
theorem drvHoldShown_status : (drvHoldShown b).flag Reg.DRV_STATUS 16 = false ∧ (drvHoldShown b).flag Reg.DRV_STATUS 17 = true := by
  have hfld := Blk.fld_setFld_self (b.wr Reg.DRV_HOLD_REMAIN 0#32) Reg.DRV_STATUS 17 16 2 (by decide) (by decide)
  rw [drvHoldShown_flag, drvHoldShown_flag, Blk.flag, Blk.flag]
  revert hfld
  generalize ((b.wr Reg.DRV_HOLD_REMAIN 0#32).setFld Reg.DRV_STATUS 17 16 2) = c
  rw [Blk.fld]
  generalize c.rdN Reg.DRV_STATUS = n
  simp only [bits, bit, beq_eq_false_iff_ne, beq_iff_eq]
  omega

theorem drvHoldShown_remain : (drvHoldShown b).rd Reg.DRV_HOLD_REMAIN = 0#32 :=
  (Blk.rd_irq_ne _ _ (by decide)).trans ((Blk.rd_setFld_ne _ _ _ _ (by decide)).trans (Blk.rd_wr_self ..))

theorem drvHoldExpiry_of_idle (h : b.flag Reg.DRV_STATUS 16 = false ∨ ∃ e, b.drv.holdEnd = some e ∧ b.now < e) : drvHoldExpiry b = b := by
  refine if_pos ?_
  obtain hflag | ⟨e, he, hlt⟩ := h
  · simp [hflag]
  · simp [he, hlt]

theorem drvHoldExpiry_of_due (hflag : b.flag Reg.DRV_STATUS 16 = true) (hdue : ∀ e, b.drv.holdEnd = some e → e ≤ b.now) :
    drvHoldExpiry b = drvHoldShown (drvHoldGone b) := by
  refine if_neg ?_
  cases he : b.drv.holdEnd with
  | none => simp [hflag]
  | some e => simpa [hflag] using hdue e he

theorem drvReclaim_of_noHold (h : b.flag Reg.DRV_STATUS 16 = false) : drvReclaim b = b := by simp [drvReclaim, h]

/-! ### FAULT_CLR (R246, R250) -/

variable {b}

theorem drvFaultClr_of_idle {c : Nat} (h : drvState b c ≤ 2 ∨ (b.chan c).faultClock = some b.now) : drvFaultClr c b = b := by
  unfold drvFaultClr
  obtain hstate | hclock := h
  · have hfault : drvState b c ≠ 3 := by omega
    have htcrit : drvState b c ≠ 4 := by omega
    simp [hfault, htcrit]
  · exact if_pos hclock

theorem drvFaultClr_of_fault {c : Nat} (hstate : drvState b c = 3) (hclock : (b.chan c).faultClock ≠ some b.now) :
    drvFaultClr c b = b.setChan c { b.chan c with restart := true, auto := false } := by
  simp [drvFaultClr, hstate, hclock]

end

/-- Settles O26: the expiry takes every channel in HOLD off and shows the end of the hold; FAULT_CLR writes its channel's record alone. -/
theorem driveHoldLimit : Obligations.DriveHoldLimit := by
  intro s hon
  refine ⟨fun hflag => ⟨?_, ?_⟩, fun e he hlt => ?_, fun hflag hdue => ?_, fun c => ⟨fun hidle => ?_, fun hstate hclock => ?_⟩⟩
  · exact exec_onBlk_unchanged hon rfl (drvHoldExpiry_of_idle _ (.inl hflag))
  · exact exec_onBlk_unchanged hon rfl (drvReclaim_of_noHold _ hflag)
  · exact exec_onBlk_unchanged hon rfl (drvHoldExpiry_of_idle _ (.inr ⟨e, he, hlt⟩))
  · refine answers_onBlk (f := drvHoldExpiry) hon rfl ?_
    rw [drvHoldExpiry_of_due _ hflag hdue]
    refine ⟨rfl, fun c => (drvHoldShown_state _ c).trans (drvState_drvHoldGone _ c), (drvHoldShown_status _).1, (drvHoldShown_status _).2,
      drvHoldShown_remain _, Blk.flag_irq_self _ _ 1 (by decide)⟩
  · exact exec_onBlk_unchanged hon rfl (drvFaultClr_of_idle hidle)
  · refine answers_onBlk (f := drvFaultClr c) hon rfl ?_
    rw [drvFaultClr_of_fault hstate hclock]
    have hself : (s.blk.setChan c { s.blk.chan c with restart := true, auto := false }).chan c = _ := Tab.at_upd_self ..
    exact ⟨rfl, rfl, congrArg DrvChan.restart hself, congrArg DrvChan.auto hself, fun k hk => Tab.at_upd_ne _ _ _ hk⟩

end Sys2Proof.Machine
end


section
/-!
Software's commands on a time base (R37, R43): what a set, a step and an ACCEPT_JUMP change, and what the Meridians that follow keep (R66).
-/
namespace Sys2Proof.Machine

/-! ### What the Meridians leave alone: the time bases -/

/-- `c` has the time bases and the clock of `b`, and the registers below those of the Meridians, where those of the time bases lie. -/
structure KeepsTbs (b c : Blk) : Prop where
  tbs : c.tbs = b.tbs
  now : c.now = b.now
  regs : ∀ a, a < 0x40020800 → c.rd a = b.rd a

namespace KeepsTbs
variable {b c d : Blk} {a : Nat}

theorem refl (b : Blk) : KeepsTbs b b := ⟨rfl, rfl, fun _ _ => rfl⟩

theorem trans (h : KeepsTbs b c) (hd : KeepsTbs c d) : KeepsTbs b d :=
  ⟨hd.tbs.trans h.tbs, hd.now.trans h.now, fun a ha => (hd.regs a ha).trans (h.regs a ha)⟩

theorem of_rfl (ht : c.tbs = b.tbs) (hn : c.now = b.now) (hr : c.regs = b.regs) : KeepsTbs b c := ⟨ht, hn, fun a _ => Blk.rd_congr hr a⟩

theorem wr (ha : 0x40020800 ≤ a) (v : Word) (h : KeepsTbs b c) : KeepsTbs b (c.wr a v) :=
  h.trans ⟨c.wr_tbs a v, c.wr_now a v, fun _ he => Blk.rd_wr_ne c v (by omega)⟩

theorem wrN (ha : 0x40020800 ≤ a) (n : Nat) (h : KeepsTbs b c) : KeepsTbs b (c.wrN a n) := h.wr ha _

theorem setFld (ha : 0x40020800 ≤ a) (hi lo v : Nat) (h : KeepsTbs b c) : KeepsTbs b (c.setFld a hi lo v) := h.wr ha _

theorem setFlag (ha : 0x40020800 ≤ a) (i : Nat) (v : Bool) (h : KeepsTbs b c) : KeepsTbs b (c.setFlag a i v) := h.wr ha _

theorem count (ha : 0x40020800 ≤ a) (n : Nat) (h : KeepsTbs b c) : KeepsTbs b (c.count a n) := h.wr ha _

theorem irq (ha : 0x40020800 ≤ a) (i : Nat) (h : KeepsTbs b c) : KeepsTbs b (c.irq a i) :=
  h.trans ⟨c.irq_tbs a i, c.irq_now a i, fun _ he => Blk.rd_irq_ne c i (by omega)⟩

theorem setMer (m : Nat) (x : Meridian) (h : KeepsTbs b c) : KeepsTbs b (c.setMer m x) := h.trans (.of_rfl rfl rfl rfl)

theorem setCnv (x : Canvas) (h : KeepsTbs b c) : KeepsTbs b (c.setCnv x) := h.trans (.of_rfl rfl rfl rfl)

theorem ite {p : Prop} [Decidable p] (hc : KeepsTbs b c) (hd : KeepsTbs b d) : KeepsTbs b (if p then c else d) := by
  split
  · exact hc
  · exact hd

theorem foldl {α : Type} {f : Blk → α → Blk} (hf : ∀ b x, KeepsTbs b (f b x)) (l : List α) (b : Blk) : KeepsTbs b (l.foldl f b) :=
  List.foldlRecOn l f (motive := KeepsTbs b) (refl b) (fun c hc x _ => hc.trans (hf c x))

end KeepsTbs

/-! ### The canvas and the Waypoints follow a Meridian -/

theorem keepsTbs_cnvSetBack (b : Blk) (st fp : Nat) : KeepsTbs b (cnvSetBack b st fp) :=
  .setFld (by decide) _ _ _ (.setFld (by decide) _ _ _ (.refl b))

theorem keepsTbs_cnvSwitch (b : Blk) : KeepsTbs b (cnvSwitch b) := by
  unfold cnvSwitch
  extract_lets front old shown canvas
  have hfront : KeepsTbs b front := (keepsTbs_cnvSetBack b 0 0).setFld (by decide) 3 3 _
  have hshown : KeepsTbs b shown := (hfront.setFlag (by decide) 2 true).wrN (by decide) _
  exact .ite (((hshown.setCnv _).irq (by decide) 1).count (by decide) 1) (.refl b)

theorem keepsTbs_cnvPlan (b : Blk) (running : Bool) (frame : Nat) : KeepsTbs b (cnvPlan b running frame) := by
  have hplanned (st n : Nat) : KeepsTbs b ((b.setFld Reg.CNV_STATUS 1 0 st).wrN Reg.CNV_FLIP_FRAME n) :=
    .wrN (by decide) _ (.setFld (by decide) _ _ _ (.refl b))
  exact .ite (.refl b) (.ite (hplanned _ _) (.ite (hplanned _ _) (hplanned _ _)))

theorem keepsTbs_cnvEntry (b : Blk) (m frame : Nat) (isNew : Bool) : KeepsTbs b (cnvEntry b m frame isNew) := by
  refine .ite (.refl b) ?_
  have hswitched : KeepsTbs b (if isNew then cnvSwitch b else b) := .ite (keepsTbs_cnvSwitch b) (.refl b)
  exact (hswitched.setCnv _).trans (keepsTbs_cnvPlan _ _ _)

theorem keepsTbs_setWpt (b : Blk) (i : Nat) (x : Option Waypoint) : KeepsTbs b (b.setWpt i x) :=
  .setFld (by decide) _ _ _ (.of_rfl rfl rfl rfl)

theorem keepsTbs_dueAdd (b : Blk) (l : List WptDue) : KeepsTbs b { b with wptDue := l } := .of_rfl rfl rfl rfl

theorem keepsTbs_wptLate (b : Blk) (i : Nat) (w : Waypoint) : KeepsTbs b (wptLate b i w) := by
  have hcounted {a : Nat} (ha : 0x40020800 ≤ a) (j : Nat) : KeepsTbs b ((b.count a).irq Reg.WPT_INT_STATUS j) :=
    .irq (by decide) _ (.count ha _ (.refl b))
  unfold wptLate
  extract_lets fired missed
  have hfired : KeepsTbs b fired := (hcounted (by decide) 1).trans (keepsTbs_setWpt _ _ _)
  have hmissed : KeepsTbs b missed := (hcounted (by decide) 0).wrN (by decide) i
  exact .ite (hfired.trans (keepsTbs_dueAdd _ _)) (hmissed.trans (keepsTbs_setWpt _ _ _))

theorem keepsTbs_wptRebase (b : Blk) (m : Nat) : KeepsTbs b (wptRebase b m) := .of_rfl rfl rfl rfl

theorem keepsTbs_frameAnew (b : Blk) (m : Nat) : KeepsTbs b (frameAnew b m) := .of_rfl rfl rfl rfl

/-! ### A Meridian takes another model (R71 to R73) -/

theorem merReg_ge {base m : Nat} (h : 0x40020800 ≤ base) : 0x40020800 ≤ base + 0x200 * m := Nat.le_add_right_of_le h

section
variable (b : Blk) (m : Nat) (x : MerModel) (byDef : Bool)

theorem keepsTbs_merSlewOff : KeepsTbs b (merSlewOff b m) := .setFlag (merReg_ge (by decide)) _ _ (.setMer m _ (.refl b))

theorem keepsTbs_merShowFreq (period : Nat) : KeepsTbs b (merShowFreq b m period) := .wr (merReg_ge (by decide)) _ (.refl b)

theorem keepsTbs_merTake : KeepsTbs b (merTake b m x byDef) :=
  ((KeepsTbs.setMer m _ (.refl b)).trans (keepsTbs_merSlewOff _ m)).trans (keepsTbs_merShowFreq _ m _)

theorem keepsTbs_wrWords {a : Nat} (ha : 0x40020800 ≤ a) (ws : List Nat) : KeepsTbs b (b.wrWords a ws) := by
  induction ws generalizing b a with
  | nil => exact .refl b
  | cons w ws ih => exact ((KeepsTbs.refl b).wrN ha w).trans (ih _ (Nat.le_add_right_of_le ha))

theorem keepsTbs_merSegNow : KeepsTbs b (merSegNow b m x byDef) :=
  .ite (.irq (merReg_ge (by decide)) _ (keepsTbs_wrWords b (Nat.le_add_right_of_le (merReg_ge (by decide))) _)) (.refl b)

theorem keepsTbs_merSlew : KeepsTbs b (merSlew b m x byDef) :=
  .setFlag (merReg_ge (by decide)) _ _ ((KeepsTbs.setMer m _ (.refl b)).trans (keepsTbs_merShowFreq _ m _))

theorem keepsTbs_merJump : KeepsTbs b (merJump b m x byDef) := by
  unfold merJump
  extract_lets p taken q shown running restarted anew
  have hshown : KeepsTbs b shown := .setFlag (merReg_ge (by decide)) _ _ (.count (merReg_ge (by decide)) _
    (.irq (merReg_ge (by decide)) _ (keepsTbs_merTake b m x byDef)))
  have hsegment : KeepsTbs b (merSegNow restarted m x byDef) := (hshown.setMer m _).trans (keepsTbs_merSegNow _ m x byDef)
  have hentry := hsegment.trans (keepsTbs_cnvEntry _ m q.1 (q.1 != p.1))
  have hanew : KeepsTbs b anew := (hentry.trans (keepsTbs_wptRebase _ m)).trans (keepsTbs_frameAnew _ m)
  exact .ite (hanew.trans (.foldl (fun c (e : Nat × Waypoint) => keepsTbs_wptLate c e.1 e.2) _ _)) hanew

theorem keepsTbs_merResolve : KeepsTbs b (merResolve b m x byDef) :=
  .ite ((keepsTbs_merTake b m x byDef).trans (keepsTbs_merSegNow _ m x byDef))
    (.ite ((keepsTbs_merSlew b m x byDef).trans (keepsTbs_merSegNow _ m x byDef)) (keepsTbs_merJump b m x byDef))

/-- What a Meridian does when a time base is moved leaves the time bases alone. -/
theorem keepsTbs_merTbMoved (n : Nat) (d : Int) : KeepsTbs b (merTbMoved b m n d) :=
  .ite (.ite (.setMer m _ (.refl b)) ((KeepsTbs.setMer m _ (.refl b)).trans (keepsTbs_merResolve _ m _ _))) (.refl b)

/-- A Meridian that does not run, or takes its time from another time base, does nothing. -/
theorem merTbMoved_of_other {b : Blk} {m n : Nat} (d : Int) (h : merOn b m = true → merTbSel b m ≠ n) : merTbMoved b m n d = b := by
  refine if_neg ?_
  simp only [Bool.and_eq_true, decide_eq_true_eq, not_and]
  exact fun ⟨hon, hsel⟩ => absurd hsel (h hon)

end

/-! ### The record of a time base -/

section
variable (b : Blk) (n : Nat)

theorem Blk.tb_setTb_self (x : TimeBase) : (b.setTb n x).tb n = x := Tab.at_upd_self ..

theorem Blk.tb_setTb_ne (x : TimeBase) {k : Nat} (h : k ≠ n) : (b.setTb n x).tb k = b.tb k := Tab.at_upd_ne _ _ _ h

theorem Blk.tb_congr {b c : Blk} (h : c.tbs = b.tbs) (k : Nat) : c.tb k = b.tb k := by rw [Blk.tb, h, Blk.tb]

theorem tbMark_tb_self : ∃ hist, (tbMark b n).tb n = { b.tb n with hist := hist } := ⟨_, Blk.tb_setTb_self ..⟩

theorem tbMark_tb_ne {k : Nat} (h : k ≠ n) : (tbMark b n).tb k = b.tb k := Blk.tb_setTb_ne _ _ _ h

/-! ### Another reading (R37, R66) -/

variable (t : Int)

/-- The time base reads `t`, the Meridians not having followed yet. -/
def tbTaken : Blk :=
  let t' := (t % tbModulus).toNat
  let d : Int := (t' : Int) - (b.tb n).time
  tbMark (b.setTb n { b.tb n with time := t', lastSample := (b.tb n).lastSample.map (fun s => ((s + d) % tbModulus).toNat) }) n

theorem tbPut_eq : ∃ d, tbPut b n t = merTbMoved (merTbMoved (tbTaken b n t) 0 n d) 1 n d := ⟨_, rfl⟩

theorem tbTaken_regs : (tbTaken b n t).regs = b.regs := rfl

theorem tbTaken_tb_ne {k : Nat} (h : k ≠ n) : (tbTaken b n t).tb k = b.tb k := (tbMark_tb_ne _ _ h).trans (Blk.tb_setTb_ne _ _ _ h)

theorem tbTaken_tb_self : ((tbTaken b n t).tb n).time = (t % tbModulus).toNat ∧ ((tbTaken b n t).tb n).integ = (b.tb n).integ := by
  unfold tbTaken
  extract_lets t' d
  obtain ⟨hist, hhist⟩ := tbMark_tb_self
    (b.setTb n { b.tb n with time := t', lastSample := (b.tb n).lastSample.map (fun s => ((s + d) % tbModulus).toNat) }) n
  rw [hhist, Blk.tb_setTb_self]
  exact ⟨rfl, rfl⟩

theorem keepsTbs_tbPut : KeepsTbs (tbTaken b n t) (tbPut b n t) := by
  obtain ⟨d, hd⟩ := tbPut_eq b n t
  rw [hd]
  exact (keepsTbs_merTbMoved _ 0 n d).trans (keepsTbs_merTbMoved _ 1 n d)

theorem tbPut_now : (tbPut b n t).now = b.now := (keepsTbs_tbPut b n t).now

theorem tbPut_rd_below {a : Nat} (h : a < 0x40020800) : (tbPut b n t).rd a = b.rd a := (keepsTbs_tbPut b n t).regs a h

theorem tbPut_tb_ne {k : Nat} (h : k ≠ n) : (tbPut b n t).tb k = b.tb k :=
  (Blk.tb_congr (keepsTbs_tbPut b n t).tbs k).trans (tbTaken_tb_ne b n t h)

theorem tbPut_tb_self : ((tbPut b n t).tb n).time = (t % tbModulus).toNat ∧ ((tbPut b n t).tb n).integ = (b.tb n).integ := by
  rw [Blk.tb_congr (keepsTbs_tbPut b n t).tbs n]
  exact tbTaken_tb_self b n t

/-- Where no running Meridian takes its time from the time base, no register changes. -/
theorem tbPut_regs_of_free {b : Blk} {n : Nat} (t : Int) (h : ∀ m : Fin 2, merOn b m = true → merTbSel b m ≠ n) :
    (tbPut b n t).regs = b.regs := by
  obtain ⟨d, hd⟩ := tbPut_eq b n t
  have hfree (m : Fin 2) : merTbMoved (tbTaken b n t) m n d = tbTaken b n t := merTbMoved_of_other d (h m)
  have hboth : merTbMoved (merTbMoved (tbTaken b n t) 0 n d) 1 n d = tbTaken b n t :=
    (congrArg (merTbMoved · 1 n d) (hfree 0)).trans (hfree 1)
  rw [hd, hboth, tbTaken_regs]

end

/-! ### A set or a step is counted (R37) -/

theorem tbReg_apart : ∀ n : Fin 4, Reg.TBn_STEP_COUNT n ≠ Reg.TBn_INT_STATUS n ∧
    Reg.TBn_STEP_COUNT n < 0x40020800 ∧ Reg.TBn_INT_STATUS n < 0x40020800 := by decide

section
variable (b : Blk) (n : Fin 4)

theorem tbStepped_tb_self : (tbStepped b n).tb n = { b.tb n with setClock := some b.now } := Blk.tb_setTb_self ..

theorem tbStepped_tb_ne {k : Nat} (h : k ≠ n) : (tbStepped b n).tb k = b.tb k := Blk.tb_setTb_ne _ _ _ h

theorem tbStepped_rd_ne {a : Nat} (h : a ∉ [Reg.TBn_STEP_COUNT n, Reg.TBn_INT_STATUS n]) : (tbStepped b n).rd a = b.rd a := by
  simp only [List.mem_cons, List.not_mem_nil, or_false, not_or] at h
  obtain ⟨hcount, hint⟩ := h
  exact (Blk.rd_irq_ne _ _ hint).trans (Blk.rd_count_ne _ _ hcount)

theorem tbStepped_count : (tbStepped b n).rdN (Reg.TBn_STEP_COUNT n) = min (2 ^ 32 - 1) (b.rdN (Reg.TBn_STEP_COUNT n) + 1) := by
  obtain ⟨hint, -⟩ := tbReg_apart n
  rw [tbStepped, Blk.rdN_congr (Blk.rd_irq_ne _ _ hint), Blk.rdN_count_self, sat32_eq_min]
  rfl

theorem tbStepped_int : (tbStepped b n).rdN (Reg.TBn_INT_STATUS n) = putBits (b.rdN (Reg.TBn_INT_STATUS n)) 4 4 1 := by
  obtain ⟨hint, -⟩ := tbReg_apart n
  rw [tbStepped, Blk.rdN_irq_self _ _ 4 (by decide), Blk.rdN_congr (Blk.rd_count_ne _ _ hint.symm)]
  rfl

/-! ### SET -/

variable {b n} {who : Requester} (hrun : tbState b n ≠ 0)

theorem tbSet_of_off (h : tbState b n = 0) : tbSet n who b = b := if_pos h

include hrun

theorem tbSet_of_run : tbSet n who b =
    (tbStepped b n).setTb n { (tbStepped b n).tb n with setNext := some (tbSetValue b n who % tbModulus) } := if_neg hrun

theorem tbSet_tb_self : (tbSet n who b).tb n =
    { b.tb n with setClock := some b.now, setNext := some (tbSetValue b n who % tbModulus) } := by
  rw [tbSet_of_run hrun, Blk.tb_setTb_self, tbStepped_tb_self]

theorem tbSet_tb_ne {k : Nat} (h : k ≠ n) : (tbSet n who b).tb k = b.tb k := by
  rw [tbSet_of_run hrun, Blk.tb_setTb_ne _ _ _ h, tbStepped_tb_ne _ _ h]

theorem tbSet_rd (a : Nat) : (tbSet n who b).rd a = (tbStepped b n).rd a := by
  rw [tbSet_of_run hrun]
  exact Blk.rd_congr rfl a

omit hrun

/-- The next clock gives a running time base the value that a SET holds for it. -/
theorem tbAdvance_takes {v : Nat} (hrun : tbState b n ≠ 0) (hnext : (b.tb n).setNext = some v) (hv : v < tbModulus) :
    ((tbAdvance b n).tb n).time = v := by
  rw [tbAdvance, if_neg hrun]
  dsimp only
  rw [Blk.tb_setTb_self, hnext]
  refine (tbPut_tb_self _ _ _).1.trans ?_
  rw [Int.emod_eq_of_lt (Int.natCast_nonneg v) (Int.ofNat_lt.mpr hv), Int.toNat_natCast]

theorem tbSet_next (hrun : tbState b n ≠ 0) : ((tbAdvance (tbSet n who b) n).tb n).time = tbSetValue b n who % tbModulus := by
  have hstate : tbState (tbSet n who b) n = tbState b n :=
    Blk.fld_congr ((tbSet_rd hrun _).trans (tbStepped_rd_ne b n (by simp))) 2 0
  exact tbAdvance_takes (hstate ▸ hrun) (by rw [tbSet_tb_self hrun]) (Nat.mod_lt _ (by decide))

/-! ### STEP -/

theorem tbStep_of_off (h : tbState b n = 0) : tbStep n who b = b := if_pos h

theorem tbStep_of_run (hrun : tbState b n ≠ 0) :
    tbStep n who b = tbStepped (tbPut b n ((b.tb n).time + tbStepValue b n who * 2 ^ 32)) n := if_neg hrun

end

/-- A set or a step, whatever the Meridians do that follow it, is counted once and sets STEPPED. -/
theorem tbStepped_tbPut_counted (b : Blk) (n : Fin 4) (t : Int) :
    (tbStepped (tbPut b n t) n).rdN (Reg.TBn_STEP_COUNT n) = min (2 ^ 32 - 1) (b.rdN (Reg.TBn_STEP_COUNT n) + 1) ∧
    (tbStepped (tbPut b n t) n).rdN (Reg.TBn_INT_STATUS n) = putBits (b.rdN (Reg.TBn_INT_STATUS n)) 4 4 1 := by
  obtain ⟨-, hcount, hint⟩ := tbReg_apart n
  rw [tbStepped_count, tbStepped_int, Blk.rdN_congr (tbPut_rd_below b n t hcount), Blk.rdN_congr (tbPut_rd_below b n t hint)]
  exact ⟨rfl, rfl⟩

/-! ### ACCEPT_JUMP (R43) -/

section
variable (b : Blk) (n : Fin 4)

theorem acceptJump_tb_self : (acceptJump n b).tb n = { b.tb n with armClock := some b.now, armedBefore := tbArmed b n } :=
  (Blk.tb_congr (Blk.setFlag_tbs ..) n).trans (Blk.tb_setTb_self ..)

theorem acceptJump_tb_ne {k : Nat} (h : k ≠ n) : (acceptJump n b).tb k = b.tb k :=
  (Blk.tb_congr (Blk.setFlag_tbs ..) k).trans (Blk.tb_setTb_ne _ _ _ h)

end

theorem exec_onBlk_by_unchanged {d : Nat} {who : Requester} {f : Blk → Blk} {s : State} {i : Instr} (h : domFor s.blk d who = true)
    (he : exec i s = inDomBy d who (onBlk f) s) (hf : f s.blk = s.blk) : exec i s = .next s := by
  rw [he, inDomBy_on h, onBlk, hf]

/-- Settles O12: SET and STEP are counted by `tbStepped`; what the Meridians do that follow keeps the time bases (`keepsTbs_tbPut`). -/
theorem timeBaseJumpArm : Obligations.TimeBaseJumpArm := by
  intro s n who hdom counted
  refine ⟨?_, fun hoff => ⟨?_, ?_⟩, fun hrun => ⟨?_, ?_⟩⟩
  · refine answers_onBlk (f := acceptJump n) (domOn_of_domFor hdom) rfl ?_
    have hself := acceptJump_tb_self s.blk n
    refine ⟨Blk.flag_setFlag_self _ _ _ _ (by decide), congrArg TimeBase.armClock hself, congrArg TimeBase.armedBefore hself,
      (congrArg TimeBase.time hself).trans rfl, fun a ha => ?_, rfl, fun k hk => acceptJump_tb_ne _ _ hk⟩
    exact Blk.rd_setFlag_ne _ _ _ (by simpa using ha)
  · exact exec_onBlk_by_unchanged hdom rfl (tbSet_of_off hoff)
  · exact exec_onBlk_by_unchanged hdom rfl (tbStep_of_off hoff)
  · refine answers_onBlk_by (f := tbSet n who) hdom rfl ?_
    have hself := tbSet_tb_self (who := who) hrun
    exact ⟨(congrArg TimeBase.time hself).trans rfl, (congrArg TimeBase.integ hself).trans rfl,
      congrArg TimeBase.setClock hself, rfl, tbSet_next hrun,
      ⟨(Blk.rdN_congr (tbSet_rd hrun _)).trans (tbStepped_count _ n), (Blk.rdN_congr (tbSet_rd hrun _)).trans (tbStepped_int _ n)⟩,
      fun k hk => tbSet_tb_ne hrun hk, fun a ha => (tbSet_rd hrun a).trans (tbStepped_rd_ne _ n ha)⟩
  · refine answers_onBlk_by (f := tbStep n who) hdom rfl ?_
    rw [tbStep_of_run hrun]
    obtain ⟨htime, hinteg⟩ := tbPut_tb_self s.blk n ((s.blk.tb n).time + tbStepValue s.blk n who * 2 ^ 32)
    have hself := tbStepped_tb_self (tbPut s.blk n ((s.blk.tb n).time + tbStepValue s.blk n who * 2 ^ 32)) n
    refine ⟨?_, (congrArg TimeBase.integ hself).trans hinteg, (congrArg TimeBase.setClock hself).trans (congrArg some (tbPut_now ..)), rfl,
      tbStepped_tbPut_counted .., fun k hk => (tbStepped_tb_ne _ n hk).trans (tbPut_tb_ne _ _ _ hk), fun hfree a ha => ?_⟩
    · rw [congrArg TimeBase.time hself]
      exact (congrArg Nat.cast htime).trans (Int.toNat_of_nonneg (Int.emod_nonneg _ (by decide)))
    · exact (tbStepped_rd_ne _ n ha).trans (Blk.rd_congr (tbPut_regs_of_free _ hfree) a)

end Sys2Proof.Machine
end
